-- ==== Sys2Proof/Word.lean ====
section
/-! DEFINITION. The word types of the LA-1024 model. Bit vectors are used only for what the manual treats as bits;
counts, times, lengths and numbers of instances are natural numbers. -/
namespace Sys2Proof

/-- One byte of a packet, a descriptor, a record or an operand. -/
abbrev Byte := BitVec 8

/-- One 64-bit register or doorbell word (02 R41). -/
abbrev Word := BitVec 64

/-- A byte string, first byte at the lowest address. -/
abbrev Bytes := List Byte

end Sys2Proof
end

