-- ==== Sys2Proof/Syntax.lean ====
section
/-! DEFINITION. The commands of the block: one constructor of `Instr` for every row of spec/opcode_table.json, in the
table's order. A row that executes a command packet takes no operand: the packet stands in CTRL SRAM (03 R70). An event
row takes what the pins, a checker or a comparison present at that event. -/
namespace Sys2Proof

/-- FAB_n_RSP_STATUS (02 Table 2-2). -/
inductive RspStatus where
  | ok | accessDenied | decodeErr | poison
  deriving DecidableEq, Repr

/-- Which lanes of a 64-bit register a control register port access covers (02 R41, CRP_SIZE and address bit 2). -/
inductive Lanes where
  | full | low | high
  deriving DecidableEq, Repr

/-- The two control processors (14 R363). -/
inductive Scribe where
  | a | b
  deriving DecidableEq, Repr

/-- What wakes the block, in the encoding order of GLB_POWER_STAT.LAST_WAKE (14 R370). -/
inductive WakeCause where
  | doorbell | wakeBit | timed | fault | controlWrite
  deriving DecidableEq, Repr

/-- The instructions of the test access port that the manual names (02 R57, 18 Table 18-1), and the production-test
move of 18 R441. -/
inductive TapIr where
  | idcode | bypass | bistStatus | other
  | provisionMove (certificate : Bytes)
  deriving DecidableEq, Repr

/-- The result of one built-in self-test, as 13 Table 13-3 encodes it. -/
structure TestOutcome where
  logicFail : Bool
  memoryFail : Bool
  katFail : Bool
  rowsRepaired : BitVec 8
  deriving DecidableEq, Repr

/-- A unit and the result of its start BIST (14 R361). -/
structure UnitBist where
  engsel : BitVec 10
  result : TestOutcome
  deriving DecidableEq, Repr

/-- A unit whose sequencer memory reads back otherwise than written, and what it reads (14 R362). -/
structure Readback where
  engsel : BitVec 10
  data : Bytes
  deriving DecidableEq, Repr

/-- Where a read at the control register port goes: an offset of the control window or of the doorbell window (02 R41). -/
structure ReadAddr where
  bells : Bool
  addr : BitVec 19
  deriving DecidableEq, Repr

/-- The end of a sweep's test: its result and the readback of the reload behind it (13 R336; 14 R362). -/
structure TestEnd where
  result : TestOutcome
  readback : List Readback
  deriving DecidableEq, Repr

/-- A unit's reload and its readback (14 R362; 16 R407). -/
structure Reload where
  engsel : BitVec 10
  readback : List Readback
  deriving DecidableEq, Repr

/-- What the checks of an exit from a power state find (14 R360, R362). -/
structure ExitCheck where
  digestOk : Bool
  readback : List Readback
  deriving DecidableEq, Repr

/-- What the self-tests and the readbacks of a start find (14 R359, R361, R362). -/
structure StartTests where
  scribeA : Option TestOutcome
  scribeB : Option TestOutcome
  control : Option (BitVec 12)
  units : List UnitBist
  readback : List Readback
  deriving DecidableEq, Repr

/-- One 256-bit word on the stream port (02 Table 2-6). -/
structure StreamBeat where
  channel : Fin 64
  data : Bytes
  sof : Bool
  len : BitVec 16
  eof : Bool
  validBytes : BitVec 5
  trunc : Bool
  deriving DecidableEq, Repr

/-- A value of the time bus (02 Table 2-7). -/
structure TimeSample where
  sec : BitVec 48
  ns : BitVec 30
  qual : BitVec 4
  deriving DecidableEq, Repr

/-- What a patrol-scrub access finds in a row (13 R343). -/
inductive ScrubResult where
  | clean | corrected | uncorrectable
  deriving DecidableEq, Repr

/-- How an NVM program and verify step ended (15 R372, R378). -/
inductive NvmResult where
  | verified | verifyFailed | corrected | uncorrectable
  deriving DecidableEq, Repr

/-- The logs of the NVM that the controller compacts (15 Table 15-3, R379). -/
inductive NvmLog where
  | sectorMap | marker | counter | repair | versionTree | keyArchive
  deriving DecidableEq, Repr

/-- The card limits of 17 Table 17-7. -/
inductive CardTimer where
  | response | readData | ack | busy | ident | forceErase
  deriving DecidableEq, Repr

/-- The commands of the block (spec/opcode_table.json). -/
inductive Instr where
  | aonPowerOnReset
  | coreResetAssert
  | coreResetRelease (tests : StartTests)
  | carveInitComplete
  | pllRefclkLoss
  | aonXtalLoss
  | aonXtalReturn
  | vddNvmBrownout
  | vddNvmRecover
  | vddNvmLowTimeout
  | fabReadData (port : Fin 4) (tag : BitVec 11) (status : RspStatus) (parityOk last : Bool) (data : Bytes)
  | fabWriteAck (port : Fin 4) (tag : BitVec 11) (status : RspStatus)
  | fabricTimeout (port : Fin 4) (tag : BitVec 11)
  | fabCreditReturn (port : Fin 4) (req : Bool) (wdat : BitVec 2)
  | fabPortResetAssert (port : Fin 4)
  | fabPortResetRelease (port : Fin 4)
  | fabClockLost (port : Fin 4)
  | creditRateMeasure
  | registerWrite (addr : BitVec 19) (lanes : Lanes) (data : Word)
  | rcCounterRead (addr : ReadAddr) (lanes : Lanes)
  | doorbellDirectWrite (page : Fin 1024) (slot : Fin 512) (sid : BitVec 16) (wide : Bool) (data : Word)
  | doorbellIndirectTail (page : Fin 1024) (sid : BitVec 16) (wide : Bool) (data : Word)
  | doorbellIndirectHead (page : Fin 1024) (sid : BitVec 16) (wide : Bool) (data : Word)
  | cmdAdminTailWrite (lanes : Lanes) (data : Word)
  | cmdAdminEnableWrite (lanes : Lanes) (data : Word)
  | cmdAdminReset (lanes : Lanes) (data : Word)
  | cmdReplyHeadWrite (lanes : Lanes) (data : Word)
  | cmdReplyEnableWrite (lanes : Lanes) (data : Word)
  | cmdMboxGo (lanes : Lanes) (data : Word)
  | glbPowerWakeWrite (lanes : Lanes) (data : Word)
  | glbCarveEnableWrite (lanes : Lanes) (data : Word)
  | glbLedgerHeadWrite (lanes : Lanes) (data : Word)
  | cpwIrqEnableWrite (lanes : Lanes) (data : Word)
  | rngRotateWrite (lanes : Lanes) (data : Word)
  | rngDataRead (lanes : Lanes)
  | fltMsgRead (lanes : Lanes)
  | timNowSecRead (lanes : Lanes)
  | laneRetrain (lanes : Lanes) (data : Word)
  | adminPacketFetch
  | commandDeadlineExpiry
  | fenceDrainComplete
  | nop
  | getInfo
  | statusSnapshot
  | setPowerPolicy
  | scribeHandover
  | cpOpen
  | cpClose
  | cpSetPolicy
  | cpSetQuota
  | cpQuery
  | keyImport
  | keyGenerate
  | keyExport
  | keyDestroy
  | keyStoreNvm
  | keyLoadNvm
  | sessionCreate
  | sessionBindRing
  | sessionClose
  | sessionQuery
  | ringCreate
  | cplRingCreate
  | ringDestroy
  | ringRestart
  | ringSetCoalesce
  | ringQuery
  | streamOpen
  | streamClose
  | streamDropRest
  | streamSetWindow
  | timeQuery
  | timeSetPolicy
  | epochSchedule
  | fltSetClass
  | fltSetTimers
  | fltAck
  | fltClear
  | fltReleaseErr
  | fltInject
  | unitRetire
  | unitTest
  | sweepControl
  | rowRepair
  | storeSettings
  | settingsImageLoad
  | nvmQuery
  | counterRead
  | counterIncrement
  | fwBegin
  | fwChunk
  | fwEnd
  | activate
  | activateAt
  | confirmHealth
  | fwAbort
  | relayPacket
  | cardQuery
  | cardUnlock
  | cardSetPassword
  | cardForceErase
  | archiveWrite
  | archiveRestore
  | cardPower
  | windowLease
  | windowRelease
  | operandClear
  | windowQuery
  | rngFill
  | rngReseed
  | rngHealth
  | readCert
  | attest
  | rewrapKey
  | provision
  | pair
  | lifecycle
  | skeinVisit
  | needleAdmission
  | heldJobRelease
  | urgentSuspendComplete (nib : Fin 20)
  | outputChunkRelease (job : BitVec 13)
  | encrypt (job : BitVec 13) (agree : Bool)
  | decrypt (job : BitVec 13) (agree : Bool)
  | macGen (job : BitVec 13) (agree : Bool)
  | macVerify (job : BitVec 13) (agree : Bool)
  | digest (job : BitVec 13) (agree : Bool)
  | digestVerify (job : BitVec 13) (agree : Bool)
  | hmacGen (job : BitVec 13) (agree : Bool)
  | hmacVerify (job : BitVec 13) (agree : Bool)
  | hookOp (job : BitVec 13) (agree : Bool)
  | random (job : BitVec 13)
  | quillContextCopyEnd (quill : Fin 14)
  | hookWindowCopyEnd (hook : Fin 9)
  | completionPost
  | coalesceTimerExpiry (ring : BitVec 20)
  | streamWord (beat : StreamBeat)
  | streamFrameVerify (job : BitVec 13) (agree parityOk : Bool)
  | streamFrameTag (job : BitVec 13) (agree parityOk : Bool)
  | windowOpening (channel : Fin 64)
  | timPpsEdge (ref : TimeSample)
  | ppsMissing (ref : TimeSample)
  | timeInputUsable (ref : TimeSample)
  | timeInputUnusable (clockLost : Bool)
  | timRankChange (ref : TimeSample)
  | referenceSwitchCommit
  | slewEnd
  | epochTick
  | epochClose
  | keyEpochClose
  | ledgerBankWrite
  | faultEvent (source : BitVec 12) (kind : BitVec 6) (address : BitVec 44)
  | errpwExpiry
  | reactionTimerExpiry (source : BitVec 12)
  | escalationDeferredStart
  | errNReadbackMismatch (level : Bool)
  | sweepStep
  | unitDrainEnd (engsel : BitVec 10)
  | sweepTestEnd (result : TestEnd)
  | rowRepairCopyEnd (array : BitVec 9)
  | patrolScrubRow (array : BitVec 9) (row : BitVec 12) (found : ScrubResult)
  | microcodeRolloverUnit (unit : Reload)
  | cellStartupTestEnd (cell : Fin 16) (pass : Bool)
  | cellRetestEnd (cell : Fin 16) (pass : Bool)
  | healthWindowClose (cell : Fin 16) (count : BitVec 11)
  | cellRotation
  | inkClockLost
  | inkClockReturn
  | conditionerOutput (agree : Bool)
  | feedReseedDue (feed : Fin 8) (agree : Bool)
  | rngDataRefill
  | p1Entry
  | deepIdleEntry
  | powerEntryCommit
  | wakeEvent (cause : WakeCause)
  | timedWake
  | powerExitComplete (found : ExitCheck)
  | batonRenewal (scribe : Scribe) (epoch : BitVec 48)
  | batonLapse
  | scribeGoQuiet (scribe : Scribe)
  | standbyReady (scribe : Scribe)
  | nvmOperationComplete (result : NvmResult)
  | nvmEraseComplete (blankFirst blankSecond : Bool)
  | logCompaction (log : NvmLog)
  | journalReplayEnd
  | activationPreparationStart
  | tokenHoldWindowStart
  | activationReadyTimeout
  | activationPauseStart
  | selfCheckComplete (pass : Bool)
  | probationExpiry
  | cardDebounceDone
  | cardRemoval
  | cardProbe (millivolts : BitVec 12) (seated : Bool)
  | slotPowerFail
  | cardResponseFrame (frame : BitVec 48)
  | cardDataBlock (lines : List (List Bool))
  | cardAckByte (ack : Byte)
  | cardBusyEnd
  | cardTimeout (limit : CardTimer)
  | cardPwFailReply
  | laneHeaderLock (lane : Fin 34)
  | laneLockLost (lane : Fin 34)
  | laneDead (lane : Fin 34)
  | laneAlignmentMarker (lane : Fin 34) (typeByte : Byte) (logical complement : BitVec 6) (count : BitVec 16) (skew : BitVec 4)
  | flitReceived (flit : Bytes)
  | nakReceived (lastGood : BitVec 12)
  | linkTrainingComplete (healthy : BitVec 34)
  | laneRefclkLoss
  | vddAonRemoved
  | tapInstruction (ir : TapIr)
  | repetitionCountFailure (cell : Fin 16)
  | errNReadbackAgree
  | leaseZeroingComplete (window : BitVec 9)
  deriving DecidableEq, Repr

end Sys2Proof
end

