-- ==== Sys2Proof/WellFormed.lean ====
section
/-! DEFINITION. The shapes that the interface can carry: beats of 128 bytes (02 R31), stream words of 32 bytes (02 R44), flits
of 256 bytes (02 R63), and ENGSEL codes that name a unit (07 R218, 08 R241, 09 R265). -/
namespace Sys2Proof

/-- ENGSEL codes: kind in [9:8], number in [7:0]; 20 nibs, 14 quills, 9 hooks. -/
def engineCode (c : Nat) : Bool :=
  decide (c < 20) || (decide (0x100 ≤ c) && decide (c < 0x10E)) || (decide (0x200 ≤ c) && decide (c < 0x209))

/-- Whether a command's operands have a shape that exists at the interface. -/
def Instr.wf (i : Instr) : Bool :=
  match i with
  | .fabReadData _ _ _ _ _ data => data.length == 128
  | .streamWord b => b.data.length == 32
  | .flitReceived f => f.length == 256
  | .coreResetRelease t => t.units.all (fun u => engineCode u.engsel.toNat)
  | .unitDrainEnd c => engineCode c.toNat
  | .microcodeRolloverUnit u => engineCode u.engsel.toNat
  | _ => true

end Sys2Proof
end

