-- ==== Sys2Proof/Config.lean ====
section
/-! DEFINITION. What the spec fixes outside its own text, or leaves open: the fuse key, the free values, and the standard
algorithms that the spec names and does not define. Every constant here is opaque: nothing in Lean can evaluate it, so
what is proved holds for every value it may have (log 5, log 6). -/
namespace Sys2Proof.Config

/-- K_ROOT, the 256-bit fuse key (06, before R155). -/
opaque kRoot : Bytes

/-- The bytes that the spec leaves open, by the counter `clk.free` that each use advances (log 5). -/
opaque freeByte : Nat → BitVec 8

/-- AES encryption of one 16-byte block under a 16, 24 or 32-byte key (07 R192). -/
opaque aesEncrypt (key block : Bytes) : Bytes

/-- AES decryption of one 16-byte block. -/
opaque aesDecrypt (key block : Bytes) : Bytes

/-- AES-CCM: ciphertext and tag (07 R193). -/
opaque ccmSeal (key nonce aad data : Bytes) (tagLen : Nat) : Bytes × Bytes

/-- AES-CCM opening: plaintext and the tag computed. -/
opaque ccmOpen (key nonce aad data : Bytes) (tagLen : Nat) : Bytes × Bytes

/-- AES-CMAC, 16 bytes (07 R193). -/
opaque cmac (key data : Bytes) : Bytes

/-- AES-XTS over one data unit with its sequence number (07 R193). -/
opaque xts (decrypt : Bool) (key : Bytes) (unit : Nat) (data : Bytes) : Bytes

/-- ChaCha20-Poly1305: output and tag computed (07 R193). -/
opaque chachaPoly (decrypt : Bool) (key nonce aad data : Bytes) : Bytes × Bytes

/-- The Quill functions by ALG, with the output length that SHAKE takes (08 Table 8-1). -/
opaque digest (alg : Nat) (message : Bytes) (outLen : Nat) : Bytes

/-- AES-KWP wrapping (RFC 5649), as 06 R158 uses it. -/
opaque kwpWrap (key plain : Bytes) : Bytes

/-- AES-KWP unwrapping; none where its integrity check fails. -/
opaque kwpUnwrap (key wrapped : Bytes) : Option Bytes

/-- The composite Hook operations that standards define (09 Table 9-4): result bytes from the operation, its operands, the key material
and the random bytes drawn. The checks of Table 9-5 that need nothing but integers stand in `hookComp`. -/
opaque hookComposite (alg op : Nat) (operands key random : Bytes) : Bytes

/-- Whether the 32 bytes decode to a point of edwards25519 that is not of small order (09 Table 9-5, RFC 8032). -/
opaque edPointOk (encoded : Bytes) : Bool

/-- The modulus of the CRT-form RSA key of an extended record, whose layout the spec does not give (06 Table 6-3). -/
opaque rsaModulus (key : Bytes) : Nat

/-- Output `k` of a nib's mask generator from its seed, which the spec does not give (07 R206 to R208; log 125). -/
opaque maskWord (seed : Bytes) (k : Nat) : Nat

/-- The Poly1305 accumulator over the whole blocks so far, as a context holds it (07 R210, RFC 8439). -/
opaque polyState (key nonce data : Bytes) : Bytes

/-- Whether a Hook operation ends without a sample, by its operands and its random bytes (09 R258). -/
opaque sampleExhausted (alg op : Nat) (operands key random : Bytes) : Bool

/-- Whether a verify operation accepts (09 R254). -/
opaque hookVerdict (alg op : Nat) (operands : Bytes) : Bool

/-- The number-theoretic transform of a polynomial, and its inverse (09 R249). -/
opaque ntt (alg : Nat) (inverse : Bool) (poly : List Nat) : List Nat

/-- A point or pointwise product that a standard defines (09 Table 9-3). -/
opaque hookPrimitive (alg op : Nat) (operands : Bytes) : Option Bytes

/-- A signature check by a trust anchor or certificate key: scheme name, signer, message, signature (16 R389, 17 R436,
18 R446). -/
opaque verifySignature (signer message signature : Bytes) : Bool

/-- The signatures that the device identity makes over a statement with the P-384 and the ML-DSA-65 key of its seeds (18 R443,
R444). -/
opaque identitySign (p384Seed mldsaSeed message random : Bytes) : Bytes

/-- The public part of a key pair made from a draw (18 R445). -/
opaque publicKey (draw : Bytes) : Bytes

/-- Encapsulation and ECDH to a P-384 key and an ML-KEM-1024 key, from a draw: what is sent, the ephemeral P-384 key followed by
the ciphertext, and the two shared secrets, ss_kem followed by ss_ecdh (17 R433). -/
opaque encapsulate (ecdhKey kemKey draw : Bytes) : Bytes × Bytes

/-- The two shared secrets, ss_kem followed by ss_ecdh, of what was sent to the pair made from a draw (18 R448). -/
opaque decapsulate (draw ecdhKey ciphertext : Bytes) : Bytes

/-- The entry of the version tree for a record, under the tree's key: its layout is the block's own, which the spec does not give (06
Table 6-7, R175). -/
opaque treeEntry (key : Bytes) (record version : Nat) : Bytes

/-- Rows of an SRAM array, which the spec does not give (13 R344); at most 4,096 by the 12-bit row field. -/
opaque arrayRows (array : Nat) : Nat

/-- The image as it is delivered, by logical image sector (log 4). -/
opaque deliveredSector (sector : Nat) : Bytes

/-- Chunks of the delivered image. -/
opaque deliveredChunks : Nat

/-- The Scribe part and the microcode part of an image, whose places in it the spec does not give (14 Table 14-2, 16 R404). -/
opaque scribePart (image : Bytes) : Bytes
opaque microcodePart (image : Bytes) : Bytes

/-- What the microcode store holds for the sequencer memory of a unit of a kind (14 R362). -/
opaque sequencerPart (store : Bytes) (kind : Nat) : Bytes

/-- SHA-384 digests of the public keys of the four trust anchors, in fuses (16 R389). -/
opaque anchorDigest (anchor : Nat) : Bytes

/-- The values of a settings body in the order of 15 Table 15-5, whose layout the spec does not give; none where the format
check fails. -/
opaque settingsValues (body : Bytes) : Option (List Nat)

/-- Bytes of the settings body as STORE_SETTINGS writes it, at most 48,896 (15 R383). -/
opaque settingsBytes : Nat

/-- The cache hint of FAB_n_REQ_ATTR[1:0] (02 Table 2-2), which the spec gives no access; by the kind of the request's owner, the
address and the length (log 113). -/
opaque cacheHint (owner addr len : Nat) : Nat

/-- The lane map that a link-control flit of the host die asks for, whose layout the spec does not give: pairs of a logical and a
physical lane (02 R68; log 114). -/
opaque linkMap (payload : Bytes) : List (Nat × Nat)

/-- CRC-64 of a link flit (02 Table 2-13). -/
opaque crc64 (data : Bytes) : Bytes

end Sys2Proof.Config
end

