-- ==== Sys2Proof/Machine/Tbl.lean ====
section
/-! DEFINITION. Sparse tables: the block's large arrays (rings, sessions, slots, sources, job table) as lists of
numbered entries in one canonical form, keys strictly rising; and the operand memory of a Hook lease as such a list of
cells in which no cell holds the value that an unlisted address reads as (09 R242, R246). -/
namespace Sys2Proof.Machine

/-- A sparse table: entry number and entry, numbers strictly rising. -/
abbrev Tbl (α : Type) := List (Nat × α)

/-- The entry numbered `k`, if the table holds one. -/
def tget {α : Type} (t : Tbl α) (k : Nat) : Option α :=
  match t with
  | [] => none
  | (k', v) :: r => if k' = k then some v else tget r k

/-- The entry numbered `k`, or `d` where the table holds none. -/
def tgetD {α : Type} (t : Tbl α) (k : Nat) (d : α) : α := (tget t k).getD d

/-- The table with entry `k` set to `v`. -/
def tput {α : Type} (t : Tbl α) (k : Nat) (v : α) : Tbl α :=
  match t with
  | [] => [(k, v)]
  | (k', v') :: r =>
    if k < k' then (k, v) :: (k', v') :: r
    else if k = k' then (k, v) :: r
    else (k', v') :: tput r k v

/-- The table without an entry `k`. -/
def tdel {α : Type} (t : Tbl α) (k : Nat) : Tbl α := t.filter (fun e => e.1 ≠ k)

/-- Entry `k` changed by `f` where it stands; a table without it is unchanged. -/
def tmod {α : Type} (t : Tbl α) (k : Nat) (f : α → α) : Tbl α :=
  t.map (fun e => if e.1 = k then (e.1, f e.2) else e)

/-- Entry `k`, `d` where there is none, changed by `f` and stored. -/
def tmodD {α : Type} (t : Tbl α) (k : Nat) (d : α) (f : α → α) : Tbl α := tput t k (f (tgetD t k d))

/-- Every entry changed by `f`. -/
def tmap {α : Type} (t : Tbl α) (f : Nat → α → α) : Tbl α := t.map (fun e => (e.1, f e.1 e.2))

/-- The number of entries that satisfy `p`. -/
def tcount {α : Type} (t : Tbl α) (p : Nat → α → Bool) : Nat := (t.filter (fun e => p e.1 e.2)).length

/-- The first entry that satisfies `p`. -/
def tfind {α : Type} (t : Tbl α) (p : Nat → α → Bool) : Option (Nat × α) := t.find? (fun e => p e.1 e.2)

/-- Whether `k` lies below every key of the table. -/
def tbelow {α : Type} (k : Nat) (t : Tbl α) : Bool :=
  match t with
  | [] => true
  | (k', _) :: _ => k < k'

/-- The canonical form: keys strictly rising. -/
def Tbl.wf {α : Type} (t : Tbl α) : Bool :=
  match t with
  | [] => true
  | (k, _) :: r => tbelow k r && Tbl.wf r

/-- The least number from `k` on, among the next `n`, that the table does not hold. -/
def tfree {α : Type} (t : Tbl α) (k n : Nat) : Option Nat :=
  match n with
  | 0 => none
  | n + 1 => if (tget t k).isNone then some k else tfree t (k + 1) n

/-- Operand memory of a Hook lease: cells by byte address; an unlisted address reads 0 (09 R246). -/
abbrev Memory := List Host.Cell

/-- What an unlisted address of a window reads as: windows are zeroed before use (09 R243, R246). -/
def Memory.blank : Byte := 0

/-- One byte of operand memory. -/
def Memory.read (m : Memory) (a : Nat) : Byte := tgetD m a Memory.blank

/-- One byte written; writing the blank value removes the entry. -/
def Memory.write (m : Memory) (a : Nat) (b : Byte) : Memory :=
  if b = Memory.blank then tdel m a else tput m a b

/-- `n` bytes from address `a`. -/
def Memory.readBytes (m : Memory) (a n : Nat) : Bytes := (List.range n).map (fun i => Memory.read m (a + i))

/-- The bytes `b` written from address `a` on. -/
def Memory.writeBytes (m : Memory) (a : Nat) (b : Bytes) : Memory :=
  match b with
  | [] => m
  | x :: r => Memory.writeBytes (Memory.write m a x) (a + 1) r

/-- The canonical form: addresses strictly rising and no entry equal to the blank value. -/
def Memory.wf (m : Memory) : Bool := Tbl.wf m && m.all (fun c => c.2 != Memory.blank)

end Sys2Proof.Machine
end

