-- ==== Sys2Proof/Machine/Bytes.lean ====
section
/-! DEFINITION. Byte strings, bit fields and saturating counts. Every multi-byte field is little-endian, byte 0 at the
lowest address (00 R6, R7). -/
namespace Sys2Proof.Machine

/-- The number that the bytes spell, least significant byte first. -/
def leNat (b : Bytes) : Nat :=
  match b with
  | [] => 0
  | x :: r => x.toNat + 256 * leNat r

/-- `n` bytes of `v`, least significant first. -/
def leBytes (n v : Nat) : Bytes :=
  match n with
  | 0 => []
  | n + 1 => BitVec.ofNat 8 v :: leBytes n (v / 256)

/-- `n` bytes of `v`, most significant first (06 R155 be32). -/
def beBytes (n v : Nat) : Bytes := (leBytes n v).reverse

/-- The number that the bytes spell, most significant byte first. -/
def beNat (b : Bytes) : Nat := leNat b.reverse

/-- `n` bytes of `b` from offset `o`. -/
def slice (b : Bytes) (o n : Nat) : Bytes := (b.drop o).take n

/-- The little-endian field of `n` bytes at offset `o`; bytes past the end read 0. -/
def fld (b : Bytes) (o n : Nat) : Nat := leNat (slice b o n)

/-- The first `n` bytes of `b`, zero-padded. -/
def padTo (n : Nat) (b : Bytes) : Bytes := (b ++ List.replicate n 0).take n

def zeros (n : Nat) : Bytes := List.replicate n 0

def xorBytes (a b : Bytes) : Bytes := List.zipWith (fun x y => x ^^^ y) a b

/-- Whether every byte is 0. -/
def allZero (b : Bytes) : Bool := b.all (fun x => x == 0)

/-- Bytes of an ASCII label (06 R155). -/
def label (l : String) : Bytes := l.toList.map (fun c => BitVec.ofNat 8 c.toNat)

/-- Bits [lo + w - 1 : lo] of `x`. -/
def bits (x lo w : Nat) : Nat := x / 2 ^ lo % 2 ^ w

/-- A one-bit field as a number. -/
def b2n (b : Bool) : Nat := if b then 1 else 0

/-- ⌈a / b⌉. -/
def cdiv (a b : Nat) : Nat := (a + b - 1) / b

/-- `n + k` in a saturating counter of `w` bits. -/
def satAdd (w n k : Nat) : Nat := min (n + k) (2 ^ w - 1)

/-- `n + 1` in a wrapping counter of `w` bits. -/
def wrapInc (w n : Nat) : Nat := (n + 1) % 2 ^ w

/-- A signed level as a two's-complement field of `w` bits (05 R146). -/
def signed (w : Nat) (i : Int) : Nat := (BitVec.ofInt w i).toNat

/-- 16-byte blocks of `b`, the last one short if the length is no multiple. -/
def chunksOf (fuel k : Nat) (b : Bytes) : List Bytes :=
  match fuel with
  | 0 => []
  | f + 1 => if b.isEmpty then [] else b.take k :: chunksOf f k (b.drop k)

def blocks16 (b : Bytes) : List Bytes := chunksOf (b.length / 16 + 1) 16 b

/-- A span cut at 4 KiB boundaries (02 R33): address and length of each part. -/
def splitSpan (fuel addr len : Nat) : List (Nat × Nat) :=
  match fuel with
  | 0 => []
  | f + 1 =>
    if len = 0 then []
    else
      let n := min len (4096 - addr % 4096)
      (addr, n) :: splitSpan f (addr + n) (len - n)

def spans (addr len : Nat) : List (Nat × Nat) := splitSpan (len / 4096 + 2) addr len

/-- Whether two byte ranges share a byte. -/
def overlaps (a la b lb : Nat) : Bool := a < b + lb && b < a + la && 0 < la && 0 < lb

/-- Bytes put together from parts listed by offset. -/
def joinParts (t : Tbl Bytes) : Bytes := (t.map (·.2)).flatten

/-- Units of time in SKEIN cycles of 1.5 GHz (01 R27), each rounded up (05 R127). -/
def cyNs (n : Nat) : Nat := cdiv (3 * n) 2
/-- Whole SKEIN cycles within `n` ns. -/
def cyNsDown (n : Nat) : Nat := 3 * n / 2
def cyUs (n : Nat) : Nat := 1500 * n
def cyMs (n : Nat) : Nat := 1500000 * n
def cyNib (n : Nat) : Nat := cdiv (6 * n) 7
def cyQuill (n : Nat) : Nat := cdiv (15 * n) 14
def cyHook (n : Nat) : Nat := cdiv (5 * n) 4
def cyCtrl (n : Nat) : Nat := cdiv (15 * n) 8

end Sys2Proof.Machine
end

