-- ==== Sys2Proof/Machine/State.lean ====
section
/-! DEFINITION. The state of the LA-1024 as plain data, grouped by the subsystem that owns it (01 Table 1-1); the reasons a
step can stop; and the state after AON_PORST_N. Field defaults are the reset values; the docstrings name the rules. -/
namespace Sys2Proof.Machine

/-- Status codes of command replies and job completions (03 Table 3-16, 19 Table 19-6). -/
inductive Status where
  | ok | invalidOpcode | invalidField | notPermitted | accessFault
  | keyStale | keyRevoked | policyRevoked | sessionClosed | nonceExhausted | blobInvalid
  | lengthTruncated | tagMismatch | poisoned | truncatedFrame | chainAborted | padMismatch | contextLost | streamOverflow
  | windowShort | deadlineMissed | quotaExceeded
  | maintBusy | unitFault | failSilent | maintAborted | causePresent | capacityFloor
  | pointInvalid | computeMismatch | operandRange | sampleExhausted
  | rngUnavailable | cardAbsent | cardLocked | cardFailed | imageInvalid | imageRollback | activationFailed
  deriving DecidableEq, Repr

/-! ### Pins and clocks -/

/-- Tie-offs, clock and supply inputs, pads and the test port (02 R31, R52, R53, R57, R58; 15 R380). -/
structure Pins where
  /-- Integration form LA-1024/L (00 R4); log 3. -/
  formL : Bool := false
  cfgFabEn : BitVec 4 := 0xF
  cfgFabRoute : BitVec 4 := 0
  /-- VDD_AON present; false is P4 (14 R352). -/
  powered : Bool := true
  /-- CORE_RST_N low (02 R55). -/
  coreInReset : Bool := true
  xtalLost : Bool := false
  pllLost : Bool := false
  timClkLost : Bool := false
  laneRefLost : Bool := false
  /-- VDD_NVM below 1.62 V and not yet back above 1.71 V for 1 ms (15 R380). -/
  nvmLow : Bool := false
  /-- ERR_N_RB level and whether an episode of mismatch runs (02 R52). -/
  errRb : Bool := true
  rbMismatch : Bool := false
  /-- Selected TAP instruction (02 R57). -/
  tapIr : TapIr := .idcode
  deriving DecidableEq, Repr

/-- The SKEIN cycle count (05 R139) and the model's counter of free values (log 5). -/
structure Clk where
  now : Nat := 0
  free : Nat := 0
  deriving DecidableEq, Repr

/-! ### Fabric -/

/-- Request types (02 Table 2-3). -/
inductive ReqKind where
  | rd | wr | wrZero
  deriving DecidableEq, Repr

/-- Parts of a job that the fabric moves. -/
inductive JobPart where
  | input | metaIn | ckptIn | listIn | listOut
  deriving DecidableEq, Repr

/-- Who owns a fabric request, and with it the response (02 R34; opcode table rows FAB_READ_DATA and FAB_WRITE_ACK). -/
inductive Owner where
  | desc (ring read count : Nat)
  | context (ring : Nat)
  | jobIn (job : Nat) (part : JobPart) (off : Nat)
  | jobOut (job : Nat)
  | jobZero (job : Nat)
  | record (ring : Nat) (jobs : List Nat)
  | irq (ring : Nat)
  | fltIrq
  | admin (gen : Nat)
  | reply
  | cmdRead (cid off : Nat)
  | cmdWrite (cid : Nat)
  | sessRead (index : Nat)
  | sessWrite (index : Nat)
  | spill (slot : Nat)
  | ext (slot : Nat) (job : Option Nat)
  | ceiling (index newCeiling : Nat)
  | carve
  | sessStore (index : Nat)
  | treeInit
  | ledger (bank : Nat)
  deriving DecidableEq, Repr

/-- How the port of a request is chosen (02 R39): by a ring ID or channel number, or the lowest in service. -/
inductive Route where
  | by (number : Nat)
  | lowest
  deriving DecidableEq, Repr

/-- One request; it never crosses a 4 KiB boundary (02 R33). -/
structure Req where
  kind : ReqKind
  addr : Nat
  len : Nat
  sid : BitVec 16
  internal : Bool
  route : Route
  owner : Owner
  data : Bytes := []
  deriving DecidableEq, Repr

/-- The outcome of an access as its owner sees it (02 Table 2-4, 03 R462). -/
inductive Access where
  | ok | denied | decode | poison | parity | timeout | isolated
  deriving DecidableEq, Repr

/-- A write-data beat as the port carries it: the data, one enable and one even-parity bit per byte, and WDAT_LAST (02 Table 2-2). -/
structure WBeat where
  data : Bytes
  enables : List Bool
  parity : List Bool
  last : Bool
  deriving DecidableEq, Repr

/-- An outstanding transaction (02 R33, R35), with FAB_n_REQ_ATTR as it was driven and the write data still to send. -/
structure Txn where
  tag : Nat
  req : Req
  attr : BitVec 4 := 0
  wdat : List WBeat := []
  got : Bytes := []
  beats : Nat := 0
  worst : Access := .ok
  issuedAt : Nat := 0
  /-- Instant at which t_FABTO has passed, by the GLB_FAB_TIMEOUT in force at the issue (02 R38, 19 R456). -/
  dueAt : Nat := 0
  deriving DecidableEq, Repr

/-- One fabric port (02 R31 to R39; 05 R129; 19 R456). -/
structure FabPort where
  isolated : Bool := false
  rstLow : Bool := false
  clkLost : Bool := false
  reqCred : Nat := 0
  wdatCred : Nat := 0
  /-- Measurement interval of R129. -/
  maxReq : Nat := 0
  maxWdat : Nat := 0
  /-- Instants of use of the request and the write-data credits not yet returned, oldest first (R129). -/
  useTimes : List Nat := []
  wUses : List Nat := []
  retSum : Nat := 0
  retCount : Nat := 0
  /-- The latest mean credit return time, as a sum of SKEIN cycles and the credits it is taken over; 150 cycles are the 100 ns of R129. -/
  tRet : Nat × Nat := (150, 1)
  /-- The rate last measured, as a fraction of GB/s; none before the first measurement (R129). -/
  rate : Option (Nat × Nat) := none
  stall : Nat := 0
  txns : List Txn := []
  quarantine : List Nat := []
  deriving DecidableEq, Repr

structure Fab where
  ports : Tbl FabPort := []
  /-- Requests not yet issued, oldest first (R36, R39). -/
  waiting : List Req := []
  /-- Next measurement of R129. -/
  measureAt : Nat := 0
  deriving DecidableEq, Repr

/-! ### Control path -/

/-- Where a packet came from: the admin ring at an offset, the mailbox, or the GLB_IDOP registers (18 R445). -/
inductive Via where
  | ring (offset : Nat)
  | mailbox
  | idop
  deriving DecidableEq, Repr

/-- A reply before it is written (03 Table 3-3). -/
structure Reply where
  opcode : Nat
  status : Status
  rflags : Nat
  sequence : Nat
  port : Nat
  epoch : Nat
  detail : Nat
  payload : Bytes
  deriving DecidableEq, Repr

/-- The object of a policy fence (03 R88, 06 Table 6-8). -/
inductive FenceObj where
  | port (p : Nat)
  | key (handle : Nat)
  | session (handle : Nat)
  | binding (handle ring : Nat)
  | ring (id : Nat)
  | channel (n : Nat)
  | lease (window : Nat)
  deriving DecidableEq, Repr

/-- A running fence: its object, whether it revokes, and the jobs it waits for (03 R88 to R90). -/
structure Fence where
  obj : FenceObj
  revoke : Bool
  jobs : List Nat
  count : Nat
  deriving DecidableEq, Repr

/-- A packet in CTRL SRAM, waiting or in execution (03 R70, R78, R80). -/
structure CmdEntry where
  cid : Nat
  via : Via
  bytes : Bytes
  opcode : Nat
  port : Nat
  /-- Latest start, in SKEIN cycles (03 Table 3-2 DEADLINE). -/
  due : Option Nat := none
  waitToken : Bool := false
  waited : Bool := false
  started : Bool := false
  /-- Number of the CMD_ADMIN_CTRL.RESETs before it was taken up: its offset names a packet of that ring only (03 R69). -/
  adminGen : Nat := 0
  /-- Reads made for the command (03 R462). -/
  readIssued : Bool := false
  readLeft : Nat := 0
  landed : Tbl Bytes := []
  failure : Option Status := none
  /-- Writes not yet acknowledged, and the reply that follows them. -/
  acks : Nat := 0
  reply : Option Reply := none
  fence : Option Fence := none
  committed : Bool := false
  /-- The commit is in the commit log; the command was taken over with it (03 R79). -/
  logged : Bool := false
  replayed : Bool := false
  /-- Progress of a command of several steps, and its working values. -/
  phase : Nat := 0
  work : List Nat := []
  deriving DecidableEq, Repr

/-- A reply on its way to the reply ring, whether it notifies, and the packet that it answers, if it answers one (03 R71, R72). -/
structure HeldReply where
  reply : Reply
  notify : Bool
  entry : Option CmdEntry
  deriving DecidableEq, Repr

/-- The maintenance token (03 R80, R81): the opcode that holds it, and its command or, for a firmware transfer, none. -/
structure Token where
  opcode : Nat
  holder : Option Nat
  deriving DecidableEq, Repr

/-- The CMD group and the control path (03 R69 to R83). -/
structure Cmd where
  adminBase : Nat := 0
  adminEn : Bool := false
  adminLog2 : Nat := 16
  adminTail : Nat := 0
  adminHead : Nat := 0
  /-- Offset of the next byte to read, and of the next packet to take up. -/
  readPtr : Nat := 0
  takePtr : Nat := 0
  landing : Bytes := []
  readOut : Bool := false
  /-- A failed read of the ring: kind and address of its event, raised when the packets before it are taken up (R464). -/
  readFail : Option (Nat × Nat) := none
  /-- Number of CMD_ADMIN_CTRL.RESETs: an older admin read that returns later is dropped. -/
  adminGen : Nat := 0
  /-- Acceptance times of tail writes: tail and SKEIN cycle (Table 3-2 DEADLINE). -/
  tailTimes : List (Nat × Nat) := []
  replyBase : Nat := 0
  replyEn : Bool := false
  replyLog2 : Nat := 16
  notifyAll : Bool := false
  replyTail : Nat := 0
  replyHead : Nat := 0
  /-- The reply being written, if any. -/
  replyOut : Option HeldReply := none
  replyParts : Nat := 0
  replyBad : Bool := false
  halted : Bool := false
  irqReply : Bool := false
  irqHalt : Bool := false
  irqMbox : Bool := false
  irqReplyLost : Bool := false
  mbox : Bytes := List.replicate 128 0
  mboxGo : Bool := false
  mboxDone : Bool := false
  /-- Acceptance of the GO write, in SKEIN cycles (Table 3-2 DEADLINE). -/
  mboxAt : Nat := 0
  exec : List CmdEntry := []
  nextCid : Nat := 0
  held : List HeldReply := []
  token : Option Token := none
  /-- Offsets of packets whose commit is logged (R79), and the replies posted to packets behind CMD_ADMIN_HEAD's. -/
  commitLog : List Nat := []
  answered : List HeldReply := []
  /-- A framing halt waits to post its reply after the commands in execution (R71). -/
  haltReply : Option Nat := none
  /-- The multi-packet activity that a takeover aborted, until its next H packet is answered (R83). -/
  aborted : Bool := false
  /-- From 400 ms before a relay-scheduled activation on, packets that need the token wait (16 R408). -/
  tokenHold : Bool := false
  deriving DecidableEq, Repr

/-! ### Client ports, rings, jobs -/

/-- One client port (03 R465, 05 R143 to R146, 06 R170 to R172, R188). -/
structure CPort where
  isOpen : Bool := false
  gen : Nat := 0
  sid : BitVec 16 := 0
  winBase : Nat := 0
  winLen : Nat := 0
  algMask : BitVec 64 := 0
  pflags : BitVec 32 := 0
  jobsMax : Nat := 0
  sessMax : Nat := 0
  ringsMax : Nat := 0
  winMax : Nat := 0
  bytesPerS : Nat := 0
  burstKib : Nat := 0
  hookPerS : Nat := 0
  /-- Bucket levels in units of 1/1,500,000,000 of a byte or operation, so that a gain of one cycle is the rate (R144). -/
  lvlBytes : Int := 0
  lvlHook : Int := 0
  lvlAt : Nat := 0
  late : Nat := 0
  refDeadline : Nat := 0
  refQuota : Nat := 0
  refWindow : Nat := 0
  dbReject : Nat := 0
  irqBase : Nat := 0
  irqEn : Bool := false
  admitted : Nat := 0
  completed : Nat := 0
  deriving DecidableEq, Repr

/-- A descriptor read on its way: its number, its first entry and their count, and the bytes where it arrived ahead of an earlier one
(04 R95). -/
structure DescRead where
  id : Nat
  first : Nat
  count : Nat
  got : Option Bytes := none
  deriving DecidableEq, Repr

/-- A descriptor ring or completion ring (04 R97 to R106, R116 to R122). -/
structure Ring where
  isCpl : Bool
  port : Nat
  log2 : Nat
  base : Nat
  gen : Nat := 0
  urgent : Bool := false
  cplRing : Nat := 0
  slot : Option Nat := none
  head : Nat := 0
  tail : Nat := 0
  stopped : Bool := false
  draining : Bool := false
  ringGen : Nat := 0
  cached : Bool := true
  lastUse : Nat := 0
  ctxRead : Bool := false
  /-- The ring's context as last written to the carve-out (06 R175). -/
  stored : Bytes := []
  /-- Descriptor reads on their way, oldest first, and the number of the next one. -/
  reads : List DescRead := []
  readSeq : Nat := 0
  /-- The chain still open behind the last entry fetched: its first job's fetch number and its links so far (04 R112). -/
  chain : Option (Nat × Nat) := none
  /-- Tails accepted, each with its doorbell's acceptance time, oldest first (05 R139). -/
  stamps : List (Nat × Nat) := []
  /-- Handles of the sessions bound (06 R180). -/
  bound : List Nat := []
  vector : Nat := 0
  coalCount : Nat := 0
  coalUs : Nat := 0
  /-- COUNT and US of a RING_SET_COALESCE that apply from the next record (04 R121). -/
  coalNext : Option (Nat × Nat) := none
  /-- A trigger met while interrupts were off waits for the next record (04 R122). -/
  irqLate : Bool := false
  counted : Nat := 0
  oldest : Nat := 0
  irqNow : Bool := false
  reserved : Nat := 0
  /-- Record slots ahead of TAIL that were acknowledged before a record write ahead of them failed (04 R103). -/
  doneSlots : List Nat := []
  /-- Records written and not yet consumed by host software are tail - head; PHASE of the next record (R118). -/
  phase : Bool := true
  deriving DecidableEq, Repr

/-- Skein (04 R91 to R93). -/
structure Skein where
  leaf : Tbl (BitVec 64) := []
  summary : Tbl (BitVec 64) := []
  top : Tbl (BitVec 64) := []
  urgent : List Nat := []
  bulkPtr : Nat := 0
  urgPtr : Nat := 0
  lastUrgent : Bool := false
  /-- Source of LRU order among cached contexts (R96). -/
  useSeq : Nat := 0
  /-- The completion writer's rotating pointers, over completion rings and over descriptor rings (R119). -/
  cplPtr : Nat := 0
  postPtr : Nat := 0
  deriving DecidableEq, Repr

/-- A descriptor of any generation (04 Tables 4-5, 4-6, 4-8); G1 keeps SRC, DST and LENGTH in IN, OUT and the lengths. -/
structure Desc where
  gen : Nat
  op : Nat
  dflags : Nat
  aux : Nat
  handle : Nat
  inAddr : Nat
  outAddr : Nat
  metaAddr : Nat
  inLen : Nat
  aadLen : Nat
  outLen : Nat
  metaLen : Nat
  param : Nat
  deadline : Nat
  cookie : Nat
  ckptAddr : Nat
  ckptLen : Nat
  inSgl : Nat
  outSgl : Nat
  xflags : Nat
  /-- Every reserved byte of the entry is 0. -/
  resZero : Bool
  deriving DecidableEq, Repr

/-- One session record (06 R179). -/
structure Session where
  owner : Nat
  key : Nat
  alg : Nat
  mode : Nat
  policy : Nat
  ligature : Nat
  spanOff : Nat
  spanLen : Nat
  sflags : Nat
  salt : Nat
  next : Nat
  ceiling : Nat
  limit : Nat
  gen : Nat
  exhausted : Bool := false
  cached : Bool := true
  reading : Bool := false
  raising : Bool := false
  /-- The body of the record as stored in the carve-out, its COUNTER_CEILING and its write version (06 R175, R181, R182). -/
  stored : Bytes := []
  storedCeil : Nat := 0
  storedVer : Nat := 0
  /-- A write of the record that is not acknowledged yet: its write version, body and COUNTER_CEILING (06 R181). -/
  writing : Option (Nat × Bytes × Nat) := none
  /-- The cached record was lost without a write-back: the session goes on at its stored ceiling (06 R182). -/
  lost : Bool := false
  lastUse : Nat := 0
  deriving DecidableEq, Repr

inductive JobSrc where
  | ring (id index : Nat)
  | stream (channel frame : Nat)
  | block (cid : Nat)
  deriving DecidableEq, Repr

/-- Where a job stands between its fetch and its record's acknowledgement (04 R115). -/
inductive JobPhase where
  | fetched | checked | deferred | held | queued | suspended | writing | scrub | merge | posted
  deriving DecidableEq, Repr

/-- One job-table entry (04 R115; 05 R130, R134; 07 R198, R214). -/
structure Job where
  src : JobSrc
  desc : Desc
  port : Nat
  seq : Nat
  urgent : Bool
  tDb : Nat
  /-- The completion ring of its record (R116). -/
  cpl : Nat := 0
  /-- When it entered the merge queue (R119). -/
  mergedAt : Nat := 0
  phase : JobPhase := .fetched
  inList : List (Nat × Nat) := []
  outList : List (Nat × Nat) := []
  policyGen : Nat := 0
  configGen : Nat := 0
  /-- Landed input, META and checkpoint bytes by offset, and reads still outstanding. -/
  inGot : Tbl Bytes := []
  metaGot : Tbl Bytes := []
  ckptGot : Tbl Bytes := []
  readsLeft : Nat := 0
  readFail : Option Access := none
  listFail : Bool := false
  /-- Placement and prediction, in SKEIN cycles. -/
  unit : Nat := 0
  lane : Option Nat := none
  tTok : Nat := 0
  tStart : Nat := 0
  tEnd : Nat := 0
  predicted : Nat := 0
  bound : Nat := 0
  chargeBytes : Nat := 0
  chargeHook : Nat := 0
  /-- Counter value assigned at admission (07 R198), and the 12-byte nonce. -/
  counter : Option Nat := none
  nonce : Bytes := []
  /-- Feed draw of the job (10 R275). -/
  draw : Bytes := []
  /-- A Quill part: bytes absorbed before it (08 R223). -/
  aAbs : Nat := 0
  /-- The message of a Quill part: the fetch number of the job that opened it. -/
  msg : Nat := 0
  chunks : Nat := 0
  /-- Checkpoint tags of a Ligature job, once the twins agree on its blocks (07 R203). -/
  result : Bytes := []
  writesLeft : Nat := 0
  writeFail : Option Access := none
  zeroIssued : Bool := false
  scrubFail : Bool := false
  status : Status := .ok
  verdict : Nat := 0
  bytes : Nat := 0
  retried : Bool := false
  revoked : Bool := false
  /-- Chain position: number of this link from 0, and the chain's first job (04 R112). -/
  link : Nat := 0
  chainHead : Option Nat := none
  counted : Bool := false
  loaded : Bool := false
  /-- The engine runs the job: its start has come, and no job stands before it on the unit (05 R130). -/
  begun : Bool := false
  /-- Its engine time in SKEIN cycles, and the idle cycles that the engine inserted for input that came late (01 R25). -/
  span : Nat := 0
  idle : Nat := 0
  /-- Fetch number of the BULK job that this URGENT job suspends, or stands before while it is suspended (05 R137, R138). -/
  under : Option Nat := none
  /-- A later chain link whose predecessor's record is not posted yet (04 R112). -/
  waitPrev : Bool := false
  /-- Checkpoint tags issued (07 R203). -/
  ckpts : Nat := 0
  /-- Record slot and PHASE of the posted record (04 R118). -/
  slot : Nat := 0
  recPhase : Bool := true
  /-- The session and the key material as the engine context holds them from admission on (06 R185, R166). -/
  sess : Option Session := none
  keyMat : Bytes := []
  kL : Bytes := []
  /-- Input, META and list faults that the fetch itself found (04 R110, R112). -/
  fetchBad : Bool := false
  deriving DecidableEq, Repr

/-! ### Engines -/

/-- Roles of a unit (07 Table 7-10, 08 Table 8-9, 09 Table 9-11); `active` is TWIN for a nib. -/
inductive Role where
  | active | spare | underTest | inverse | retired | isolated
  deriving DecidableEq, Repr

/-- Why a unit is withdrawn (13 R335, R339; 12 Table 12-4; 16 R407). -/
inductive DrainWhy where
  | sweep | test (cid : Nat) | retire (cid : Nat) | escalate | rollover
  deriving DecidableEq, Repr

/-- A withdrawal in progress: why, and the replacement reserved (13 R335). -/
structure Drain where
  why : DrainWhy
  replacement : Option Nat
  /-- Fetch numbers of the jobs admitted on the unit before the request. -/
  jobs : List Nat := []
  deriving DecidableEq, Repr

/-- An entry of a nib's context store that is not zero (07 R192, R210): the configuration generation and the port it was built under,
the job, its key, the seeds of the pair's mask generators, and how far the job has come: SKEIN cycles of its engine time run, slots
issued, blocks done, counter block, accumulator, lengths taken in, checkpoint tags formed, and whether the twins agreed so far. -/
structure NibCtx where
  configGen : Nat
  port : Nat
  job : Nat
  key : Bytes
  seeds : Bytes
  run : Nat := 0
  slots : Nat := 0
  blocks : Nat := 0
  counter : Bytes := []
  acc : Bytes := []
  aadLen : Nat := 0
  dataLen : Nat := 0
  ckpts : Nat := 0
  agree : Bool := true
  deriving DecidableEq, Repr

/-- One nib, quill or hook (07 R218, 08 R241, 09 R265). -/
structure EUnit where
  role : Role
  partner : Option Nat := none
  configGen : Nat := 0
  jobs : Nat := 0
  busy : Nat := 0
  mismatchA : Nat := 0
  mismatchB : Nat := 0
  cured : Nat := 0
  failed : Nat := 0
  suspends : Nat := 0
  discarded : Nat := 0
  lost : Nat := 0
  exhausted : Nat := 0
  /-- Until when work other than jobs is booked on the unit: switches, copies, zeroing, the block's own Hook work. -/
  freeAt : Nat := 0
  /-- The index of the job that URGENT work suspends, from that work's admission until the resume, and when the suspend is complete
  (05 R138, 07 R210). -/
  suspended : Option Nat := none
  suspendEnd : Option Nat := none
  /-- Entries 0 to 9 of a nib's 32 contexts, the same on both nibs of a pair; an unlisted entry is zero. Entries 10 to 31 hold the
  known-answer contexts of the self-test (07 R192; log 125). -/
  ctx : Tbl NibCtx := []
  drain : Option Drain := none
  copying : Option Nat := none
  passedSince : Bool := true
  microcodeOld : Bool := false
  /-- The sequencer memory, as last written and read back; empty before that and while its island is off (14 R362). -/
  sequencer : Bytes := []
  deriving DecidableEq, Repr

/-- A Quill message and its context (08 R223, R225). The open message of a session stands under its handle; one whose final
part is admitted stands apart until that part ends. -/
structure Message where
  handle : Nat
  /-- Fetch number of the job that opened it. -/
  opened : Nat
  quill : Nat
  port : Nat
  aAbs : Nat
  absorbed : Bytes
  configGen : Nat
  deriving DecidableEq, Repr

/-- A Hook lease (09 R242 to R247). -/
structure Lease where
  session : Nat
  port : Nat
  hook : Nat
  windows : List Nat
  releasing : Bool := false
  contentsLost : Bool := false
  data : Memory := []
  /-- End of a zeroing in progress, and the OPERAND_CLEAR that it belongs to; none for that of a release (09 R246, R262). -/
  zeroing : Option (Nat × Option Nat) := none
  deriving DecidableEq, Repr

structure Engines where
  units : Tbl EUnit := []
  messages : Tbl Message := []
  leases : Tbl Lease := []
  /-- GEN of the 512 logical windows; an unlisted window has GEN 1 (09 R242). -/
  windowGen : Tbl Nat := []
  configGen : BitVec 32 := 0
  deriving DecidableEq, Repr

/-! ### Keys and sessions -/

inductive SlotState where
  | free | valid | stale | retired
  deriving DecidableEq, Repr

/-- One Reservoir slot (06 R163); an unlisted slot is FREE with GEN 1. -/
structure Slot where
  /-- The key itself; for an RSA key what its extended record holds (R167). -/
  material : Bytes := []
  keyType : Nat := 0
  state : SlotState := .free
  usage : BitVec 16 := 0
  owner : Nat := 0
  matLen : Nat := 0
  gen : Nat := 1
  validUntil : Nat := 0
  /-- K_L of a key with USAGE LIGATURE (07 R200). -/
  kL : Bytes := []
  /-- SLOT_MAC as written (R163). -/
  mac : Bytes := []
  /-- Extended key record of an RSA key (R167). -/
  ext : Option Nat := none
  /-- The slot lies in the key spill since P3, and whether its record is being read (R169). -/
  spilled : Bool := false
  reading : Bool := false
  deriving DecidableEq, Repr

structure Keys where
  slots : Tbl Slot := []
  extUsed : List Nat := []
  sessions : Tbl Session := []
  /-- GEN of each session index that was used; an unlisted index has GEN 1 (06 R178). -/
  sessGen : Tbl Nat := []
  carveBase : Nat := 0
  carveEn : Bool := false
  carveLog2 : Nat := 22
  carveReady : Bool := false
  carveInit : Bool := false
  /-- 4 KiB parts of the version tree that the initialisation has still to write (06 R177). -/
  treeLeft : Nat := 0
  /-- Write versions of carve-out records by byte offset: the version tree (06 R175). -/
  versions : Tbl Nat := []
  selfSid : BitVec 16 := 0
  deriving DecidableEq, Repr

/-! ### Epochs and ledgers -/

/-- Counts of one port in one accounting epoch (05 R151). -/
structure LedgerCnt where
  refused : Nat := 0
  done : Nat := 0
  bytes : Nat := 0
  engineNs : Nat := 0
  hookOps : Nat := 0
  failed : Nat := 0
  deriving DecidableEq, Repr

/-- A ledger bank: epochs covered, span, counts by port, and what of it is written (05 R152). -/
structure Bank where
  first : Nat := 0
  last : Nat := 0
  startNs : Nat := 0
  endNs : Nat := 0
  merged : Bool := false
  partialRec : Bool := false
  ports : Tbl LedgerCnt := []
  deriving DecidableEq, Repr

/-- The schedule of one kind of epoch (05 R147 to R149). -/
structure Epoch where
  running : Bool := false
  /-- The number of the next epoch where it is not the one after the running epoch's: after CORE_RST_N the stored ceiling (05 R149). -/
  chosen : Option Nat := none
  number : Nat := 0
  start : Nat := 0
  endNs : Nat := 0
  lenMs : Nat := 0
  deriving DecidableEq, Repr

structure Epochs where
  acct : Epoch := {}
  key : Epoch := {}
  ledgerBase : Nat := 0
  ledgerLog2 : Nat := 10
  newLedger : Option (Nat × Nat) := none
  head : Nat := 0
  /-- TAIL acknowledged, and the index of the next record to write. -/
  tail : Nat := 0
  issued : Nat := 0
  phase : Bool := true
  mergedFlag : Bool := false
  resetGap : Bool := true
  cur : Bank := {}
  closing : List Bank := []
  deriving DecidableEq, Repr

/-! ### Streams -/

/-- The windows of STREAM_SET_WINDOW; LEN_NS 0 stands for none (05 R140). -/
structure Window where
  cycleNs : Nat := 0
  openNs : Nat := 0
  lenNs : Nat := 0
  phaseS : Nat := 0
  deriving DecidableEq, Repr

/-- A frame on a stream channel (11 R288 to R291). -/
structure Frame where
  number : Nat
  len : Nat
  /-- The channel's windows at the frame's STM_SOF (05 R140). -/
  win : Window := {}
  got : Bytes := []
  words : Nat := 0
  eof : Bool := false
  /-- Words past STM_LEN have come. -/
  long : Bool := false
  /-- The status that the frame was given up with before its job was made (11 R290, R297, R298). -/
  ended : Option Status := none
  job : Option Nat := none
  /-- Words of the frame are discarded as they arrive. -/
  discard : Bool := false
  /-- Those words count in STR_DISCARD.DROPPED (11 Table 11-3). -/
  drops : Bool := false
  done : Bool := false
  deriving DecidableEq, Repr

/-- One stream channel and its Blotter FIFO (11 R284 to R299, R307). -/
structure Chan where
  dirTag : Bool := false
  tagLog2 : Nat := 4
  tagBase : Nat := 0
  isOpen : Bool := false
  xoff : Bool := true
  owner : Nat := 0
  session : Nat := 0
  reject : Bool := false
  hwm : Nat := 0
  lwm : Nat := 0
  cpl : Nat := 0
  gen : Nat := 0
  win : Window := {}
  frames : List Frame := []
  count : Nat := 0
  disabled : Nat := 0
  dropped : Nat := 0
  trunc : Nat := 0
  poison : Nat := 0
  overflow : Nat := 0
  closing : Bool := false
  deriving DecidableEq, Repr

/-! ### Gateway time -/

/-- The time-keeper (11 R300 to R308). G and E count units of 1/3,000,000 ns, so that a SKEIN cycle is 2,000,000 units and
a slew of 1 ppm is 2 units a cycle. -/
structure Tim where
  g : Nat := 0
  e : Nat := 0
  holdover : Bool := true
  slewing : Bool := false
  /-- Offset still to be slewed, in the units of G. -/
  slewLeft : Int := 0
  /-- A pending switch: the rank it leads to; rank 0 with `pendHold` is holdover (R304). -/
  pending : Bool := false
  pendHold : Bool := false
  pendRank : Nat := 0
  pendAt : Nat := 0
  rank : Nat := 0
  qual : BitVec 4 := 0
  calShort : Bool := false
  uncertInf : Bool := true
  lastLocked : Nat := 0
  measuredSince : Option Nat := none
  /-- The holdover source last measured: LANE_REF, or AON_RC (00 Table 0-1, 11 R302). -/
  laneRef : Bool := false
  usable : Bool := false
  /-- The rank that the input was last recognised with (R301). -/
  inRank : Nat := 0
  following : Bool := false
  offset : Int := 0
  minRank : Nat := 2
  slewPpm : Nat := 100
  lastTickSec : Nat := 0
  steps : Nat := 0
  backsteps : Nat := 0
  invalid : Nat := 0
  ppsMissing : Nat := 0
  capSec : Nat := 0
  capNs : Nat := 0
  capStat : BitVec 13 := 1
  capEpoch : Nat := 0
  deriving DecidableEq, Repr

/-! ### Row Counter -/

/-- An armed injection (12 R326): checker, checks left, and the two-bit form. -/
structure Inject where
  checker : Nat
  left : Nat
  double : Bool
  deriving DecidableEq, Repr

/-- One fault source (12 R313). -/
structure Src where
  sticky : Bool := false
  count : Nat := 0
  winStart : Nat := 0
  severe : Bool := false
  acked : Bool := false
  latestMs : Nat := 0
  latestKind : Nat := 0
  latestAddr : Nat := 0
  /-- Expiry of a running reaction timer, in SKEIN cycles. -/
  timer : Option Nat := none
  escalated : Bool := false
  inject : List Inject := []
  deriving DecidableEq, Repr

structure Flt where
  sources : Tbl Src := []
  queue : List (BitVec 64) := []
  overflow : Nat := 0
  err : Bool := false
  errSince : Nat := 0
  widthRunning : Bool := false
  relWait : Bool := false
  errpwUs : Nat := 1000
  reactMs : Nat := 50
  /-- N and T in ms of the classes that were set; the defaults of Table 12-3 hold for the rest. -/
  classes : Tbl (Nat × Nat) := []
  irqAddr : Nat := 0
  irqEn : Bool := false
  clearRefused : Nat := 0
  escWait : List Nat := []
  deriving DecidableEq, Repr

/-! ### Darning unit -/

/-- A row copy in progress (13 R344): the row, the end of the copy, the command that waits. -/
structure RowCopy where
  row : Nat
  until_ : Nat
  cid : Option Nat
  /-- The source whose escalation the repair is a step of (12 Table 12-4). -/
  esc : Option Nat := none
  deriving DecidableEq, Repr

/-- One SRAM array (13 R342 to R345, R350). -/
structure SArray where
  fuse : Nat := 0
  runtime : List Nat := []
  corrected : Tbl Nat := []
  parity : Tbl Nat := []
  copies : List RowCopy := []
  deriving DecidableEq, Repr

/-- The unit under test (13 R335, R336). -/
structure UnitTest where
  unit : Nat
  until_ : Nat
  why : DrainWhy
  /-- The role before a test in place (13 R339). -/
  before : Role := .active
  /-- The partner that left service with a nib for which its half has no spare (13 R335). -/
  partner : Option Nat := none
  /-- Rows that the Darning unit repaired by itself in the unit's array during the test (13 Table 13-5). -/
  autoRows : Nat := 0
  retireAfter : Option Nat := none
  deriving DecidableEq, Repr

structure Darn where
  enable : Bool := true
  period : Nat := 60
  /-- P0 time of the next step, in SKEIN cycles; none before start complete. -/
  nextDue : Option Nat := none
  nextKind : Nat := 0
  ptrNib : Nat := 0
  ptrQuill : Nat := 0x100
  ptrHook : Nat := 0x200
  test : Option UnitTest := none
  /-- Tests of UNIT_TEST, beside the sweep's. -/
  tests2 : List UnitTest := []
  tests : Nat := 0
  skipped : Nat := 0
  failed : Nat := 0
  lastResult : Nat := 0
  lastUnit : Nat := 0x3FF
  floorNib : Nat := 8
  floorQuill : Nat := 12
  floorHook : Nat := 8
  alertUnits : Nat := 1
  alertRows : Nat := 1
  arrays : Tbl SArray := []
  repairs : Nat := 0
  unrecorded : Nat := 0
  deriving DecidableEq, Repr

/-! ### Random numbers -/

inductive CellState where
  | spare | online | underTest | failed
  deriving DecidableEq, Repr

/-- One latch cell (10 R266 to R271). -/
structure Cell where
  state : CellState := .spare
  startup : Bool := false
  onlineSince : Nat := 0
  retestFails : Nat := 0
  wasOnline : Bool := false
  testEnd : Nat := 0
  /-- A window of the running test has failed (R267, R269). -/
  testFailed : Bool := false
  rawBits : Nat := 0
  /-- Bits passed to the conditioner and not yet used. -/
  bits : Nat := 0
  deriving DecidableEq, Repr

inductive FeedState where
  | uninstantiated | ready | stopped
  deriving DecidableEq, Repr

/-- One Feed instance (10 R274 to R277). -/
structure Feed where
  state : FeedState := .uninstantiated
  reserve : Bool := false
  /-- Half a reserve refill: one of the two pool outputs has been taken. -/
  requests : Nat := 0
  nextReseed : Nat := 0
  freeAt : Nat := 0
  deriving DecidableEq, Repr

structure Rng where
  cells : Tbl Cell := []
  feeds : Tbl Feed := []
  pool : Nat := 0
  portion : Nat := 0
  rotor : Nat := 0
  data : List Word := []
  underrun : Bool := false
  rct : Nat := 0
  apt : Nat := 0
  period : Nat := 15
  rotateAt : Nat := 0
  reseeds : Nat := 0
  mismatch : Nat := 0
  inkLost : Bool := false
  started : Bool := false
  deriving DecidableEq, Repr

/-! ### Power, start, baton -/

/-- Power states (14 R352); P4 is the absence of power (Pins.powered). -/
inductive PState where
  | p0 | p1 | p2 | p3r | p3
  deriving DecidableEq, Repr

/-- A doorbell held in the porch (02 R42, 14 R357). -/
structure Bell where
  page : Nat
  slot : Nat
  sid : BitVec 16
  data : Word
  at_ : Nat
  deriving DecidableEq, Repr

/-- An access that waits at the control register port while CRP_READY is low (02 R40, R42): a doorbell write, and control-window
writes and reads. -/
inductive CrpAccess where
  | bell (wide : Bool) (b : Bell)
  | write (off : Nat) (lanes : Lanes) (data : Word)
  | read (off : Nat) (lanes : Lanes)
  | bellRead (wide : Bool)
  deriving DecidableEq, Repr

/-- What the resume store keeps of the RES island's registers across P3 (14 R360). -/
structure Resume where
  carveBase : Nat
  carveEn : Bool
  carveLog2 : Nat
  selfSid : BitVec 16
  deriving DecidableEq, Repr

structure Power where
  state : PState := .p0
  entering : Option PState := none
  waking : Bool := false
  lastWake : Nat := 0
  wakeBit : Bool := false
  deepest : Nat := 1
  idleUs : Nat := 1000
  /-- Since when the block is P1-idle, and deep-idle (14 R353). -/
  idleSince : Nat := 0
  deepSince : Nat := 0
  wakes : Nat := 0
  abandoned : Nat := 0
  porch : List Bell := []
  /-- Accesses that wait at the control register port for CRP_READY, oldest first (02 R40, R42). -/
  crpWait : List CrpAccess := []
  /-- The resume store of the Cast-on island: GLB_CARVE_BASE, GLB_CARVE_CTRL and GLB_SELF_SID across P3 (14 R351, R360). -/
  resume : Option Resume := none
  /-- GLB_START_STAT (14 R370). -/
  stage : Nat := 0
  fsCause : Nat := 0
  failSilent : Bool := false
  completeUs : Nat := 0
  /-- Release of CORE_RST_N; when P0, and when P0 and P1, were last left; whether the next start follows AON_PORST_N (14
  R359). -/
  releasedAt : Nat := 0
  leftP0 : Nat := 0
  slept : Nat := 0
  afterPor : Bool := true
  aslpAccess : Bool := false
  fsAccess : Bool := false
  deriving DecidableEq, Repr

inductive ScribeState where
  | off | booting | owner | syncing | ready | offline | deposed
  deriving DecidableEq, Repr

/-- One copy of the baton (14 R363): EPOCH and OWNER, 0 A, 1 B, 3 none. -/
structure BatonCopy where
  epoch : Nat := 0
  owner : Nat := 3
  deriving DecidableEq, Repr

structure Baton where
  c0 : BatonCopy := {}
  c1 : BatonCopy := {}
  c2 : BatonCopy := {}
  a : ScribeState := .off
  b : ScribeState := .off
  lapses : Nat := 0
  stale : Nat := 0
  /-- A deposed Scribe that was executing a command, and the epoch that its next configuration write carries (01 R16, 14 R366). -/
  late : Option (Nat × Nat) := none
  lastRenew : Nat := 0
  deriving DecidableEq, Repr

/-! ### NVM -/

/-- The stored settings (15 Table 15-5). -/
structure Settings where
  classes : Tbl (Nat × Nat) := []
  errpwUs : Nat := 1000
  reactMs : Nat := 50
  deepest : Nat := 1
  idleUs : Nat := 1000
  period : Nat := 60
  enable : Bool := true
  minRank : Nat := 2
  slewPpm : Nat := 100
  latNs : Nat := 4000
  fabTimeout : Nat := 1000
  carveBase : Nat := 0
  carveEn : Bool := false
  carveLog2 : Nat := 22
  selfSid : BitVec 16 := 0
  floorNib : Nat := 8
  floorQuill : Nat := 12
  floorHook : Nat := 8
  alertUnits : Nat := 1
  alertRows : Nat := 1
  rotate : Nat := 15
  deriving DecidableEq, Repr

/-- A settings bank (15 R384, R385): no header, or a header with its body; complete once its marker is verified. -/
structure SBank where
  version : Option Nat := none
  complete : Bool := false
  body : Settings := {}
  deriving DecidableEq, Repr

/-- A key archive record (06 R186). -/
structure KeyRec where
  id : Nat
  version : Nat
  complete : Bool
  slot : Slot
  /-- The key material as the record holds it, wrapped with AES-KWP under K_NVMK (06, before R186). -/
  wrapped : Bytes := []
  deriving DecidableEq, Repr

/-- A record or block that the NVM controller writes (15 R375, R379; 16 R392, R405, R410; 18 R441, R446). -/
inductive NvmWork where
  | keyProgram (r : KeyRec)
  | keyMarker (id version : Nat)
  | counterProgram (id : Nat) (value : Nat)
  | counterMarker (id : Nat) (value : Nat)
  | bankProgram (bank version : Nat) (body : Settings)
  | bankMarker (bank version : Nat)
  | rolesRecord (unit : Nat) (role : Option Role)
  | repairRecord (array row : Nat)
  | versionTree
  | eraseSector (logical : Nat)
  | imageProgram (sector : Nat) (data : Bytes)
  | journalProgram (sector : Nat) (data : Option Bytes)
  | statusActivated
  | statusConfirmed
  | provCopy (copy : Nat) (data : Bytes)
  | pairCopy (copy : Nat) (data : Bytes)
  | transition (source target boot : Nat) (digest : Bytes)
  deriving DecidableEq, Repr

/-- A queued NVM operation, the command that waits for it, failed verifies so far (15 R378), and the erase stage reached:
0 not begun, 1 markers and erase under way, 2 blank check failed once. -/
structure NvmOp where
  work : NvmWork
  cid : Option Nat := none
  fails : Nat := 0
  stage : Nat := 0
  deriving DecidableEq, Repr

inductive SectorState where
  | spare | mapped | retired | bad | halfErased
  deriving DecidableEq, Repr

/-- One physical sector (15 R371, R378, R387). -/
structure Sector where
  state : SectorState
  logical : Nat := 0
  erases : Nat := 0
  corrections : Nat := 0
  /-- An erase-intent record without an erase-complete record (R376, R377). -/
  intent : Bool := false
  deriving DecidableEq, Repr

structure Nvm where
  /-- Sectors that differ from delivery: sectors 0 to 1,023 map themselves, 1,024 to 1,151 are spare. -/
  sectors : Tbl Sector := []
  ops : List NvmOp := []
  banks : Tbl SBank := []
  keys : List KeyRec := []
  /-- Winning complete values of the monotonic counters, and programmed values without a verified marker (15 R381). -/
  counters : Tbl Nat := []
  torn : Tbl Nat := []
  roles : Tbl Role := []
  repairs : List (Nat × Nat) := []
  verTree : Tbl Nat := []
  settingsDefault : Bool := false
  activeBank : Nat := 0
  brownout : Bool := false
  lowSince : Nat := 0
  erases : Nat := 0
  halfErased : Nat := 0
  corrected : Nat := 0
  uncorrectable : Nat := 0
  deriving DecidableEq, Repr

/-! ### Fuses, firmware, identity -/

/-- A programmed trust anchor in fuses (16 R389); its digest is an opaque constant of Config. -/
structure Anchor where
  roles : BitVec 2
  revoked : Bool
  deriving DecidableEq, Repr

/-- Fuses (18 R440, 16 R389). K_ROOT is an opaque constant of Config. -/
structure Fuse where
  lifecycle : Nat := 0
  anchors : Tbl Anchor := [(0, { roles := 3, revoked := false }), (1, { roles := 3, revoked := false }),
    (2, { roles := 3, revoked := false }), (3, { roles := 3, revoked := false })]
  deriving DecidableEq, Repr

/-- Activation states (16 Table 16-6). -/
inductive FwState where
  | idle | transfer | staged | scheduled | preparing | probation | replaying
  deriving DecidableEq, Repr

/-- What a replay ends in (16 R394, R396, R397, R398, R411). -/
inductive ReplayWhy where
  | abort (cid : Nat) | chunkFail | takeover | relayAbort (cid : Nat) | activationFail
  deriving DecidableEq, Repr

structure Fw where
  /-- Logical image sectors 0 to 383 that differ from delivery, and journal sectors 384 to 767, by image sector number; a
  journal sector that holds `none` is a copy of the delivered image sector. -/
  image : Tbl Bytes := []
  journal : Tbl (Option Bytes) := []
  /-- STATUS of the running image, and of the manifest in the journal (16 Table 16-1). -/
  activated : Bool := false
  confirmed : Bool := true
  jActivated : Bool := false
  jConfirmed : Bool := true
  /-- SHA-384 of the running image at its last full verification (14 R351). -/
  digest : Bytes := []
  runVersion : Nat := 1
  runSec : Nat := 0
  runProbation : Nat := 600
  state : FwState := .idle
  relay : Bool := false
  selfDone : Bool := false
  selfPass : Bool := false
  rollDone : Bool := false
  lastFallback : Nat := 0
  fallbackCause : Nat := 0
  chunksDone : Nat := 0
  probationEnd : Nat := 0
  /-- The campaign of the image in probation, where the relay brought it (R413). -/
  trial : Option Nat := none
  beginLen : Nat := 0
  beginChunks : Nat := 0
  /-- Staging SRAM of Slipknot: chunks held by number (16 R391). -/
  staging : Tbl Bytes := []
  nextHash : Bytes := []
  stagedVersion : Nat := 0
  stagedSec : Nat := 0
  actSec : Nat := 0
  actNs : Nat := 0
  immediate : Bool := false
  actCid : Option Nat := none
  prepAt : Nat := 0
  /-- The pause runs since this instant; the baton was awarded before it, by a lapse (16 R405, R406). -/
  pauseAt : Option Nat := none
  awarded : Bool := false
  lastPauseUs : Nat := 0
  lateUs : Nat := 0
  activations : Nat := 0
  fallbacks : Nat := 0
  campaign : Nat := 0
  hop : Nat := 0
  replay : Option ReplayWhy := none
  /-- Units still to be reloaded, and the partners that left service with nibs being reloaded (16 R407). -/
  rollLeft : List Nat := []
  rolling : Tbl Nat := []
  /-- The firmware part of the SRAMs of Scribe A and B, and the two banks of the microcode store, of which `micro` is active; empty
  before Slipknot writes them and while they are off (01 Table 1-3; 14 Table 14-3, R362; 16 R404, R405). -/
  sramA : Bytes := []
  sramB : Bytes := []
  micro : Bytes := []
  shadow : Bytes := []
  deriving DecidableEq, Repr

/-- Identity (18 R443 to R449). -/
structure Ident where
  cert : Bytes := []
  /-- The two copies of the provisioning bundle and of the pairing certificate that pass their signature check (R446). -/
  prov : Tbl Bytes := []
  pairs : Tbl Bytes := []
  /-- Transition records: FROM, TO, GLB_BOOT_COUNT and the digest of the authorising object (18 R441). -/
  transitions : List (Nat × Nat × Nat × Bytes) := []
  src : Nat := 0
  dest : Nat := 0
  op : Nat := 0
  srcLen : Nat := 0
  destLen : Nat := 0
  go : Bool := false
  done : Bool := false
  status : Nat := 0
  outBytes : Nat := 0
  /-- The held re-wrap key pair, by its draw (18 R445), and the REQUEST_ID last issued since start. -/
  rewrap : Option (Nat × Bytes) := none
  lastRequest : Nat := 0
  deriving DecidableEq, Repr

/-! ### Folio -/

/-- Card states (17 Table 17-3). -/
inductive CardState where
  | empty | probing | identifying | ready | locked | poweredOff | reversed | openContact | short | unsupported | failed
  | recovering
  deriving DecidableEq, Repr

/-- A card command of 17 Table 17-6 with its argument and its write data. -/
structure CardCmd where
  code : Nat
  arg : Nat
  data : Bytes := []
  deriving DecidableEq, Repr

/-- What a card transfer waits for. -/
inductive CardWait where
  | none | response | readData | ack | busy
  deriving DecidableEq, Repr

/-- What the card transfer at hand belongs to: the steps of identification (17 R416, R424, R432), the held password presented
again (R429), the blocks read for FOL_ARCH_STAT (R439), and the steps of the Folio commands (R430 to R436). -/
inductive CardTask where
  | none | resetAnswer | setBus | readId | erasePoll | rePresent | stat | unlock | setPassword | forceErase
  | write (index : Nat) | verify (index : Nat) | restore
  deriving DecidableEq, Repr

/-- The Folio port (17). -/
structure Folio where
  state : CardState := .empty
  seated : Bool := false
  power : Bool := false
  wide : Bool := false
  div : Nat := 2000
  busyMs : Nat := 1000
  clkMax : Nat := 100
  intent : Bool := true
  password : Option Bytes := none
  ident : Bytes := []
  genA : Nat := 0
  genB : Nat := 0
  crc : Nat := 0
  retries : Nat := 0
  recoveries : Nat := 0
  insertions : Nat := 0
  /-- The transfer at hand: what it belongs to, its card command, what it waits for and since when, and attempts failed (R429). -/
  task : CardTask := .none
  cur : Option CardCmd := none
  wait : CardWait := .none
  since : Nat := 0
  attempt : Nat := 0
  /-- The settings still to be tried in negotiation: width and MHz times 10 (R424). -/
  settings : List (Bool × Nat) := []
  /-- LOCKED and PW_SET as the card last reported them (R425). -/
  lockSeen : Bool := false
  pwSet : Bool := false
  /-- The recovery of the Folio command: made, and the card command to repeat after it (R429). -/
  recovered : Bool := false
  resume : Option (CardTask × CardCmd) := none
  /-- The Folio command in execution on the bus. -/
  cid : Option Nat := none
  pwFailAt : Option Nat := none
  newPassword : Bytes := []
  eraseStart : Nat := 0
  /-- ERASE_PENDING in the last response. -/
  eraseSeen : Bool := false
  /-- Blocks read for FOL_ARCH_STAT and for a restore, by card block address. -/
  statRead : Tbl Bytes := []
  readBack : Tbl Bytes := []
  /-- The archive being written: its payloads, KEYS, generation, the copy at hand and whether it is the second. -/
  blocks : List Bytes := []
  archKeys : Nat := 0
  archGen : Nat := 0
  copyB : Bool := false
  second : Bool := false
  deriving DecidableEq, Repr

/-! ### Lanes -/

inductive LaneRole where
  | active | spare | dead | training
  deriving DecidableEq, Repr

/-- One lane (02 R61, R62, R68; 19 R457). -/
structure Lane where
  /-- The number in the lane's last alignment marker: a logical lane, or 32 and 33 of a spare (R62). -/
  marker : Option Nat := none
  rx : Option Nat := none
  tx : Option Nat := none
  rxRole : LaneRole := .training
  txRole : LaneRole := .training
  locked : Bool := false
  inverted : Bool := false
  skew : Nat := 0
  invalid : Nat := 0
  lockLosses : Nat := 0
  lostAt : Nat := 0
  deriving DecidableEq, Repr

structure Link where
  lanes : Tbl Lane := []
  rate : Bool := false
  rateInUse : Bool := false
  errLimit : Nat := 1000
  up : Bool := false
  half : Bool := false
  training : Bool := false
  /-- The link retrains: the lane map that it had is kept (02 R65). -/
  keepMap : Bool := false
  /-- When the training at hand began (02 Table 2-15). -/
  trainAt : Nat := 0
  step : Nat := 0
  naksSent : Nat := 0
  naksReceived : Nat := 0
  retrains : Nat := 0
  substitutions : Nat := 0
  /-- Sequence number of the last flit received correctly, and the run of NAKs sent for it (02 R65). -/
  lastGood : Nat := 0
  sentRun : Nat := 0
  /-- The sequence number of the last NAK received, the run of NAKs for it, and the flit that transmission goes back to. -/
  nakSeq : Nat := 0
  nakRun : Nat := 0
  replayFrom : Option Nat := none
  /-- Message bytes carried over from earlier flits (02 R64). -/
  stream : Bytes := []
  deriving DecidableEq, Repr

/-! ### Selects and other plain registers -/

structure Regs where
  cpsel : Nat := 0
  engsel : Nat := 0
  strsel : Nat := 0
  lanesel : Nat := 0
  ringSel : Nat := 0
  rowSel : Nat := 0
  sectorSel : Nat := 0
  latNs : Nat := 4000
  fabTimeout : Nat := 1000
  /-- Last read data on the control register port (02 R40). -/
  rdata : Word := 0
  rerr : Bool := false
  deriving DecidableEq, Repr

/-- The whole machine and the queue of commands that wait (first in, first out). -/
structure State where
  pending : List Instr
  pins : Pins
  clk : Clk
  fab : Fab
  cmd : Cmd
  ports : Tbl CPort
  rings : Tbl Ring
  skein : Skein
  jobs : Tbl Job
  jobSeq : Nat
  merge : List Nat
  eng : Engines
  keys : Keys
  ep : Epochs
  chans : Tbl Chan
  tim : Tim
  flt : Flt
  darn : Darn
  rng : Rng
  pwr : Power
  baton : Baton
  nvm : Nvm
  fuse : Fuse
  fw : Fw
  id : Ident
  fol : Folio
  link : Link
  regs : Regs
  deriving DecidableEq, Repr

/-- Reasons a step stops with a fault. -/
inductive Fault where
  /-- Raised by a meaning whose operand has a shape the interface cannot carry (a beat of other than 128 bytes, a stream
  word of other than 32, a flit of other than 256) or names an engine code that no unit has: nothing of the kind exists
  at the interface (02 R31, R44, R63; 07 R218). Safe: the model stops where the hardware has no such event. -/
  | malformed
  deriving DecidableEq, Repr

/-- Reasons a step refuses a command. -/
inductive Refusal where
  /-- Raised by `exec` for a row whose meaning is not written. Safe: the model stops. -/
  | notModelled (mnemonic : String)
  deriving DecidableEq, Repr

/-- The units of a delivered block (01 R13, 08, 09): pairs NIB_00/01 to 06/07 and 10/11 to 16/17, the rest spare; quills
0 to 11 and hooks 0 to 7 in service. -/
def State.deliveredUnits : Tbl EUnit :=
  (List.range 20).map (fun i =>
    (i, if i % 10 < 8 then { role := .active, partner := some (if i % 2 = 0 then i + 1 else i - 1) } else { role := .spare }))
  ++ (List.range 14).map (fun i => (0x100 + i, { role := if i < 12 then .active else .spare }))
  ++ (List.range 9).map (fun i => (0x200 + i, { role := if i < 8 then .active else .spare }))

/-- The state after AON_PORST_N is released, with CORE_RST_N still asserted (02 R55; log 2): every register at its reset
value, the baton at EPOCH 0 and OWNER none (14 R363), time at 0 in HOLDOVER (11 R300), the NVM and the fuses as log 4
names them. -/
def State.reset : State where
  pending := []
  pins := {}
  clk := {}
  fab := { ports := (List.range 4).map (fun i => (i, {})) }
  cmd := {}
  ports := []
  rings := []
  skein := {}
  jobs := []
  jobSeq := 0
  merge := []
  eng := { units := State.deliveredUnits }
  keys := {}
  ep := {}
  chans := (List.range 64).map (fun i => (i, {}))
  tim := {}
  flt := {}
  darn := {}
  rng := { cells := (List.range 16).map (fun i => (i, {})), feeds := (List.range 8).map (fun i => (i, {})) }
  pwr := {}
  baton := {}
  nvm := {}
  fuse := {}
  fw := {}
  id := {}
  fol := {}
  link := { lanes := (List.range 34).map (fun i => (i, {})) }
  regs := {}

end Sys2Proof.Machine
end

