-- ==== Sys2Proof/Machine/Ops.lean ====
section
/-! DEFINITION. The operations that the commands share: free values, fault events and ERR_N (12), the fabric request path
(02), the reply path and the maintenance token (03), and fail-silent entry (14 R369). Each is a record update, so what it
leaves unchanged is true by definition. -/
namespace Sys2Proof.Machine

/-! ### Free values (log 5) -/

/-- The next `n` free bytes; `useFree` marks them as used. -/
def freeBytes (s : State) (n : Nat) : Bytes := (List.range n).map (fun i => Config.freeByte (s.clk.free + i))

def useFree (n : Nat) (s : State) : State := { s with clk := { s.clk with free := s.clk.free + n } }

/-! ### Power and service conditions -/

/-- VDD_AON is there (14 R352). -/
def aonOn (s : State) : Bool := s.pins.powered

/-- The islands that CORE_RST_N resets are out of reset and the block is not fail-silent (02 R55, 14 R369). -/
def coreOn (s : State) : Bool := s.pins.powered && !s.pins.coreInReset && !s.pwr.failSilent

/-- Start complete (14 R359): GLB_START_STAT.STAGE reads COMPLETE. -/
def started (s : State) : Bool := s.pwr.stage == 7

/-- The control path and the data path work: P0 from start complete on (14 R352, R359). -/
def running (s : State) : Bool := coreOn s && started s && s.pwr.state == .p0

/-- P0 or P1 (10 R268, R276, R279; 12 R324). -/
def awake (s : State) : Bool := coreOn s && (s.pwr.state == .p0 || s.pwr.state == .p1)

/-- Work that P1 does not hold back, such as an escalation (12 R324; log 48). -/
def working (s : State) : Bool := awake s && started s

/-- The Cast-on island's millisecond count (12 R314; log 1). -/
def msNow (s : State) : Nat := s.clk.now / 1500000

/-- Deferral to a later tick: whether an instant in SKEIN cycles has come. -/
def due (s : State) (t : Nat) : Bool := t ≤ s.clk.now

/-! ### Fault sources and events (12) -/

/-- The class of a source, if it is assigned (12 Table 12-3). -/
def srcClass (n : Nat) : Option Nat :=
  if n ≤ 0x013 then some 0
  else if 0x020 ≤ n ∧ n ≤ 0x02D then some 1
  else if 0x030 ≤ n ∧ n ≤ 0x038 then some 2
  else if 0x040 ≤ n ∧ n ≤ 0x04F then some 3
  else if n = 0x050 ∨ (0x058 ≤ n ∧ n ≤ 0x05F) then some 4
  else if 0x060 ≤ n ∧ n ≤ 0x064 then some 5
  else if 0x068 ≤ n ∧ n ≤ 0x089 then some 6
  else if n = 0x0A0 ∨ n = 0x0A1 then some 7
  else if n = 0x0A2 ∨ (0x0C0 ≤ n ∧ n ≤ 0x0C4) ∨ n = 0x0D3 ∨ n = 0xFFF then some 8
  else if 0x0B0 ≤ n ∧ n ≤ 0x0B2 then some 9
  else if n = 0x0A3 ∨ n = 0x0D0 ∨ n = 0x0D1 ∨ n = 0x0D2 ∨ n = 0x0D4 ∨ n = 0x0D5 ∨ n = 0x0D6 then some 10
  else if 0x100 ≤ n ∧ n ≤ 0x13F then some 11
  else if 0x200 ≤ n ∧ n ≤ 0x5FF then some 12
  else if (0x600 ≤ n ∧ n ≤ 0x687) ∨ n = 0x6B3 ∨ n = 0x6B4 then some 13
  else none

/-- Default N and T in ms of a class (12 Table 12-3). -/
def classDefault (c : Nat) : Nat × Nat :=
  match c with
  | 0 | 1 | 2 => (3, 1000)
  | 3 => (64, 1000)
  | 4 => (8, 1000)
  | 5 => (4, 10000)
  | 6 => (2, 60000)
  | 7 | 8 => (1, 1)
  | 9 => (16, 60000)
  | 10 => (4, 60000)
  | 11 => (16, 1000)
  | 12 => (64, 1000)
  | _ => (16, 86400000)

/-- N and T in force for a class (12 R312). -/
def classNT (f : Flt) (c : Nat) : Nat × Nat := (tget f.classes c).getD (classDefault c)

/-- Checker class of a kind (12 Tables 12-1, 12-2; 13 Table 13-8; 14 Table 14-5; 17 Table 17-11). -/
def kindChk (k : Nat) : Nat :=
  if 0x01 ≤ k ∧ k ≤ 0x04 then 1 else if 0x05 ≤ k ∧ k ≤ 0x07 then 2 else if 0x08 ≤ k ∧ k ≤ 0x0A then 3 else 0

/-- The kinds that the tables define. -/
def kindKnown (k : Nat) : Bool :=
  (1 ≤ k && k ≤ 0x0A) || (0x10 ≤ k && k ≤ 0x16) || (0x18 ≤ k && k ≤ 0x1F) || (0x20 ≤ k && k ≤ 0x24)
    || (0x30 ≤ k && k ≤ 0x33)

/-- A kind marked I: severe at its first occurrence (12 Table 12-2, 14 Table 14-5). -/
def kindImmediate (k : Nat) : Bool :=
  k == 0x02 || k == 0x06 || k == 0x0A || k == 0x11 || k == 0x16 || k == 0x18 || k == 0x1A || k == 0x23

/-- An ESC kind, whose message does not count toward severity (12 R321). -/
def kindEsc (k : Nat) : Bool := 0x30 ≤ k && k ≤ 0x33

/-- The fault message (12 Table 12-1). -/
def faultMsg (src kind addr : Nat) : BitVec 64 :=
  BitVec.ofNat 64 (src % 4096 * 2 ^ 52 + kind % 64 * 2 ^ 46 + kindChk kind * 2 ^ 44 + addr % 2 ^ 44)

/-- SOURCE of a message. -/
def msgSrc (m : BitVec 64) : Nat := m.toNat / 2 ^ 52

/-- The record of a source, as at AON_PORST_N where nothing was recorded. -/
def srcOf (f : Flt) (n : Nat) : Src := tgetD f.sources n {}

/-- A message offered to the queue: at most one per source (12 R316). -/
def enqueueMsg (f : Flt) (src kind addr : Nat) : Flt :=
  if f.queue.any (fun m => msgSrc m == src) then { f with overflow := satAdd 32 f.overflow 1 }
  else { f with queue := f.queue ++ [faultMsg src kind addr] }

/-- ERR_N asserted (12 R318): a new assertion runs t_ERRPW; a running one is not restarted, and a release that waits for
its end is cancelled. -/
def assertErr (now : Nat) (f : Flt) : Flt :=
  { f with err := true, relWait := false
           errSince := if f.err then f.errSince else now
           widthRunning := if f.err then f.widthRunning else true }

/-- The counting of 12 R314: the source after the event, and whether it is to be made severe. -/
def countSrc (ms n t kind addr : Nat) (r : Src) : Src × Bool :=
  let fresh : Bool := r.count == 0 || decide (ms - r.winStart > t)
  let c := if fresh then 1 else satAdd 16 r.count 1
  let r' : Src := { r with sticky := true, count := c, winStart := if fresh then ms else r.winStart
                           latestMs := ms, latestKind := kind, latestAddr := addr }
  (r', (decide (c ≥ n) || kindImmediate kind) && !(r.severe && !r.acked))

/-- make_severe of 12 R315 on the source's record. -/
def makeSevere (now ms reactMs : Nat) (r : Src) : Src :=
  { r with severe := true, acked := false, count := 0, winStart := ms, timer := some (now + cyMs reactMs), escalated := false }

/-- An event at source `src` (12 R313 to R316): the Row Counter after it, whether the source became severe, and whether the
queue was empty. -/
def fltEvent (now ms : Nat) (f : Flt) (src kind addr : Nat) : Flt × Bool × Bool :=
  match srcClass src with
  | none => (f, false, false)
  | some c =>
    let nt := classNT f c
    let wasEmpty := f.queue.isEmpty
    let q := enqueueMsg f src kind addr
    if kindEsc kind then (q, false, wasEmpty)
    else
      let r := countSrc ms nt.1 nt.2 kind addr (srcOf f src)
      if r.2 then
        (assertErr now { q with sources := tput q.sources src (makeSevere now ms f.reactMs r.1) }, true, wasEmpty)
      else ({ q with sources := tput q.sources src r.1 }, false, wasEmpty)

/-! ### Fabric requests (02 R32 to R39) -/

/-- What the choice of a port and the issue of a request depend on beside the ports themselves. -/
structure FabEnv where
  now : Nat
  timeout : Nat
  go : Bool
  en : BitVec 4
  routed : BitVec 4
  linkUp : Bool
  training : Bool

/-- t_FABTO in SKEIN cycles (02 R38; 19 Table 19-4). -/
def fabTimeout (s : State) : Nat :=
  cyUs (if 100 ≤ s.regs.fabTimeout ∧ s.regs.fabTimeout ≤ 100000 then s.regs.fabTimeout else 1000)

def fabEnv (s : State) : FabEnv :=
  { now := s.clk.now, timeout := fabTimeout s, go := coreOn s, en := s.pins.cfgFabEn
    routed := if s.pins.formL then s.pins.cfgFabRoute else 0, linkUp := s.link.up
    training := s.link.training || s.link.lanes.any (fun e => e.2.rxRole == .active && !e.2.locked) }

/-- Whether port `n` is in service (02 R39). -/
def portUp (e : FabEnv) (n : Nat) (p : FabPort) : Bool :=
  e.en.getLsbD n && !p.isolated && !p.rstLow && (!e.routed.getLsbD n || e.linkUp)

/-- The port that a request takes (02 R39), if one is in service. -/
def choosePort (e : FabEnv) (ps : Tbl FabPort) (r : Route) : Option Nat :=
  let k := match r with
    | .by n => n % 4
    | .lowest => 0
  ([k % 4, (k + 1) % 4, (k + 2) % 4, (k + 3) % 4]).find? (fun n => portUp e n (tgetD ps n {}))

/-- 128-byte beats that a span touches (02 R31). -/
def beatsOf (addr len : Nat) : Nat := cdiv (addr % 128 + len) 128

/-- The least free tag (02 R33, R35, R38). -/
def freeTag (fuel k : Nat) (p : FabPort) : Option Nat :=
  match fuel with
  | 0 => none
  | f + 1 => if p.txns.any (fun t => t.tag == k) || p.quarantine.contains k then freeTag f (k + 1) p else some k

/-- Landing space in use: whole reads (02 R35). -/
def landingUsed (p : FabPort) : Nat :=
  (p.txns.filter (fun t => t.req.kind == .rd)).foldl (fun a t => a + 128 * beatsOf t.req.addr t.req.len) 0

/-- The ordering rule of 02 R33 between a request to issue and an earlier one. -/
def mustWaitFor (r old : Req) : Bool := old.kind != .rd && overlaps r.addr r.len old.addr old.len

/-- Write-data beats sent in request order as far as credits go (02 R33, R36). -/
def sendBeats (now : Nat) (ts : List Txn) (cred : Nat) : List Txn × Nat :=
  match ts with
  | [] => ([], cred)
  | t :: r =>
    if t.req.kind == .wr && t.beats ≠ 0 then
      let n := min t.beats cred
      if n < t.beats then ({ t with beats := t.beats - n, wdat := t.wdat.drop n } :: r, cred - n)
      else let q := sendBeats now r (cred - n); ({ t with beats := 0, wdat := [] } :: q.1, q.2)
    else let q := sendBeats now r cred; (t :: q.1, q.2)

def portSend (now : Nat) (p : FabPort) : FabPort :=
  let q := sendBeats now p.txns p.wdatCred
  { p with txns := q.1, wdatCred := q.2, wUses := p.wUses ++ List.replicate (p.wdatCred - q.2) now }

/-- The kind of a request's owner as a number. -/
def Owner.kind (o : Owner) : Nat :=
  match o with
  | .desc _ _ _ => 0 | .context _ => 1 | .jobIn _ _ _ => 2 | .jobOut _ => 3 | .jobZero _ => 4 | .record _ _ => 5 | .irq _ => 6
  | .fltIrq => 7 | .admin _ => 8 | .reply => 9 | .cmdRead _ _ => 10 | .cmdWrite _ => 11 | .sessRead _ => 12 | .sessWrite _ => 13
  | .spill _ => 14 | .ext _ _ => 15 | .ceiling _ _ => 16 | .carve => 17 | .ledger _ => 18 | .sessStore _ => 19
  | .treeInit => 20

/-- FAB_n_REQ_ATTR of a request (02 Table 2-2): [1:0] one of the three cache hints, [2] a block-internal access, [3] 0. -/
def reqAttr (r : Req) : BitVec 4 :=
  BitVec.ofNat 4 (Config.cacheHint r.owner.kind r.addr r.len % 3 + (if r.internal then 4 else 0))

/-- Even parity of a byte: the bit that makes the number of ones even. -/
def evenParity (b : Byte) : Bool := (List.range 8).foldl (fun a i => xor a (b.getLsbD i)) false

/-- The write-data beats of a request: 128 bytes each, zeros around the bytes enabled (02 Table 2-2). -/
def writeBeats (addr : Nat) (data : Bytes) : List WBeat :=
  let n := beatsOf addr data.length
  let lead := addr % 128
  let whole := padTo (128 * n) (zeros lead ++ data)
  (List.range n).map (fun k =>
    let b := slice whole (128 * k) 128
    { data := b, parity := b.map evenParity, last := k + 1 == n
      enables := (List.range 128).map (fun i => decide (lead ≤ 128 * k + i) && decide (128 * k + i < lead + data.length)) })

/-- A request put on a port: it uses a request credit and a tag (02 R36). -/
def portIssue (now timeout tag : Nat) (p : FabPort) (r : Req) : FabPort :=
  portSend now
    { p with reqCred := p.reqCred - 1, useTimes := p.useTimes ++ [now]
             txns := p.txns ++ [{ tag := tag, req := r, issuedAt := now, dueAt := now + timeout, attr := reqAttr r
                                  wdat := if r.kind == .wr then writeBeats r.addr r.data else []
                                  beats := if r.kind == .wr then beatsOf r.addr r.len else 0 }] }

/-- Whether the port can take the request now: a credit, and for a read landing space (02 R35, R36). -/
def portCan (p : FabPort) (r : Req) : Bool :=
  decide (0 < p.reqCred) && (r.kind != .rd || decide (landingUsed p + 128 * beatsOf r.addr r.len ≤ 1048576))

/-- The waiting requests, oldest first, each issued as soon as its own conditions hold (02 R36, R39). -/
def pumpGo (e : FabEnv) (todo kept : List Req) (ps : Tbl FabPort) : List Req × Tbl FabPort :=
  match todo with
  | [] => (kept.reverse, ps)
  | r :: rest =>
    match choosePort e ps r.route with
    | none => pumpGo e rest (r :: kept) ps
    | some n =>
      let p := tgetD ps n {}
      let free := !kept.any (mustWaitFor r) && !ps.any (fun q => q.2.txns.any (fun t => mustWaitFor r t.req))
      match freeTag 2048 0 p with
      | none => pumpGo e rest (r :: kept) ps
      | some tag =>
        if e.go && free && portCan p r && !(e.routed.getLsbD n && e.training) then pumpGo e rest kept (tput ps n (portIssue e.now e.timeout tag p r))
        else pumpGo e rest (r :: kept) ps

/-- The fabric after every request that can be issued is issued, and every beat that can be sent is sent. -/
def pump (e : FabEnv) (f : Fab) : Fab :=
  let sent := if e.go then tmap f.ports (fun n p => if e.routed.getLsbD n && e.training then p else portSend e.now p) else f.ports
  let q := pumpGo e f.waiting [] sent
  { f with waiting := q.1, ports := q.2 }

/-- Requests added at the end of those that wait, and the pump run. -/
def fabAdd (e : FabEnv) (f : Fab) (rs : List Req) : Fab := pump e { f with waiting := f.waiting ++ rs }

def issue (rs : List Req) (s : State) : State := { s with fab := fabAdd (fabEnv s) s.fab rs }

def pumpState (s : State) : State := { s with fab := pump (fabEnv s) s.fab }

/-- The reads that fetch a span, each within 4 KiB, with the owner of each given by its offset in the span. -/
def readReqs (sid : BitVec 16) (internal : Bool) (route : Route) (owner : Nat → Owner) (addr len : Nat) : List Req :=
  (spans addr len).map (fun p =>
    { kind := .rd, addr := p.1, len := p.2, sid := sid, internal := internal, route := route, owner := owner (p.1 - addr) })

/-- The writes that store bytes at an address, each within 4 KiB. -/
def writeReqs (sid : BitVec 16) (internal : Bool) (route : Route) (owner : Owner) (addr : Nat) (data : Bytes) : List Req :=
  (spans addr data.length).map (fun p =>
    { kind := .wr, addr := p.1, len := p.2, sid := sid, internal := internal, route := route, owner := owner
      data := slice data (p.1 - addr) p.2 })

/-- The zero-fill of a part within 4 KiB: whole beats by WR_ZERO, edge beats by WR of zeros (04 R123). -/
def zeroPart (sid : BitVec 16) (route : Route) (owner : Owner) (addr len : Nat) : List Req :=
  let lead := min len ((128 - addr % 128) % 128)
  let mid := (len - lead) / 128 * 128
  let tail := len - lead - mid
  let wr := fun (a n : Nat) =>
    if n = 0 then [] else [({ kind := .wr, addr := a, len := n, sid := sid, internal := false, route := route, owner := owner
                              data := zeros n } : Req)]
  wr addr lead
  ++ (if mid = 0 then [] else [{ kind := .wrZero, addr := addr + lead, len := mid, sid := sid, internal := false
                                 route := route, owner := owner }])
  ++ wr (addr + lead + mid) tail

/-- The zero-fill of a span (04 R123). -/
def zeroReqs (sid : BitVec 16) (route : Route) (owner : Owner) (addr len : Nat) : List Req :=
  ((spans addr len).map (fun p => zeroPart sid route owner p.1 p.2)).flatten

/-! ### Raising an event -/

/-- A wake event (14 R356): it abandons an entry, or starts the exit. -/
def wakePower (cause : Nat) (p : Power) : Power :=
  match p.entering with
  | some _ => { p with entering := none, abandoned := wrapInc 32 p.abandoned }
  | none => if p.state == .p0 || p.waking then p else { p with waking := true, lastWake := cause }

/-- A checker or monitor event (12 R313 to R317): the Row Counter takes it, an interrupt message is written for an event
that enters an empty queue or makes its source severe, and in a sleep state a severe source wakes the block (14 R356). -/
def raiseEvent (src kind addr : Nat) (s : State) : State :=
  let r := fltEvent s.clk.now (msNow s) s.flt src kind addr
  let sent := s.flt.queue.isEmpty && !r.1.queue.isEmpty
  let irq := s.flt.irqEn && (sent || r.2.1)
  { s with
    flt := r.1
    pwr := if r.2.1 then wakePower 3 s.pwr else s.pwr
    fab := if irq then fabAdd (fabEnv s) s.fab
             (writeReqs s.keys.selfSid true .lowest .fltIrq s.flt.irqAddr (leBytes 8 (faultMsg src kind addr).toNat))
           else s.fab }

/-- The source of a client port (12 Table 12-3). -/
def portSrc (p : Nat) : Nat := 0x200 + p

/-- One injected check taken from a source's checker (12 R326): whether it was injected, and with two check bits. -/
def injectedAt (f : Flt) (src checker : Nat) : Option Bool :=
  ((srcOf f src).inject.find? (fun i => i.checker == checker && decide (0 < i.left))).map (·.double)

def takeInject (src checker : Nat) (s : State) : State :=
  { s with flt := { s.flt with sources := tmod s.flt.sources src (fun r => { r with
      inject := (r.inject.map (fun i => if i.checker == checker then { i with left := i.left - 1 } else i)).filter
        (fun i => decide (0 < i.left)) }) } }

/-! ### The control path (03) -/

/-- A status as its code (03 Table 3-16, 19 Table 19-6). -/
def Status.code (x : Status) : Nat :=
  match x with
  | .ok => 0x00 | .invalidOpcode => 0x01 | .invalidField => 0x02 | .notPermitted => 0x03 | .accessFault => 0x04
  | .keyStale => 0x10 | .keyRevoked => 0x11 | .policyRevoked => 0x12 | .sessionClosed => 0x13 | .nonceExhausted => 0x14
  | .blobInvalid => 0x15 | .lengthTruncated => 0x20 | .tagMismatch => 0x21 | .poisoned => 0x22 | .truncatedFrame => 0x23
  | .chainAborted => 0x24 | .padMismatch => 0x25 | .contextLost => 0x26 | .streamOverflow => 0x27 | .windowShort => 0x30
  | .deadlineMissed => 0x31 | .quotaExceeded => 0x32 | .maintBusy => 0x40 | .unitFault => 0x41 | .failSilent => 0x42
  | .maintAborted => 0x43 | .causePresent => 0x44 | .capacityFloor => 0x45 | .pointInvalid => 0x50
  | .computeMismatch => 0x51 | .operandRange => 0x52 | .sampleExhausted => 0x53 | .rngUnavailable => 0x60
  | .cardAbsent => 0x70 | .cardLocked => 0x71 | .cardFailed => 0x72 | .imageInvalid => 0x80 | .imageRollback => 0x81
  | .activationFailed => 0x82

/-- The baton's EPOCH and OWNER, all three copies being equal (14 R363). -/
def batonEpoch (s : State) : Nat := s.baton.c0.epoch
def batonOwner (s : State) : Nat := s.baton.c0.owner

/-- The bytes of a reply (03 Table 3-3); the payload only with OK and LENGTH_TRUNCATED (R77). -/
def replyBytes (r : Reply) : Bytes :=
  let pay := if r.status == .ok || r.status == .lengthTruncated then padTo (8 * cdiv r.payload.length 8) r.payload else []
  leBytes 2 r.opcode ++ leBytes 1 r.status.code ++ leBytes 1 r.rflags ++ leBytes 2 (2 + pay.length / 8)
  ++ leBytes 2 r.sequence ++ leBytes 2 r.port ++ leBytes 2 r.epoch ++ leBytes 4 r.detail ++ pay

/-- The reply of a packet with a status (03 Table 3-3). -/
def replyTo (s : State) (e : CmdEntry) (st : Status) (detail : Nat) (payload : Bytes) (fenced : Bool) : Reply :=
  { opcode := e.opcode, status := st, rflags := b2n e.replayed + (if e.waited then 2 else 0) + (if fenced then 4 else 0)
    sequence := fld e.bytes 6 2, port := e.port, epoch := batonEpoch s % 65536, detail := detail, payload := payload }

/-- Sizes of the admin and reply rings in bytes (03 Table 3-1). -/
def ringBytes (log2 : Nat) : Nat := if 16 ≤ log2 ∧ log2 ≤ 24 then 2 ^ log2 else 2 ^ 16

/-- Whether `n` bytes fit between CMD_REPLY_TAIL and CMD_REPLY_HEAD, keeping 8 bytes free so that a full ring is not
taken for an empty one (03 R72; log 11). -/
def replyFits (c : Cmd) (n : Nat) : Bool :=
  let size := ringBytes c.replyLog2
  decide ((c.replyTail + size - c.replyHead % size) % size + n + 8 ≤ size)

/-- Bytes of the reply that is being written. -/
def replyInFlight (c : Cmd) : Nat := ((c.replyOut.map (fun h => (replyBytes h.reply).length))).getD 0

/-- The oldest reply waits for space, behind the one being written, or for EN (CMD_STAT.REPLY_HELD, 03 R72). -/
def replyHeld (c : Cmd) : Bool :=
  match c.held with
  | [] => false
  | h :: _ => !c.replyEn || !replyFits c (replyInFlight c + (replyBytes h.reply).length)

/-- The two spans that `n` bytes from offset `o` of a ring take. -/
def ringSpans (base size o n : Nat) : List (Nat × Nat × Nat) :=
  let n1 := min n (size - o % size)
  (base + o % size, 0, n1) :: (if n1 < n then [(base, n1, n - n1)] else [])

/-- The writes of a reply at CMD_REPLY_TAIL (03 R72). -/
def replyReqs (sid : BitVec 16) (c : Cmd) (data : Bytes) : List Req :=
  ((ringSpans c.replyBase (ringBytes c.replyLog2) c.replyTail data.length).map
    (fun p => writeReqs sid true .lowest .reply p.1 (slice data p.2.1 p.2.2))).flatten

/-- The oldest waiting reply is written, if none is being written and it can be (03 R72). -/
def sendReply (s : State) : State :=
  match s.cmd.held with
  | [] => s
  | h :: rest =>
    let data := replyBytes h.reply
    if s.cmd.replyOut.isNone && s.cmd.replyEn && replyFits s.cmd data.length && coreOn s then
      let reqs := replyReqs s.keys.selfSid s.cmd data
      { s with cmd := { s.cmd with held := rest, replyOut := some h, replyParts := reqs.length, replyBad := false }
               fab := fabAdd (fabEnv s) s.fab reqs }
    else s

/-- The offset and length of the admin-ring packet that a reply answers. -/
def answersAt (h : HeldReply) : Option (Nat × Nat) :=
  match h.entry with
  | none => none
  | some e => match e.via with
    | .ring off => some (off, 8 * fld e.bytes 4 2)
    | _ => none

/-- CMD_ADMIN_HEAD moved past every packet whose reply is posted (03 Table 3-1). -/
def headPast (fuel size head : Nat) (done : List HeldReply) : Nat × List HeldReply :=
  match fuel with
  | 0 => (head, done)
  | f + 1 =>
    match done.findSome? (fun h => match answersAt h with
        | some q => if q.1 = head then some q else none
        | none => none) with
    | none => (head, done)
    | some q => headPast f size ((head + q.2) % size) (done.filter (fun h => answersAt h != some q))

/-- A reply is posted: CMD_ADMIN_HEAD moves, unless the ring was reset since the packet was taken up (03 Table 3-1). A reply that the
fabric refused counts as posted (DESIGN CHOICE, log 121). -/
def answeredAt (c : Cmd) (h : HeldReply) : Cmd :=
  match h.entry, answersAt h with
  | some e, some q =>
    if e.adminGen = c.adminGen then
      let r := headPast (c.answered.length + 1) (ringBytes c.adminLog2) c.adminHead (c.answered ++ [h])
      { c with adminHead := r.1, answered := r.2, commitLog := c.commitLog.filter (· != q.1) }
    else c
  | _, _ => c

/-- NOTIFY in the packet, or NOTIFY_ALL (03 Table 3-1). -/
def wantsNotify (c : Cmd) (e : CmdEntry) : Bool := c.notifyAll || fld e.bytes 3 1 % 2 == 1

/-- A reply goes where its packet came from (03 R72, R73; 18 R445 for the GLB_IDOP registers, whose status field `idop`
sets). -/
def routeReply (e : CmdEntry) (r : Reply) (s : State) : State :=
  match e.via with
  | .ring _ =>
    sendReply { s with cmd := { s.cmd with held := s.cmd.held ++ [{ reply := r, notify := wantsNotify s.cmd e, entry := some e }] } }
  | .mailbox =>
    { s with cmd := { s.cmd with
      mbox := replyBytes r ++ s.cmd.mbox.drop (replyBytes r).length
      mboxGo := false, mboxDone := true, irqMbox := true } }
  | .idop => { s with id := { s.id with go := false, done := true, status := r.status.code, outBytes := r.detail } }

/-- The token passes to the command that waits for it, or becomes free (03 R80). -/
def passToken (c : Cmd) : Cmd :=
  if c.tokenHold then { c with token := none } else
  match c.exec.find? (fun e => e.waitToken) with
  | some w => { c with token := some { opcode := w.opcode, holder := some w.cid }
                       exec := c.exec.map (fun e => if e.cid = w.cid then { e with waitToken := false, waited := true } else e) }
  | none => { c with token := none }

/-- The token released if the command holds it (03 R81: released by the reply). -/
def dropToken (c : Cmd) (cid : Nat) : Cmd :=
  match c.token with
  | some t => if t.holder = some cid then passToken c else c
  | none => c

/-- The ordering key (03 R78) and the REVOKE exception (R90): whether `e` may start beside the earlier entries. -/
def isRevoke (e : CmdEntry) : Bool := fld e.bytes 2 1 == 2 && bits (fld e.bytes 3 1) 2 1 == 1

def keyFree (earlier : List CmdEntry) (e : CmdEntry) : Bool :=
  !earlier.any (fun x => x.port == e.port && !(isRevoke e && x.fence.isSome))

/-- Whether the latest start of a packet has passed (03 Table 3-2 DEADLINE). -/
def tooLate (now : Nat) (e : CmdEntry) : Bool :=
  match e.due with
  | some t => decide (t < now)
  | none => false

/-- The entries that execution may act on, oldest first: started, or free to start, up to 16 at once and not after the latest start (03
R72, R75, R78, R80); while SCRIBE_HANDOVER runs nothing further starts (14 R367). -/
def runnable (now : Nat) (c : Cmd) : List CmdEntry :=
  let handover := c.exec.any (fun e => e.started && e.opcode == 0x0004)
  let busy := (c.exec.filter (fun e => e.started)).length
  let go := fun (acc : List CmdEntry × List CmdEntry) (e : CmdEntry) =>
    let new := (acc.2.filter (fun x => !x.started)).length
    let ok := e.started || (!e.waitToken && !tooLate now e && keyFree acc.1 e && decide (busy + new < 16) && !replyHeld c && !handover)
    (acc.1 ++ [e], if ok then acc.2 ++ [e] else acc.2)
  (c.exec.foldl go ([], [])).2

/-- Every entry that is free to start is in execution from here on (03 R78). -/
def startAll (now : Nat) (c : Cmd) : Cmd :=
  let go := (runnable now c).map (·.cid)
  { c with exec := c.exec.map (fun e => if go.contains e.cid then { e with started := true } else e) }

def entryOf (s : State) (cid : Nat) : Option CmdEntry := s.cmd.exec.find? (fun e => e.cid == cid)

/-- A command completes: it leaves execution, its token is released and its reply is routed (03 R77, R81). -/
def finish (e : CmdEntry) (r : Reply) (s : State) : State :=
  let s1 := routeReply { e with logged := ((entryOf s e.cid).map (·.logged)).getD e.logged } r { s with cmd := dropToken { s.cmd with exec := s.cmd.exec.filter (fun x => x.cid != e.cid) } e.cid }
  { s1 with cmd := startAll s1.clk.now s1.cmd }

/-- The entry of a command number changed. -/
def modEntry (cid : Nat) (f : CmdEntry → CmdEntry) (c : Cmd) : Cmd :=
  { c with exec := c.exec.map (fun e => if e.cid = cid then f e else e) }

/-- The commit of a command that changes the data path, in the commit log of the Cast-on island (03 R79). -/
def logCommit (e : CmdEntry) (s : State) : State :=
  { s with cmd := modEntry e.cid (fun x => { x with logged := true }) (match e.via with
      | .ring off => if e.adminGen = s.cmd.adminGen then { s.cmd with commitLog := s.cmd.commitLog ++ [off] } else s.cmd
      | _ => s.cmd) }

/-- A command completes with a status and payload. -/
def answer (e : CmdEntry) (st : Status) (payload : Bytes) (s : State) : State :=
  finish e (replyTo s e st 0 payload false) s

/-- A command refused with a DETAIL. -/
def refuseAt (e : CmdEntry) (st : Status) (detail : Nat) (s : State) : State :=
  finish e (replyTo s e st detail [] false) s

def setEntry (cid : Nat) (f : CmdEntry → CmdEntry) (s : State) : State := { s with cmd := modEntry cid f s.cmd }

/-- Stream ID, and whether block-internal, of the accesses made for a command (03 R462). -/
def cmdSid (s : State) (e : CmdEntry) : BitVec 16 × Bool :=
  if e.port = 0xFFFF then (s.keys.selfSid, true) else ((tgetD s.ports e.port {}).sid, false)

/-- A command's read of a span: its bytes land in the entry, and the command's row continues when all have (03 R462). -/
def cmdRead (e : CmdEntry) (addr len : Nat) (s : State) : State :=
  let i := cmdSid s e
  let reqs := readReqs i.1 i.2 .lowest (fun o => .cmdRead e.cid o) addr len
  issue reqs (setEntry e.cid (fun x => { x with started := true, readIssued := true, readLeft := reqs.length }) s)

/-- A command's output is written, and its reply follows the last acknowledgement (03 R462). -/
def cmdWrite (e : CmdEntry) (addr : Nat) (data : Bytes) (r : Reply) (s : State) : State :=
  let i := cmdSid s e
  let reqs := writeReqs i.1 i.2 .lowest (.cmdWrite e.cid) addr data
  if reqs.isEmpty then finish e r s
  else issue reqs (setEntry e.cid (fun x => { x with started := true, acks := reqs.length, reply := some r }) s)

/-- The status of a failed access made for a command (03 R462). -/
def Access.cmdStatus (a : Access) : Status :=
  match a with
  | .ok => .ok
  | .denied | .decode => .accessFault
  | .poison | .parity => .poisoned
  | .timeout | .isolated => .unitFault

/-- The command that the row of opcode `op` executes: the oldest runnable entry that waits for nothing (03 R78). -/
def front (s : State) (op : Nat) : Option CmdEntry :=
  (runnable s.clk.now s.cmd).find? (fun e =>
    e.opcode == op && e.readLeft == 0 && e.acks == 0 && e.fence.isNone && e.reply.isNone && !e.committed)

/-- A parameter of `n` bytes at offset `o` (03 R75: offsets count from byte 16). -/
def par (e : CmdEntry) (o n : Nat) : Nat := fld e.bytes (16 + o) n

/-- The bytes read for a command, in address order. -/
def landed (e : CmdEntry) : Bytes := joinParts e.landed

/-- Commands that wait for a carve-out record have `phase` 1 and its number in `work`: they go on with the failure of its read. -/
def failWaiting (number : Nat) (a : Access) (s : State) : State :=
  { s with cmd := { s.cmd with exec := s.cmd.exec.map (fun e =>
    if e.phase = 1 ∧ e.work.head? = some number then { e with failure := some a.cmdStatus } else e) } }

/-- The commands that wait for a carve-out record go on. -/
def wakeWaiting (number : Nat) (s : State) : State :=
  { s with cmd := { s.cmd with exec := s.cmd.exec.map (fun e =>
    if e.phase = 1 ∧ e.work.head? = some number then { e with phase := 2 } else e) } }

/-! ### Fail-silent (14 R369) -/

/-- The answer of the Cast-on island to a mailbox GO (03 R74). -/
def failSilentMbox (s : State) : Cmd :=
  let m := s.cmd.mbox
  let r : Reply := { opcode := fld m 0 2, status := .failSilent, rflags := 0, sequence := fld m 6 2, port := fld m 8 2
                     epoch := batonEpoch s % 65536, detail := 0, payload := [] }
  { s.cmd with mbox := replyBytes r ++ m.drop 16, mboxGo := false, mboxDone := true, irqMbox := true }

/-- Entry to fail-silent: admission, fetching and new requests stop (by `coreOn`), XOFF goes to 1, ERR_N is held and the
cause is recorded; a mailbox packet not yet answered gets its FAIL_SILENT answer (log 13). -/
def enterFailSilent (cause : Nat) (s : State) : State :=
  { s with
    pwr := if s.pwr.failSilent then s.pwr else { s.pwr with failSilent := true, fsCause := cause, entering := none }
    flt := assertErr s.clk.now s.flt
    chans := tmap s.chans (fun _ c => { c with xoff := true })
    cmd := if s.cmd.mboxGo then failSilentMbox s else s.cmd }

end Sys2Proof.Machine
end

