-- ==== Sys2Proof/Machine/Operands.lean ====
section
/-! DEFINITION. Command packets: the opcodes with their scope, token need, parameters and reply payload (03 Tables 3-5 to
3-15), and the checks 1 to 5 of 03 R463. -/
namespace Sys2Proof.Machine

/-- Scope of an opcode: a client port, the block, or either (03, before R84). -/
inductive Scope where
  | p | b | a
  deriving DecidableEq, Repr

/-- Token need: none, T takes it, H continues its activity (03 R80). -/
inductive TokNeed where
  | none | t | h
  deriving DecidableEq, Repr

/-- A parameter: offset from byte 16, bytes, and the values its range and encoding allow in a packet. -/
structure Par where
  off : Nat
  size : Nat
  ok : Bytes → Nat → Bool

/-- A row of Tables 3-5 to 3-15. -/
structure OpInfo where
  scope : Scope
  tok : TokNeed
  params : List Par
  reply : Nat

def anyPar (off size : Nat) : Par := { off := off, size := size, ok := fun _ _ => true }
def rangePar (off size lo hi : Nat) : Par := { off := off, size := size, ok := fun _ v => decide (lo ≤ v) && decide (v ≤ hi) }

/-- The defined bits of ALG_MASK (03 Table 3-18). -/
def algMaskDefined : BitVec 64 := 0x00011FFF00FF03FF

/-- ENGSEL codes that name an engine (07 R218, 08 R241, 09 R265): kind in [9:8], number in [7:0]. -/
def engselValid (c : Nat) : Bool := decide (c < 20) || (decide (0x100 ≤ c) && decide (c < 0x10E)) || (decide (0x200 ≤ c) && decide (c < 0x209))

/-- STATUS_SNAPSHOT SECTIONS: bits 31:6 reserved; in P scope bits 2 and 3 too (03 R87). -/
def sectionsOk (port v : Nat) : Bool :=
  decide (v < 64) && (port == 0xFFFF || (bits v 2 1 == 0 && bits v 3 1 == 0))

/-- The opcode tables (03 Tables 3-5 to 3-15). -/
def opInfo (op : Nat) : Option OpInfo :=
  match op with
  | 0x0000 => some ⟨.a, .none, [], 0⟩
  | 0x0001 => some ⟨.a, .none, [], 32⟩
  | 0x0002 => some ⟨.a, .none, [⟨0, 8, fun _ v => v % 4096 == 0⟩, anyPar 8 4, ⟨12, 4, fun b v => sectionsOk (fld b 8 2) v⟩], 24⟩
  | 0x0003 => some ⟨.b, .none, [rangePar 0 1 1 4, rangePar 4 4 10 3600000000], 0⟩
  | 0x0004 => some ⟨.b, .t, [], 0⟩
  | 0x0100 => some ⟨.p, .none, [anyPar 0 2, rangePar 4 4 0 7, anyPar 8 8, anyPar 16 8], 8⟩
  | 0x0101 => some ⟨.p, .none, [], 0⟩
  | 0x0102 => some ⟨.p, .none, [⟨0, 8, fun _ v => (BitVec.ofNat 64 v &&& ~~~algMaskDefined) == 0⟩, rangePar 8 4 0 7], 8⟩
  | 0x0103 => some ⟨.p, .none, [anyPar 0 4, anyPar 4 4, anyPar 8 8, anyPar 16 4, anyPar 20 4, anyPar 24 4, anyPar 28 4], 0⟩
  | 0x0104 => some ⟨.p, .none, [], 24⟩
  | 0x0200 => some ⟨.p, .none, [anyPar 0 8, anyPar 8 4], 8⟩
  | 0x0201 => some ⟨.p, .none, [anyPar 0 2, anyPar 2 2, anyPar 8 8, anyPar 16 4], 8⟩
  | 0x0202 => some ⟨.p, .none, [anyPar 0 4, anyPar 4 4, anyPar 8 8], 8⟩
  | 0x0203 => some ⟨.p, .none, [anyPar 0 4], 0⟩
  | 0x0204 => some ⟨.p, .t, [anyPar 0 4, rangePar 4 2 0 1023], 8⟩
  | 0x0205 => some ⟨.p, .none, [rangePar 0 2 0 1023], 8⟩
  | 0x0206 => some ⟨.p, .none, [anyPar 0 4, anyPar 4 2, anyPar 6 1, anyPar 7 1, anyPar 8 4, anyPar 12 2, anyPar 14 2,
      anyPar 16 4, anyPar 20 4], 16⟩
  | 0x0207 => some ⟨.p, .none, [anyPar 0 4, rangePar 4 4 0 0xFFFFF, rangePar 8 1 0 1], 0⟩
  | 0x0208 => some ⟨.p, .none, [anyPar 0 4], 0⟩
  | 0x0209 => some ⟨.p, .none, [anyPar 0 4], 24⟩
  | 0x0300 => some ⟨.p, .none, [rangePar 0 4 0 0xFFFFF, rangePar 4 1 1 3, rangePar 5 1 4 16, rangePar 6 1 0 1,
      ⟨8, 8, fun _ v => v % 128 == 0⟩, rangePar 16 4 0 0xFFFFF], 8⟩
  | 0x0301 => some ⟨.p, .none, [rangePar 0 4 0 0xFFFFF, rangePar 4 1 4 16, ⟨8, 8, fun _ v => v % 128 == 0⟩, anyPar 16 2,
      anyPar 18 2, rangePar 20 2 0 2047], 0⟩
  | 0x0302 => some ⟨.p, .none, [rangePar 0 4 0 0xFFFFF], 0⟩
  | 0x0303 => some ⟨.p, .none, [rangePar 0 4 0 0xFFFFF, anyPar 4 4], 0⟩
  | 0x0304 => some ⟨.p, .none, [rangePar 0 4 0 0xFFFFF, anyPar 4 2, anyPar 6 2], 0⟩
  | 0x0305 => some ⟨.p, .none, [rangePar 0 4 0 0xFFFFF], 16⟩
  | 0x0400 => some ⟨.p, .none, [rangePar 0 1 0 63, rangePar 1 1 0 1, anyPar 4 4,
      ⟨8, 4, fun b v => decide (fld b 28 4 < v) && decide (v ≤ 65536)⟩, anyPar 12 4,
      rangePar 16 4 0 0xFFFFF], 0⟩
  | 0x0401 => some ⟨.p, .none, [rangePar 0 1 0 63], 0⟩
  | 0x0402 => some ⟨.p, .none, [rangePar 0 1 0 63], 8⟩
  | 0x0403 => some ⟨.p, .none, [rangePar 0 1 0 63, anyPar 4 4, anyPar 8 4, anyPar 12 4, anyPar 16 8], 0⟩
  | 0x0404 => some ⟨.a, .none, [], 32⟩
  | 0x0405 => some ⟨.b, .none, [rangePar 0 1 0 3, rangePar 4 4 1 100], 0⟩
  | 0x0406 => some ⟨.b, .none, [rangePar 0 1 0 1, anyPar 8 8, anyPar 16 8, anyPar 24 1], 0⟩
  | 0x0500 => some ⟨.b, .none, [rangePar 0 2 0 13, rangePar 2 2 1 65535, rangePar 4 4 1 604800000], 0⟩
  | 0x0501 => some ⟨.b, .none, [rangePar 0 4 10 250000, rangePar 4 4 1 10000], 0⟩
  | 0x0502 => some ⟨.b, .none, [⟨0, 2, fun _ v => (srcClass v).isSome⟩], 0⟩
  | 0x0503 => some ⟨.b, .none, [⟨0, 2, fun _ v => (srcClass v).isSome⟩], 0⟩
  | 0x0504 => some ⟨.b, .none, [], 0⟩
  | 0x0505 => some ⟨.b, .t, [⟨0, 2, fun _ v => (srcClass v).isSome⟩, rangePar 2 1 0 4, anyPar 4 4], 0⟩
  | 0x0506 => some ⟨.b, .t, [⟨0, 2, fun _ v => engselValid v⟩], 0⟩
  | 0x0507 => some ⟨.b, .t, [⟨0, 2, fun _ v => engselValid v⟩], 8⟩
  | 0x0508 => some ⟨.b, .none, [⟨0, 4, fun _ v => v == 0 || (decide (10 ≤ v) && decide (v ≤ 3600))⟩, rangePar 4 1 0 1], 0⟩
  | 0x0509 => some ⟨.b, .t, [anyPar 0 2, anyPar 4 4], 0⟩
  | 0x0600 => some ⟨.b, .t, [], 8⟩
  | 0x0601 => some ⟨.b, .t, [anyPar 0 8, anyPar 8 4], 0⟩
  | 0x0602 => some ⟨.b, .none, [], 16⟩
  | 0x0603 => some ⟨.b, .none, [anyPar 0 2], 8⟩
  | 0x0604 => some ⟨.b, .t, [anyPar 0 2], 8⟩
  | 0x0700 => some ⟨.b, .t, [anyPar 0 4, anyPar 4 4], 0⟩
  | 0x0701 => some ⟨.b, .h, [anyPar 0 4, rangePar 4 4 1 4096, anyPar 8 8], 0⟩
  | 0x0702 => some ⟨.b, .h, [], 8⟩
  | 0x0703 => some ⟨.b, .h, [], 0⟩
  | 0x0704 => some ⟨.b, .h, [rangePar 0 8 0 (2 ^ 48 - 1), rangePar 8 4 0 999999999], 0⟩
  | 0x0705 => some ⟨.b, .none, [], 0⟩
  | 0x0706 => some ⟨.b, .h, [], 0⟩
  | 0x0707 => some ⟨.b, .t, [anyPar 0 8, anyPar 8 4, anyPar 16 8, anyPar 24 4], 8⟩
  | 0x0800 => some ⟨.b, .none, [], 40⟩
  | 0x0801 => some ⟨.b, .none, [rangePar 0 1 1 16, anyPar 1 16], 0⟩
  | 0x0802 => some ⟨.b, .t, [rangePar 0 1 0 16, anyPar 1 16, rangePar 17 1 0 16, anyPar 18 16], 0⟩
  | 0x0803 => some ⟨.b, .t, [], 0⟩
  | 0x0804 => some ⟨.b, .t, [], 8⟩
  | 0x0805 => some ⟨.b, .t, [anyPar 0 8, anyPar 8 4], 8⟩
  | 0x0806 => some ⟨.b, .none, [rangePar 0 1 0 1], 0⟩
  | 0x0900 => some ⟨.p, .none, [anyPar 0 4, rangePar 4 1 1 8], 0⟩
  | 0x0901 => some ⟨.p, .none, [anyPar 0 2], 0⟩
  | 0x0902 => some ⟨.p, .none, [anyPar 0 2], 0⟩
  | 0x0903 => some ⟨.p, .none, [anyPar 0 2], 8⟩
  | 0x0A00 => some ⟨.a, .none, [anyPar 0 8, rangePar 8 4 1 65536], 0⟩
  | 0x0A01 => some ⟨.b, .none, [], 0⟩
  | 0x0A02 => some ⟨.a, .none, [], 16⟩
  | _ => none

/-- Bytes that the parameters take. -/
def paramEnd (ps : List Par) : Nat := ps.foldl (fun a p => max a (p.off + p.size)) 0

/-- The lowest offending parameter or reserved gap of a packet, as a byte offset (03 R463 step 5, R10). -/
def paramFault (bytes : Bytes) (ps : List Par) (at_ : Nat) : Option Nat :=
  match ps with
  | [] => if allZero (bytes.drop (16 + at_)) then none else some (16 + at_)
  | p :: r =>
    if !allZero (slice bytes (16 + at_) (p.off - at_)) then some (16 + at_)
    else if !p.ok bytes (fld bytes (16 + p.off) p.size) then some (16 + p.off)
    else paramFault bytes r (p.off + p.size)

/-- Bytes of the reply payload (03 R76). -/
def replyPayload (op : Nat) (bytes : Bytes) (info : OpInfo) : Nat :=
  if op = 0x0900 then 8 * cdiv (2 * fld bytes 20 1) 8 else info.reply

/-- Step 1 of 03 R463: the lowest offending header field. -/
def headerFault (bytes : Bytes) : Option Nat :=
  let v := fld bytes 2 1
  let fl := fld bytes 3 1
  let port := fld bytes 8 2
  if v ≠ 1 ∧ v ≠ 2 then some 2
  else if fl ≥ 8 ∨ (v = 1 ∧ fl ≥ 2) then some 3
  else if 1024 ≤ port ∧ port ≠ 0xFFFF then some 8
  else if v = 1 ∧ fld bytes 12 4 ≠ 0 then some 12
  else none

/-- Whether CLIENT_PORT suits the scope (03 R84). -/
def scopeOk (sc : Scope) (port : Nat) : Bool :=
  match sc with
  | .p => port != 0xFFFF
  | .b => port == 0xFFFF
  | .a => true

/-- The commands that the lifecycle state allows (18 Table 18-1; FLT_INJECT in FIELD: 12 R328, sources of class 7 and 8). -/
def lifecycleAllows (lc op : Nat) (bytes : Bytes) : Bool :=
  if lc = 2 then !(op == 0x0505 && (srcClass (fld bytes 16 2) == some 7 || srcClass (fld bytes 16 2) == some 8))
  else if lc = 3 then !([0x0200, 0x0201, 0x0202, 0x0204, 0x0205, 0x0804, 0x0805].contains op)
  else if lc = 4 then op == 0 || op == 1 || op == 2 || (op / 256 == 5 && op != 0x0505)
  else true

/-- Step 5 of 03 R463: the lowest offending offset among LENGTH, REPLY_MAX, the mailbox limits (R73) and the parameters. -/
def step5 (mailbox : Bool) (op : Nat) (bytes : Bytes) (info : OpInfo) : Option Nat :=
  let len := fld bytes 4 2
  let pay := replyPayload op bytes info
  let max_ := fld bytes 10 2
  if 8 * len < 16 + paramEnd info.params then some 4
  else if mailbox ∧ (len < 2 ∨ 16 < len) then some 4
  else if max_ ≠ 0 ∧ 8 * max_ < pay then some 10
  else
    match paramFault (bytes.take (8 * len)) info.params 0 with
    | some d => some d
    | none => if mailbox ∧ 112 < pay then some 0xFFFFFFFF else none

/-- Checks 1 to 3 of 03 R463 and the lifecycle state: the first that fails, with its DETAIL. -/
def packetFault1 (lc : Nat) (bytes : Bytes) : Option (Status × Nat) :=
  let op := fld bytes 0 2
  match headerFault bytes with
  | some d => some (.invalidField, d)
  | none =>
    match opInfo op with
    | none => some (.invalidOpcode, 0)
    | some info =>
      if !scopeOk info.scope (fld bytes 8 2) then some (.notPermitted, 0)
      else if !lifecycleAllows lc op bytes then some (.notPermitted, 0)
      else none

/-- The rest of check 4 of 03 R463, a port that is not open, and check 5. -/
def packetFault2 (portOpen : Bool) (mailbox : Bool) (bytes : Bytes) : Option (Status × Nat) :=
  let op := fld bytes 0 2
  match opInfo op with
  | none => none
  | some info =>
    if fld bytes 8 2 ≠ 0xFFFF ∧ info.scope = .p ∧ op ≠ 0x0100 ∧ !portOpen then some (.notPermitted, 0)
    else (step5 mailbox op bytes info).map (fun d => (Status.invalidField, d))

/-- The latest start of a packet (03 Table 3-2 DEADLINE), from the acceptance of the write that made it visible. -/
def packetDue (accepted : Nat) (bytes : Bytes) : Option Nat :=
  let d := fld bytes 12 4
  if fld bytes 2 1 = 2 ∧ d ≠ 0 then some (accepted + cyUs d) else none

/-- Whether a span lies wholly inside a port's window (06 Table 6-6). -/
def inWindow (p : CPort) (addr len : Nat) : Bool := decide (p.winBase ≤ addr) && decide (addr + len ≤ p.winBase + p.winLen)

/-- The same for a command: a B-scope command has no window (06 Table 6-6). -/
def cmdSpanOk (s : State) (e : CmdEntry) (addr len : Nat) : Bool :=
  e.port == 0xFFFF || inWindow (tgetD s.ports e.port {}) addr len

/-- Runs `f` on the command at hand of an opcode; with none, or while the Scribe does not run, nothing happens (log 12).
A command whose read failed completes with the status of the failure (03 R462). -/
def onCommand (op : Nat) (f : CmdEntry → State → State) (s : State) : State :=
  if running s then
    match front s op with
    | none => s
    | some e =>
      match e.failure with
      | some st => answer e st [] s
      | none => f { e with started := true } (setEntry e.cid (fun x => { x with started := true }) s)
  else s

end Sys2Proof.Machine
end

