-- ==== Sys2Proof/Machine/Modes.lean ====
section
/-! DEFINITION. The modes of AES that the spec computes block by block (SP 800-38A, SP 800-38D; 07 R193, R202): ECB, CBC, counter
mode and GCM, over the opaque AES of Config (log 6). -/
namespace Sys2Proof.Machine

/-- A 16-byte block as the polynomial of SP 800-38D, bit 0 the leftmost. -/
def blockVec (b : Bytes) : BitVec 128 := BitVec.ofNat 128 (beNat (padTo 16 b))

def gmulGo (fuel : Nat) (x v z : BitVec 128) : BitVec 128 :=
  match fuel with
  | 0 => z
  | f + 1 =>
    let z' := if x.getMsbD 0 then z ^^^ v else z
    let v' := if v.getLsbD 0 then (v >>> 1) ^^^ (0xE1#128 <<< 120) else v >>> 1
    gmulGo f (x <<< 1) v' z'

/-- Multiplication in GF(2^128) (SP 800-38D). -/
def gmul (x y : BitVec 128) : BitVec 128 := gmulGo 128 x y 0

/-- GHASH over whole blocks. -/
def ghash (h : BitVec 128) (b : Bytes) : BitVec 128 := (blocks16 b).foldl (fun y x => gmul (y ^^^ blockVec x) h) 0

/-- Zero-padding to whole blocks. -/
def padBlocks (b : Bytes) : Bytes := padTo (16 * cdiv b.length 16) b

/-- s_i of 07 R202, and the GHASH of the final tag with the whole ciphertext. -/
def gcmHash (key aad c : Bytes) : Bytes :=
  let h := blockVec (Config.aesEncrypt key (zeros 16))
  beBytes 16 (ghash h (padBlocks aad ++ padBlocks c ++ beBytes 8 (8 * aad.length) ++ beBytes 8 (8 * c.length))).toNat

/-- The GCM tag of a ciphertext. -/
def gcmTag (key n aad c : Bytes) : Bytes := xorBytes (gcmHash key aad c) (Config.aesEncrypt key (n ++ beBytes 4 1))

/-- Counter mode from a 16-byte block, incremented modulo 2^32 in its last 4 bytes (07 Table 7-3). -/
def ctrMode (key block data : Bytes) : Bytes :=
  let c0 := beNat (block.drop 12)
  (((blocks16 data).zipIdx).map (fun x => xorBytes x.1 (Config.aesEncrypt key (block.take 12 ++ beBytes 4 ((c0 + x.2) % 2 ^ 32))))).flatten

def ecbMode (dec : Bool) (key data : Bytes) : Bytes :=
  ((blocks16 data).map (fun b => if dec then Config.aesDecrypt key b else Config.aesEncrypt key b)).flatten

def cbcEncrypt (key iv data : Bytes) : Bytes :=
  ((blocks16 data).foldl (fun a b => let c := Config.aesEncrypt key (xorBytes a.1 b); (c, a.2 ++ c)) (iv, [])).2

def cbcDecrypt (key iv data : Bytes) : Bytes :=
  ((blocks16 data).foldl (fun a b => (b, a.2 ++ xorBytes a.1 (Config.aesDecrypt key b))) (iv, ([] : Bytes))).2

/-- AES-256-GCM with a 96-bit IV and its 16-byte tag appended: carve-out records (06 R175) and the card archive (17 R434). -/
def gcmSeal (key iv aad data : Bytes) : Bytes :=
  let c := ctrMode key (iv ++ beBytes 4 2) data
  c ++ gcmTag key iv aad c

/-- Opening of such data; none where the tag fails. -/
def gcmOpen (key iv aad data : Bytes) : Option Bytes :=
  let c := data.take (data.length - 16)
  if gcmTag key iv aad c = data.drop (data.length - 16) then some (ctrMode key (iv ++ beBytes 4 2) c) else none

end Sys2Proof.Machine
end

