-- ==== Sys2Proof/Machine/Units.lean ====
section
/-! DEFINITION. Engine units: who is in service, the units that Needle may use and their free(u) (05 R130, R131; 07 R191), the
spares (13 R332), and the keys and sessions that a job names (06). -/
namespace Sys2Proof.Machine

/-- Kind of an ENGSEL code: 0 nib, 1 quill, 2 hook (07 R218). -/
def unitKind (c : Nat) : Nat := c / 256

/-- Fault source of a unit (12 Table 12-3). -/
def unitSrc (c : Nat) : Nat := if c < 0x100 then c else if c < 0x200 then 0x020 + (c - 0x100) else 0x030 + (c - 0x200)

/-- The half of a nib: 0 NIB_A, 1 NIB_B (01 R13). -/
def nibHalf (c : Nat) : Nat := c / 10

def unitOf (s : State) (c : Nat) : EUnit := tgetD s.eng.units c { role := .retired }

/-- The units of a kind, in ascending number. -/
def unitsOfKind (us : Tbl EUnit) (k : Nat) : Tbl EUnit := us.filter (fun u => unitKind u.1 == k)

/-- The unit that holds the place in a pair: the lower nib of the pair, or the unit itself (07 R191). -/
def leadOf (us : Tbl EUnit) (c : Nat) : Nat :=
  match (tgetD us c { role := .retired }).partner with
  | some p => min c p
  | none => c

/-- In service: a nib of a pair or in inverse check, an active quill or hook (13 R338). -/
def inService (u : EUnit) : Bool := u.role == .active || u.role == .inverse

/-- Waiting for an escalation of its kind: no further jobs are placed on it (12 R323). -/
def escWaiting (s : State) (c : Nat) : Bool := s.flt.escWait.contains (unitSrc c)

/-- The units on which Needle places new jobs of a kind (05 R131): leads in service; one that is withdrawn stays while a
replacement takes its place (13 R335). -/
def placeable (s : State) (k : Nat) : List Nat :=
  ((unitsOfKind s.eng.units k).filter (fun u =>
    inService u.2 && leadOf s.eng.units u.1 == u.1
      && (match u.2.drain with
          | none => true
          | some d => d.replacement.isSome)
      && (match u.2.partner with
          | none => true
          | some p => match (unitOf s p).drain with
            | none => true
            | some d => d.replacement.isSome)
      && !escWaiting s u.1 && !(match u.2.partner with
          | some p => escWaiting s p
          | none => false))).map (·.1)

/-- In-service count of a kind: pairs for the nibs (13 R338). -/
def serviceCount (us : Tbl EUnit) (k : Nat) : Nat :=
  if k = 0 then (unitsOfKind us 0).filter (fun u => u.2.role == .active && (match u.2.partner with
      | some p => decide (u.1 < p)
      | none => false)) |>.length
  else ((unitsOfKind us k).filter (fun u => u.2.role == .active)).length

/-- Delivered active counts (13 R340). -/
def deliveredCount (k : Nat) : Nat := if k = 0 then 8 else if k = 1 then 12 else 8

/-- The spares of a kind that nothing has reserved, in ascending number (13 R335, Table 13-5); a spare nib with a partner runs
a retry (07 R214). -/
def freeSpares (us : Tbl EUnit) (k : Nat) : List Nat :=
  ((unitsOfKind us k).filter (fun u => u.2.role == .spare && u.2.drain.isNone && u.2.partner.isNone
    && !us.any (fun w => match w.2.drain with
        | some d => d.replacement == some u.1
        | none => false))).map (·.1)

/-- Spares of a kind, reserved or not (13 Table 13-9). -/
def spareCount (us : Tbl EUnit) (k : Nat) : Nat := ((unitsOfKind us k).filter (fun u => u.2.role == .spare)).length

/-- Whether every unit of the kind is RETIRED or ISOLATED (05 R131). -/
def noneLeft (s : State) (k : Nat) : Bool :=
  (unitsOfKind s.eng.units k).all (fun u => u.2.role == .retired || u.2.role == .isolated)

/-- Admitted, and not yet at its engine end. -/
def onUnit (j : Job) : Bool := j.counted && (j.phase == .queued || j.phase == .suspended)

def modUnit (c : Nat) (f : EUnit → EUnit) (e : Engines) : Engines := { e with units := tmod e.units c f }

/-- Both nibs of a unit, or the unit alone. -/
def members (us : Tbl EUnit) (c : Nat) : List Nat :=
  match (tgetD us c { role := .retired }).partner with
  | some p => [c, p]
  | none => [c]

/-- Every unit of a list changed. -/
def modUnits (cs : List Nat) (f : EUnit → EUnit) (e : Engines) : Engines :=
  { e with units := tmap e.units (fun k u => if cs.contains k then f u else u) }

/-! ### Key handles and sessions (06 R164, R178) -/

def handleSlot (h : Nat) : Nat := h % 2 ^ 15
def handleGen (h : Nat) : Nat := h / 2 ^ 15

/-- A slot; one that was never used is FREE with GEN 1. -/
def slotOf (s : State) (n : Nat) : Slot := tgetD s.keys.slots n {}

/-- What presenting a key handle answers (06 R164, R168). -/
def keyStatus (s : State) (port h : Nat) : Status :=
  let sl := slotOf s (handleSlot h)
  if h = 0 ∨ sl.gen ≠ handleGen h ∨ sl.owner ≠ port then .keyRevoked
  else match sl.state with
    | .valid => .ok
    | .stale => .keyStale
    | _ => .keyRevoked

/-- The key material of a handle: KEY_TYPE, material of MAT_LEN bytes, USAGE. -/
def keyOf (s : State) (h : Nat) : Slot := slotOf s (handleSlot h)

/-- Material of a key: MAT_LEN bytes of the slot, or what the extended record of an RSA key holds (06 Table 6-5). -/
def keyBytes (sl : Slot) : Bytes := if sl.ext.isSome then sl.material else sl.material.take sl.matLen

/-- USAGE bits (06 Table 6-4). -/
def usageHas (sl : Slot) (bit : Nat) : Bool := sl.usage.getLsbD bit

def sessIndex (h : Nat) : Nat := h % 2 ^ 22
def sessGenOf (h : Nat) : Nat := h / 2 ^ 22

/-- The session that a handle of a port names, if it is open (06 R171, R178). -/
def sessionOf (s : State) (port h : Nat) : Option Session :=
  match tget s.keys.sessions (sessIndex h) with
  | some r => if r.gen = sessGenOf h ∧ r.owner = port then some r else none
  | none => none

/-- GLB_BOOT_COUNT: the monotonic counter 0x0000 of 15 Table 15-4. -/
def bootCount (s : State) : Nat := tgetD s.nvm.counters 0 0

/-- Block size B of a Quill function (08 Table 8-1). -/
def quillB (alg : Nat) : Nat :=
  match alg with
  | 0x20 => 64 | 0x21 => 128 | 0x22 => 128 | 0x23 => 136 | 0x24 => 72 | 0x25 => 168 | _ => 136

/-- Full result bytes of a Quill function; SHAKE's default (08 Tables 8-1, 8-2). -/
def quillFull (alg : Nat) : Nat :=
  match alg with
  | 0x20 => 32 | 0x21 => 48 | 0x22 => 64 | 0x23 => 32 | 0x24 => 64 | 0x25 => 32 | _ => 64

/-- K0 of 08 R232: the key zero-padded to B bytes, for SHA-256 the hash of a key of more than 64. -/
def hmacKey (alg : Nat) (key : Bytes) : Bytes :=
  padTo (quillB alg) (if alg = 0x20 ∧ 64 < key.length then Config.digest 0x20 key 32 else key)

/-- HMAC by the ALG of its function: the inner hash from K0 xor ipad, the outer from K0 xor opad (08 R232). -/
def hmac (alg : Nat) (key message : Bytes) : Bytes :=
  let pad := fun (x : Byte) => xorBytes (hmacKey alg key) (List.replicate (quillB alg) x)
  Config.digest alg (pad 0x5C ++ Config.digest alg (pad 0x36 ++ message) (quillFull alg)) (quillFull alg)

/-- The KDF of 06 R155. -/
def kdf (k lbl ctx : Bytes) (l : Nat) : Bytes :=
  (((List.range (cdiv l 256)).map (fun i =>
    hmac 0x20 k (beBytes 4 (i + 1) ++ lbl ++ [0] ++ ctx ++ beBytes 4 l))).flatten).take (l / 8)

def kCpw (p : Nat) : Bytes := kdf Config.kRoot (label "cp-wrap") (leBytes 2 p) 256
def kNvmk : Bytes := kdf Config.kRoot (label "nvm-key") [] 256
/-- K_CARVE: its first 256 bits encrypt carve-out records, the others key the version tree (06 Table 6-1). -/
def kCarve (boot : Nat) : Bytes := kdf Config.kRoot (label "carve") (leBytes 4 boot) 512
/-- The identity seeds (06 Table 6-1; 18 R443). -/
def kIdP384 : Bytes := kdf Config.kRoot (label "id-p384") [] 384
def kIdMldsa : Bytes := kdf Config.kRoot (label "id-mldsa65") [] 256
def kSlot (s : State) : Bytes := kdf Config.kRoot (label "slot-mac") (leBytes 4 (bootCount s)) 256
def kArch (g : Nat) : Bytes := kdf Config.kRoot (label "archive") (leBytes 4 g) 256

/-- Carve-out offsets (06 Table 6-7). -/
def ringRecOff (id : Nat) : Nat := 128 * id
def spillOff (slot : Nat) : Nat := 0x08000000 + 128 * slot
def extOff (i : Nat) : Nat := 0x08400000 + 2048 * i
def sessOff (i : Nat) : Nat := 0x0CC00000 + 128 * i

/-- LOG2_SESSIONS in force (06 Table 6-11). -/
def log2Sessions (k : Keys) : Nat := if 12 ≤ k.carveLog2 ∧ k.carveLog2 ≤ 22 then k.carveLog2 else 22

/-- The write version that the version tree holds for a record (06 R175). -/
def versionOf (k : Keys) (off : Nat) : Nat := tgetD k.versions off 0

/-- The body of a session record (06 R179). -/
def sessBody (r : Session) : Bytes :=
  leBytes 2 r.owner ++ leBytes 4 r.key ++ leBytes 2 r.alg ++ leBytes 1 r.mode ++ leBytes 1 r.policy ++ leBytes 4 r.ligature
  ++ leBytes 2 r.spanOff ++ leBytes 2 r.spanLen ++ leBytes 4 r.sflags ++ leBytes 4 r.salt ++ leBytes 8 r.next
  ++ leBytes 8 r.ceiling ++ leBytes 8 r.limit ++ leBytes 2 r.gen ++ leBytes 1 (b2n r.exhausted)

/-- The body of a ring context: what does not move while it lies in the carve-out (log 7). -/
def ringBody (id : Nat) (r : Ring) : Bytes :=
  leBytes 4 id ++ leBytes 2 r.port ++ leBytes 1 r.log2 ++ leBytes 8 r.base ++ leBytes 1 r.gen ++ leBytes 4 r.cplRing
  ++ leBytes 4 r.ringGen

/-- Bytes of a carve-out record: 2 KiB for an extended key record, 128 otherwise (06 Table 6-7). -/
def recLen (off : Nat) : Nat := if 0x08400000 ≤ off ∧ off < 0x08C00000 then 2048 else 128

/-- A carve-out record as it stands in host memory for a write version: AES-256-GCM under K_CARVE[255:0], with the byte offset and
the write version, 48 bits each, as IV, and the tag at its end (06 R175; log 7). -/
def sealAt (boot off version : Nat) (body : Bytes) : Bytes :=
  padTo (recLen off) (gcmSeal ((kCarve boot).take 32) (leBytes 6 off ++ leBytes 6 version) [] (padTo (recLen off - 16) body))

/-- The number of a carve-out record in the version tree: ring contexts, spilled slots, extended keys and sessions one after another
(log 129). -/
def recordNo (off : Nat) : Nat :=
  if off < 0x08000000 then off / 128
  else if off < 0x08400000 then 2 ^ 20 + (off - 0x08000000) / 128
  else if off < 0x08C00000 then 2 ^ 20 + 32768 + (off - 0x08400000) / 2048
  else 2 ^ 20 + 36864 + (off - 0x0CC00000) / 128

/-- Offset of the version-tree region (06 Table 6-7), and its 4 KiB parts. -/
def treeOff : Nat := 0x08C00000
def treeParts : Nat := 16384

/-- The entry of the version tree for a record, 8 bytes by the model's layout (log 129). -/
def treeBytes (boot record version : Nat) : Bytes := padTo 8 (Config.treeEntry ((kCarve boot).drop 32) record version)

/-- The write of one part of the version tree at its initialisation, every write version 0 (06 R177). -/
def treeReqs (s : State) (part : Nat) : List Req :=
  writeReqs s.keys.selfSid true .lowest .treeInit (s.keys.carveBase + treeOff + 4096 * part)
    (((List.range 512).map (fun i => treeBytes (bootCount s) (512 * part + i) 0)).flatten)

/-- Setting EN starts an initialisation that writes the version tree (06 R177). -/
def startTree (s : State) : State :=
  issue (treeReqs s 0) { s with keys := { s.keys with versions := [], treeLeft := treeParts } }

/-- A carve-out record with the write version that the version tree holds. -/
def sealedRecord (s : State) (off : Nat) (body : Bytes) : Bytes := sealAt (bootCount s) off (versionOf s.keys off) body

/-- The write of a carve-out record with the next write version, and of its entry of the version tree (06 R175). -/
def carveWrite (route : Route) (owner : Owner) (off : Nat) (body : Bytes) (s : State) : State :=
  let v := versionOf s.keys off + 1
  let k := { s.keys with versions := tput s.keys.versions off v }
  let put := fun (o : Nat) (b : Bytes) => writeReqs s.keys.selfSid true route owner (s.keys.carveBase + o) b
  { s with keys := k
           fab := fabAdd (fabEnv s) s.fab (put off (sealAt (bootCount s) off v body)
             ++ put (treeOff + 8 * recordNo off) (treeBytes (bootCount s) (recordNo off) v)) }

/-- Whether a request of an owner is not answered yet. -/
def ownerOpen (f : Fab) (o : Owner) : Bool := f.waiting.any (fun r => r.owner == o) || f.ports.any (fun p => p.2.txns.any (fun t => t.req.owner == o))

/-- A ring's context written back on the ring's own port (04 R96, 02 R39). -/
def writeRing (id : Nat) (r : Ring) (s : State) : State :=
  carveWrite (.by id) .carve (ringRecOff id) (ringBody id r) { s with rings := tput s.rings id { r with stored := ringBody id r } }

/-- The record of a session written with a ceiling; it is stored once the write is acknowledged (06 R181, R182). -/
def writeSession (owner : Owner) (ix ceiling : Nat) (s : State) : State :=
  match tget s.keys.sessions ix with
  | none => s
  | some r =>
    let body := sessBody { r with ceiling := ceiling }
    let v := versionOf s.keys (sessOff ix) + 1
    let t := tmod s.keys.sessions ix (fun x => { x with writing := some (v, body, ceiling) })
    carveWrite .lowest owner (sessOff ix) body { s with keys := { s.keys with sessions := t } }

/-- A record write of a session is acknowledged, its entry of the version tree with it: the record is stored. -/
def recordStored (r : Session) : Session :=
  match r.writing with
  | some w => { r with stored := w.2.1, storedCeil := w.2.2, storedVer := w.1, writing := none }
  | none => r

/-- The session cache lost: the session resumes at its stored ceiling (06 R182). -/
def lostSession (r : Session) : Session :=
  { r with cached := false, reading := false, raising := false, lost := true, next := r.storedCeil, ceiling := r.storedCeil }

/-- The record that host memory returns for a session, if it checks: the one stored, or the one whose write is not acknowledged and has
taken effect all the same (06 R175; log 130). -/
def sessRecord (s : State) (ix : Nat) (r : Session) (b : Bytes) : Option Session :=
  if b = sealAt (bootCount s) (sessOff ix) r.storedVer r.stored then some { r with writing := none }
  else match r.writing with
    | some w => if b = sealAt (bootCount s) (sessOff ix) w.1 w.2.1 then some (recordStored r) else none
    | none => none

/-- GLB_CARVE_BASE, GLB_CARVE_CTRL and GLB_SELF_SID as the resume store takes them (14 R360). -/
def resumeOf (k : Keys) : Resume := { carveBase := k.carveBase, carveEn := k.carveEn, carveLog2 := k.carveLog2, selfSid := k.selfSid }

/-- The read of a carve-out record. -/
def carveRead (owner : Owner) (off : Nat) (s : State) : State :=
  issue (readReqs s.keys.selfSid true .lowest (fun _ => owner) (s.keys.carveBase + off) (recLen off)) s

end Sys2Proof.Machine
end

