-- ==== Sys2Proof/Machine/Jobs.lean ====
section
/-! DEFINITION. Jobs: the descriptor formats (04 R107 to R109), the spans that a job reads and writes, the checks of 04 R114
steps 1 to 5, and engine times (05 R127, 07 R205, 08 R238, 09 R259, 10 R281). -/
namespace Sys2Proof.Machine

/-! ### Descriptors -/

/-- A G1 entry (04 Table 4-5): SRC, DST and LENGTH stand in the IN, OUT and length fields. -/
def parseG1 (b : Bytes) : Desc :=
  { gen := 1, op := fld b 0 1, dflags := fld b 1 1, aux := 0, handle := fld b 4 4, inAddr := fld b 8 8, outAddr := fld b 16 8
    metaAddr := 0, inLen := fld b 24 4, aadLen := 0, outLen := fld b 24 4, metaLen := 0, param := 0, deadline := 0
    cookie := fld b 28 4, ckptAddr := 0, ckptLen := 0, inSgl := 0, outSgl := 0, xflags := 0
    resZero := allZero (slice b 2 2) && decide (fld b 1 1 < 2) }

/-- A G2 entry, and a G3 entry with its bytes 127:64 (04 Tables 4-6, 4-8). -/
def parseG23 (gen : Nat) (b : Bytes) : Desc :=
  { gen := gen, op := fld b 0 1, dflags := fld b 1 1, aux := fld b 2 2, handle := fld b 4 4, inAddr := fld b 8 8
    outAddr := fld b 16 8, metaAddr := fld b 24 8, inLen := fld b 32 4, aadLen := fld b 36 4, outLen := fld b 40 4
    metaLen := fld b 44 4, param := fld b 48 8, deadline := fld b 56 4, cookie := fld b 60 4
    ckptAddr := fld b 64 8, ckptLen := fld b 72 4, inSgl := fld b 76 1, outSgl := fld b 77 1, xflags := fld b 80 1
    resZero := decide (fld b 1 1 < 4)
      && (gen == 2 || (allZero (slice b 78 2) && allZero (slice b 81 47) && decide (fld b 80 1 < 8))) }

def parseDesc (gen : Nat) (b : Bytes) : Desc := if gen = 1 then parseG1 b else parseG23 gen b

/-- Bytes of an entry (04 R107). -/
def entrySize (gen : Nat) : Nat := if gen = 1 then 32 else if gen = 2 then 64 else 128

def Desc.irqNow (d : Desc) : Bool := d.dflags % 2 == 1
def Desc.final (d : Desc) : Bool := bits d.dflags 1 1 == 1
def Desc.chain (d : Desc) : Bool := d.gen == 3 && d.xflags % 2 == 1
def Desc.chainFwd (d : Desc) : Bool := d.gen == 3 && bits d.xflags 1 1 == 1
def Desc.ligature (d : Desc) : Bool := d.gen == 3 && bits d.xflags 2 1 == 1

/-- The operations that a ring's generation defines (04 Tables 4-5, 4-7). -/
def opDefined (gen op : Nat) : Bool :=
  if gen = 1 then op == 1 || op == 2
  else [0x01, 0x02, 0x03, 0x04, 0x10, 0x11, 0x12, 0x13, 0x20, 0x30].contains op

/-! ### Algorithms of sessions (07, 08, 09, 10) -/

def isNib (alg : Nat) : Bool := alg == 0x10 || alg == 0x11
def isQuill (alg : Nat) : Bool := decide (0x20 ≤ alg) && decide (alg ≤ 0x26)
def isHook (alg : Nat) : Bool := decide (0x30 ≤ alg) && decide (alg ≤ 0x3C)
def isRandom (alg : Nat) : Bool := alg == 0x40

/-- Engine kind of a session: 0 nib, 1 quill, 2 hook, 3 FEED_6 (10 R281). -/
def kindOf (alg : Nat) : Nat := if isNib alg then 0 else if isQuill alg then 1 else if isHook alg then 2 else 3

/-- Tag bytes of a Nib session (07 Table 7-2). -/
def tagLen (r : Session) : Nat := let t := bits r.sflags 8 4; if t = 0 then 16 else t

/-- Whether the mode uses an IV (07 R195). -/
def usesIv (r : Session) : Bool := isNib r.alg && !(r.mode == 1 || r.mode == 7 || r.mode == 8)

/-- OUT_LEN of a Quill session (08 Table 8-2). -/
def quillOut (r : Session) : Nat := let o := bits r.sflags 8 12; if o = 0 then quillFull r.alg else o

/-- n_blk(D) of 08 Table 8-4. -/
def nBlk (alg d : Nat) : Nat :=
  match alg with
  | 0x20 => cdiv (d + 9) 64
  | 0x21 | 0x22 => cdiv (d + 17) 128
  | _ => cdiv (d + 1) (quillB alg)

/-- LENGTH and OPEN of a Quill job's PARAM (08 Table 8-3). -/
def qLength (d : Desc) : Nat := d.param % 2 ^ 61
def qOpen (d : Desc) : Bool := bits d.param 63 1 == 1

/-- Block count b of a Quill job (08 R229). -/
def qBlocks (r : Session) (d : Desc) (aAbs : Nat) : Nat :=
  let all := if d.final then nBlk r.alg (qLength d) else qLength d / quillB r.alg
  all - aAbs / quillB r.alg

/-- Fields of a Hook job's PARAM (09 Table 9-2). -/
def hOp (d : Desc) : Nat := bits d.param 0 8
def hClass (d : Desc) : Nat := bits d.param 8 4
def hA (d : Desc) : Nat := bits d.param 12 6
def hB (d : Desc) : Nat := bits d.param 18 6
def hM (d : Desc) : Nat := bits d.param 24 6
def hD (d : Desc) : Nat := bits d.param 30 6
def hIn (d : Desc) : Nat := bits d.param 36 6
def hLoad (d : Desc) : Bool := bits d.param 42 1 == 1
def hStore (d : Desc) : Bool := bits d.param 43 1 == 1
def hVariant (d : Desc) : Bool := bits d.param 44 1 == 1

/-- Width in bytes of a primitive's length class; a polynomial's bytes for classes 8 and 9 (09 Table 9-6, R253). -/
def classBytes (c : Nat) : Nat :=
  match c with
  | 0 => 32 | 1 => 48 | 2 => 72 | 3 => 128 | 4 => 192 | 5 => 256 | 6 => 384 | 7 => 512 | 8 => 512 | _ => 1024

/-- Field bytes N of a curve or of RSA (09 R254). -/
def hookN (alg : Nat) : Nat :=
  match alg with
  | 0x31 => 32 | 0x32 => 48 | 0x33 => 66 | 0x34 => 32 | 0x35 => 32 | 0x36 => 256 | 0x37 => 384 | 0x38 => 512 | _ => 0

/-- The composite operations that an ALG offers (09 Table 9-1). -/
def hookOffers (alg op : Nat) : Bool :=
  if alg = 0x30 then (decide (1 ≤ op) && decide (op ≤ 5)) || (decide (8 ≤ op) && decide (op ≤ 0x0C))
  else if alg ≤ 0x33 then op == 0x20 || op == 0x21 || op == 0x22 || op == 0x23
  else if alg = 0x34 then op == 0x20 || op == 0x21 || op == 0x22
  else if alg = 0x35 then op == 0x20 || op == 0x23
  else if alg ≤ 0x38 then op == 0x26 || op == 0x27
  else if alg ≤ 0x3A then op == 0x20 || op == 0x24 || op == 0x25
  else op == 0x20 || op == 0x21 || op == 0x22

/-- Bytes of the slot result of a composite (09 Table 9-4); 0 where there is none. -/
def hookSlotResult (alg op : Nat) : Nat :=
  match op with
  | 0x20 => if alg ≤ 0x33 then 2 * hookN alg else if alg ≤ 0x35 then 32 else
      match alg with
      | 0x39 => 1184 | 0x3A => 1568 | 0x3B => 1952 | _ => 2592
  | 0x21 => if alg ≤ 0x33 then 2 * hookN alg else if alg = 0x34 then 64 else if alg = 0x3B then 3309 else 4627
  | 0x24 => if alg = 0x39 then 1088 else 1568
  | 0x26 | 0x27 => hookN alg
  | _ => 0

/-- Bytes of a shared-secret blob (09 R250); 0 where the operation returns none. -/
def hookBlob (alg op : Nat) : Nat :=
  if op = 0x23 then (if alg = 0x32 then 88 else if alg = 0x33 then 112 else 72)
  else if op = 0x24 ∨ op = 0x25 then 72 else 0

/-- Bytes that a Hook job writes to META (09 R251, R253, R254). -/
def hookMeta (alg : Nat) (d : Desc) : Nat :=
  if alg = 0x30 then (if hStore d then classBytes (hClass d) else 0)
  else hookSlotResult alg (hOp d) + hookBlob alg (hOp d)

/-- Bytes of a slot result, primitives included. -/
def hookSlotBytes (alg : Nat) (d : Desc) : Nat :=
  if alg = 0x30 then classBytes (hClass d) else hookSlotResult alg (hOp d)

/-- Slots that the input fields of a composite span, counted from SLOT_A (09 Table 9-4). -/
def hookInSlots (alg op : Nat) : Nat :=
  match op with
  | 0x21 => if alg ≤ 0x33 then 1 else if alg = 0x34 then 3 else 1
  | 0x22 => if alg ≤ 0x33 then 3 else if alg = 0x34 then 5 else if alg = 0x3B then 5 + 7 else 7 + 10
  | 0x23 => 1
  | 0x24 => if alg = 0x39 then 3 else 4
  | 0x25 => if alg = 0x39 then 3 else 4
  | 0x26 => 1
  | 0x27 => 3
  | _ => 0

/-! ### Spans (04 Table 4-7, R108, R123) -/

/-- CBC and CTR place the IV ahead of the data in G1 (04 R108). -/
def ivAhead (r : Session) : Bool := isNib r.alg && (r.mode == 2 || r.mode == 3)

/-- Data bytes P of a cipher job (07 R193). -/
def dataLen (d : Desc) : Nat := if d.gen = 1 then d.inLen else d.inLen - d.aadLen

/-- Input bytes that the job reads. -/
def inBytes (r : Session) (d : Desc) : Nat :=
  if d.gen = 1 ∧ d.op = 2 ∧ ivAhead r then d.inLen + 16 else d.inLen

/-- Bytes of the OUT span (04 R108, R123). -/
def outBytes (r : Session) (d : Desc) : Nat :=
  if d.gen = 1 then (if d.op = 1 ∧ ivAhead r then d.inLen + 16 else d.inLen) else d.outLen

/-- The first `n` bytes of a list of elements, cut where `n` ends. -/
def takeSpan (l : List (Nat × Nat)) (n : Nat) : List (Nat × Nat) :=
  match l with
  | [] => []
  | (a, k) :: r => if n = 0 then [] else if n ≤ k then [(a, n)] else (a, k) :: takeSpan r (n - k)

/-- `n` bytes of a list of elements from byte `o` of it. -/
def dropSpan (l : List (Nat × Nat)) (o : Nat) : List (Nat × Nat) :=
  match l with
  | [] => []
  | (a, k) :: r => if o = 0 then (a, k) :: r else if k ≤ o then dropSpan r (o - k) else (a + o, k - o) :: r

/-- Where the input lies: a list's elements, or one span. -/
def inSpans (r : Session) (j : Job) : List (Nat × Nat) :=
  if j.inList.isEmpty then [(j.desc.inAddr, inBytes r j.desc)] else j.inList

/-- Where OUT lies. -/
def outSpans (r : Session) (j : Job) : List (Nat × Nat) :=
  if j.outList.isEmpty then [(j.desc.outAddr, outBytes r j.desc)] else j.outList

/-- META size of a Nib job (07 Table 7-4). -/
def nibMeta (r : Session) : Nat :=
  match r.mode with
  | 2 | 3 => 16
  | 4 | 5 | 6 | 9 => 16 + tagLen r
  | 7 => tagLen r
  | _ => 0

/-- Checkpoint interval L of 07 Table 7-5; 0 for none. -/
def ligatureL (v : Nat) : Nat :=
  if v = 0 then 0
  else if bits v 31 1 = 0 then 2 ^ bits v 0 5
  else 16 * bits v 0 16 * bits v 16 15

/-- Checkpoints k of a Ligature job (07 R202). -/
def ckptCount (r : Session) (d : Desc) : Nat :=
  let l := ligatureL r.ligature
  if d.ligature ∧ l ≠ 0 then cdiv (dataLen d) l - 1 else 0

/-- Whether the job writes OUT, META or checkpoints (04 Table 4-7). -/
def writesOut (d : Desc) : Bool := d.op == 1 || d.op == 2 || d.op == 0x30
def writesMeta (d : Desc) : Bool := d.gen != 1 && (d.op == 1 || d.op == 3 || d.op == 0x10 || d.op == 0x12 || d.op == 0x20)
def writesCkpt (d : Desc) : Bool := d.op == 1 && d.ligature

/-- The output span of the zero-fill (04 R123). -/
def zeroSpans (r : Session) (j : Job) : List (Nat × Nat) :=
  (if writesOut j.desc then outSpans r j else [])
  ++ (if writesMeta j.desc then [(j.desc.metaAddr, j.desc.metaLen)] else [])
  ++ (if writesCkpt j.desc then [(j.desc.ckptAddr, j.desc.ckptLen)] else [])

/-- Bytes of META that the job reads (04 Table 4-7, 08 R235). -/
def metaRead (r : Session) (d : Desc) : Nat :=
  if d.gen = 1 then 0
  else if isNib r.alg then (if d.op = 2 ∨ d.op = 4 then nibMeta r else 0)
  else if isQuill r.alg then (if d.op = 0x11 ∨ d.op = 0x13 then quillOut r else 0)
  else 0

/-! ### The checks of 04 R114 -/

/-- The ranges that must not meet (04 R113). -/
def rangesOk (r : Session) (j : Job) : Bool :=
  let d := j.desc
  let ins := inSpans r j
  let outs := if writesOut d then outSpans r j else []
  let flat := j.inList.isEmpty && j.outList.isEmpty
  let p := dataLen d
  let inPlace :=
    if d.gen = 1 then
      (if !ivAhead r then d.outAddr == d.inAddr else if d.op = 1 then d.outAddr + 16 == d.inAddr else d.outAddr == d.inAddr + 16)
    else d.outAddr == d.inAddr + d.aadLen
  let inOut := !flat || outs.isEmpty || inPlace || !overlaps d.inAddr (inBytes r d) d.outAddr (outBytes r d)
  let clear := fun (a n : Nat) => !ins.any (fun x => overlaps a n x.1 x.2) && !outs.any (fun x => overlaps a n x.1 x.2)
  inOut && clear d.metaAddr d.metaLen
    && (!d.ligature || (clear d.ckptAddr d.ckptLen && !overlaps d.ckptAddr d.ckptLen d.metaAddr d.metaLen))
    && (!(writesOut d) || d.gen == 1 || d.op == 0x30 || decide (p ≤ outBytes r d))

/-- Lists: 04 R110. -/
def listOk (addr n : Nat) (l : List (Nat × Nat)) (total : Nat) : Bool :=
  n == 0 || (addr % 16 == 0 && addr / 4096 == (addr + 16 * n - 1) / 4096 && l.all (fun e => decide (1 ≤ e.2))
    && (l.foldl (fun a e => a + e.2) 0 == total))

/-- Field checks that need no session: reserved fields and encodings, lists (04 R114 step 1). -/
def fieldsOk (j : Job) : Bool :=
  let d := j.desc
  d.resZero && !j.fetchBad && decide (d.inSgl ≤ 8) && decide (d.outSgl ≤ 8)
    && (d.gen != 3 || (listOk d.inAddr d.inSgl j.inList d.inLen || d.chainFwd) && listOk d.outAddr d.outSgl j.outList d.outLen
      && d.ckptLen % 16 == 0)
    && (if d.gen = 1 then decide (1 ≤ d.inLen) else decide (d.aadLen ≤ d.inLen))
    && (!d.ligature || d.op == 1 || d.op == 2)
    && (d.op == 0x20 || d.aux == 0)

/-- Limits of Nib jobs (07 R193, R199, R211, R212). -/
def nibOk (r : Session) (d : Desc) : Bool :=
  let p := dataLen d
  let a := d.aadLen
  let aead := r.mode == 4 || r.mode == 6 || r.mode == 9
  let sp := r.spanOff + r.spanLen
  (aead || r.mode == 5 || a == 0) && (r.mode != 5 || a == d.inLen)
    && (match r.mode with
        | 1 | 2 => p % 16 == 0 && decide (16 ≤ p)
        | 3 => decide (1 ≤ p)
        | 4 | 9 | 5 => decide (1 ≤ d.inLen)
        | 6 => decide (1 ≤ d.inLen) && decide (p ≤ 2 ^ 24 - 1) && decide (a ≤ 65279)
        | 8 => decide (16 ≤ p) && decide (p ≤ 2 ^ 24)
        | _ => true)
    && (d.gen == 1 || ((r.mode == 1 || r.mode == 8) && d.metaAddr == 0 && d.metaLen == 0)
        || (!(r.mode == 1 || r.mode == 8) && decide (nibMeta r ≤ d.metaLen)))
    && (r.mode == 8 || d.param == 0)
    && (r.spanLen == 0 || decide (sp ≤ (if aead then a else d.inLen)))

/-- A verify operation of the digests. -/
def quillVerify (d : Desc) : Bool := d.op == 0x11 || d.op == 0x13

/-- What 08 R222 reserves in a Quill job, whatever its function: a part that is not final generates and has no META. -/
def quillLayoutOk (d : Desc) : Bool :=
  d.aadLen == 0 && bits d.param 61 2 == 0
    && (d.final || (d.metaAddr == 0 && d.metaLen == 0 && (d.op == 0x10 || d.op == 0x12) && decide (0 < qLength d)))

/-- Limits of Quill jobs by their function (08 R222, R229, R230, R234); `a` is A_abs of the session's open message, if it has one. A
closing verify part takes exactly the input that is left. -/
def quillOk (r : Session) (d : Desc) (a : Option Nat) : Bool :=
  let b := quillB r.alg
  if d.final then
    decide (quillOut r ≤ d.metaLen)
      && (if qOpen d then decide (qBlocks r d 0 * b ≤ d.inLen) && (!quillVerify d || d.inLen == qBlocks r d 0 * b)
          else match a with
            | some n => !quillVerify d || decide (qLength d < n) || decide (d.inLen ≤ qBlocks r d n * b)
            | none => true)
  else qLength d % b == 0

/-- The encodings of a Hook job's PARAM and fields (09 R251). -/
def hookOk (d : Desc) : Bool :=
  let op := hOp d
  let prim := (decide (1 ≤ op) && decide (op ≤ 5)) || (decide (8 ≤ op) && decide (op ≤ 0x0C))
  let comp := decide (0x20 ≤ op) && decide (op ≤ 0x27)
  let c := hClass d
  bits d.param 45 19 == 0 && !d.final && d.outAddr == 0 && d.outLen == 0 && d.aadLen == 0
    && (if hLoad d then decide (1 ≤ d.inLen) && decide (d.inLen ≤ 32768) else d.inLen == 0)
    && (if prim then
          (if op ≤ 5 then decide (c ≤ 7) else decide (8 ≤ c) && decide (c ≤ 9))
            && (!hVariant d || op == 0x0A) && (op ≤ 5 || hM d == 0)
            && (!(op == 4 || op == 8 || op == 9) || hB d == 0)
        else comp && c == 0 && !hStore d && hB d == 0 && hM d == 0
            && (!hVariant d || op == 0x21 || op == 0x22)
            && (!(op == 0x22 || op == 0x23 || op == 0x25) || hD d == 0))

/-- The fields of a RANDOM job (10 R281). -/
def randomOk (d : Desc) : Bool :=
  d.inAddr == 0 && d.inLen == 0 && d.aadLen == 0 && d.metaAddr == 0 && d.metaLen == 0 && d.param == 0 && !d.final
    && d.inSgl == 0 && decide (1 ≤ d.outLen) && decide (d.outLen ≤ 65536)

/-- What stands for a session that cannot be read: a cipher without IV. -/
def noSession : Session :=
  { owner := 0, key := 0, alg := 0x10, mode := 1, policy := 0, ligature := 0, spanOff := 0, spanLen := 0, sflags := 0, salt := 0
    next := 0, ceiling := 0, limit := 0, gen := 0 }

/-- What step 1 checks by OP alone (00 R10; 07 R193; 08 R222; 09 R251; 10 R281), with the ranges of 04 R113, which only a G1 job's
session changes. -/
def opFieldsOk (j : Job) : Bool :=
  let d := j.desc
  (match d.op with
   | 0x01 | 0x02 => d.gen == 1 || d.final
   | 0x03 | 0x04 => d.final && d.param == 0
   | 0x10 | 0x11 | 0x12 | 0x13 => quillLayoutOk d
   | 0x20 => hookOk d
   | 0x30 => randomOk d
   | _ => true)
  && (d.gen == 1 || rangesOk noSession j)

/-- A G1 job runs AES in ECB, CBC or CTR mode only (04 R108). -/
def g1Mode (r : Session) : Bool := r.alg == 0x10 && decide (1 ≤ r.mode) && decide (r.mode ≤ 3)

/-- What step 1 checks by the session's algorithm and mode (04 R111, R114). The limits of a mode that a G1 job cannot run do not
apply to it: step 4 refuses it (04 R108). -/
def sessionFieldsOk (r : Session) (j : Job) (open_ : Option Nat) : Bool :=
  let d := j.desc
  let cipher : Bool := d.op == 1 || d.op == 2 || d.op == 3 || d.op == 4
  let quill : Bool := d.op == 0x10 || d.op == 0x11 || d.op == 0x12 || d.op == 0x13
  (!(isNib r.alg && cipher) || (if d.gen = 1 then !g1Mode r || (nibOk r d && rangesOk r j) else nibOk r d))
    && (!(isQuill r.alg && quill) || quillOk r d open_)
    && (!(isQuill r.alg && cipher && d.gen != 1) || quillLayoutOk d)
    && (!d.ligature || (r.ligature != 0 && decide (16 * ckptCount r d ≤ d.ckptLen)))
    && (d.op != 0x20 || !hVariant d || hOp d == 0x0A || r.alg == 0x34)

/-- The operations of a session (07 Table 7-1, 08 R221, 09 R251, 10 R281), HOST_IV included (07 R195). -/
def opAllowed (r : Session) (d : Desc) : Bool :=
  if isNib r.alg then
    (if r.mode = 5 ∨ r.mode = 7 then d.op == 3 || d.op == 4 else d.op == 1 || d.op == 2)
      && !(r.policy == 2 && usesIv r && (d.op == 1 || d.op == 3))
      && (d.gen != 1 || (r.alg == 0x10 && decide (r.mode ≤ 3)))
  else if isQuill r.alg then d.op == 0x10 || d.op == 0x11 || (r.mode == 1 && (d.op == 0x12 || d.op == 0x13))
  else if isHook r.alg then d.op == 0x20 && hookOffers r.alg (hOp d)
  else d.op == 0x30

/-- ALG_MASK bits that a session needs (03 Table 3-18). -/
def algBits (alg mode lig : Nat) : List Nat :=
  (if alg = 0x10 then [mode - 1] else if alg = 0x11 then [8]
   else if isQuill alg then (16 + (alg - 0x20)) :: (if mode = 1 then [23] else [])
   else if isHook alg then [32 + (alg - 0x30)] else [48])
  ++ (if lig ≠ 0 then [9, 3] else [])

def maskAllows (m : BitVec 64) (l : List Nat) : Bool := l.all (fun i => m.getLsbD i)

/-- USAGE bit that an operation needs (06 Table 6-4); none where no key is used. -/
def usageNeed (r : Session) (d : Desc) : List Nat :=
  if r.key = 0 then []
  else if isNib r.alg then (match d.op with | 1 => [0] | 2 => [1] | 3 => [2] | _ => [3])
  else if isQuill r.alg then (if d.op = 0x10 ∨ d.op = 0x12 then [2] else [3])
  else if isHook r.alg then
    (match hOp d with | 0x21 => [4] | 0x23 => [5] | 0x24 => [0] | 0x25 => [1] | _ => [])
  else []

/-- USAGE: the bits needed; RSA_PRIVATE takes SIGN or DECRYPT (09 Table 9-4). -/
def usageOk (sl : Slot) (r : Session) (d : Desc) : Bool :=
  (usageNeed r d).all (usageHas sl) && (!(isHook r.alg && hOp d == 0x26) || usageHas sl 4 || usageHas sl 1)
    && (!d.ligature || usageHas sl 8)

/-- An operation that needs a private key, on a session that has none (09 Table 9-4). -/
def needsKey (r : Session) (d : Desc) : Bool :=
  isHook r.alg && [0x20, 0x21, 0x23, 0x25, 0x26].contains (hOp d)

/-- The lease that a WINDOW_ID names by its first window (09 R243), numbered by that window's index. -/
def leaseOf (s : State) (wid : Nat) : Option (Nat × Lease) :=
  let ix := wid % 512
  match tget s.eng.leases ix with
  | some l => if tgetD s.eng.windowGen ix 1 = wid / 512 then some (ix, l) else none
  | none => none

/-- Step 4 of 04 R114 for a Hook job (09 R251). DERIVED_USAGE 0 refuses AGREE, ENCAPS and DECAPS, the operations that return a secret (09
R250; DEDUCED, log 140). -/
def hookStep4 (s : State) (port : Nat) (r : Session) (d : Desc) : Status :=
  match leaseOf s d.aux with
  | none => .notPermitted
  | some (_, l) =>
    let slots := 8 * l.windows.length
    let n := hookSlotBytes r.alg d
    let wid := cdiv (max 1 (classBytes (hClass d))) 512
    if l.session ≠ d.handle ∨ l.port ≠ port ∨ l.releasing then .notPermitted
    else if r.key = 0 ∧ needsKey r d then .notPermitted
    else if (hOp d = 0x23 ∨ hOp d = 0x24 ∨ hOp d = 0x25) ∧ r.sflags % 65536 = 0 then .notPermitted
    else if slots < hA d + (if r.alg = 0x30 then wid else hookInSlots r.alg (hOp d))
        ∨ (r.alg = 0x30 ∧ (slots < hB d + wid ∨ slots < hM d + wid))
        ∨ (0 < n ∧ slots < hD d + cdiv n 512)
        ∨ (hLoad d ∧ 512 * slots < 512 * hIn d + d.inLen)
        ∨ d.metaLen < hookMeta r.alg d then .invalidField
    else .ok

/-- Whether every address of the job lies in the port's window (06 Table 6-6). -/
def addrsOk (p : CPort) (r : Session) (j : Job) : Bool :=
  let d := j.desc
  ((d.op == 0x30) || (inSpans r j).all (fun x => x.2 == 0 || inWindow p x.1 x.2))
    && (d.gen != 3 || ((d.inSgl == 0 || inWindow p d.inAddr (16 * d.inSgl)) && (d.outSgl == 0 || inWindow p d.outAddr (16 * d.outSgl))))
    && (!writesOut d || (outSpans r j).all (fun x => inWindow p x.1 x.2))
    && ((!writesMeta d && metaRead r d == 0) || d.metaLen == 0 || inWindow p d.metaAddr d.metaLen)
    && (!d.ligature || inWindow p d.ckptAddr d.ckptLen)

/-- Whether a session is bound to the job's ring, which is not being destroyed (04 R104, 06 R180), or is its channel's
session. -/
def boundTo (s : State) (j : Job) : Bool :=
  match j.src with
  | .ring id _ => match tget s.rings id with
    | some r => r.bound.contains j.desc.handle && !r.draining
    | none => false
  | .stream n _ => (tgetD s.chans n {}).session == j.desc.handle
  | .block _ => true

/-- The checks of a stream frame (11 R285, R286, R299; 06 R162; 07 R212; 03 R466). -/
def streamStatus (s : State) (n : Nat) (j : Job) : Status :=
  let p := tgetD s.ports j.port {}
  match sessionOf s j.port j.desc.handle with
  | none => .sessionClosed
  | some r =>
    if r.spanLen ≠ 0 ∧ j.desc.inLen < r.spanOff + r.spanLen then .invalidField
    else if s.fuse.lifecycle == 4 || !p.isOpen || (tgetD s.chans n {}).closing || !boundTo s j
        || !maskAllows p.algMask (algBits r.alg r.mode r.ligature)
        || (r.key != 0 && !usageOk (keyOf s r.key) r j.desc && keyStatus s j.port r.key == .ok) then .notPermitted
    else if r.key ≠ 0 then keyStatus s j.port r.key else .ok

/-- Steps 1 to 5 of 04 R114 for a descriptor. -/
def ringStatus (s : State) (j : Job) : Status :=
  let d := j.desc
  let p := tgetD s.ports j.port {}
  let known := opDefined d.gen d.op
  let bare := !fieldsOk j || (known && !opFieldsOk j)
  match sessionOf s j.port d.handle with
  | none => if bare then .invalidField else if !known then .invalidOpcode else .sessionClosed
  | some r =>
    if bare || (known && !sessionFieldsOk r j ((tget s.eng.messages d.handle).map (·.aAbs))) then .invalidField
    else if !known then .invalidOpcode
    else if s.fuse.lifecycle == 4 || !p.isOpen || !boundTo s j || !opAllowed r d
        || !maskAllows p.algMask (algBits r.alg r.mode (if r.ligature ≠ 0 ∨ d.ligature then 1 else 0))
        || (d.deadline != 0 && !p.pflags.getLsbD 1) || (d.op == 0x20 && !p.pflags.getLsbD 2)
        || (r.key != 0 && !usageOk (keyOf s r.key) r d && keyStatus s j.port r.key == .ok) || !addrsOk p r j then .notPermitted
    else
      let h := if d.op = 0x20 then hookStep4 s j.port r d else .ok
      if h ≠ .ok then h
      else if r.key ≠ 0 then keyStatus s j.port r.key else .ok

/-- The first check that fails, if any. -/
def descStatus (s : State) (j : Job) : Status :=
  match j.src with
  | .stream n _ => streamStatus s n j
  | _ => ringStatus s j

/-! ### Engine times -/

/-- Slots n and fixed part F of a Nib job (07 Table 7-7), from its data, AAD and checkpoint counts. -/
def nibSlots (alg mode op p0 a0 k : Nat) (lig : Bool) : Nat × Nat :=
  let p := cdiv p0 16
  let extra := cdiv a0 16 - 4
  if alg = 0x11 then (p + extra, 112)
  else match mode with
    | 1 => (p, if op = 1 then 32 else 48)
    | 2 => if op = 1 then (8 * p, 150) else (p, 48)
    | 3 => (p, 32)
    | 4 => if lig then (p + extra + k, 112) else (p + extra, 96)
    | 5 => (cdiv a0 16, 96)
    | 6 => (8 * (2 * p + 2 + (if a0 = 0 then 0 else cdiv (a0 + 2) 16)), 150)
    | 7 => (8 * max 1 p, 150)
    | _ => (p + (if p0 % 16 = 0 then 0 else 8), if op = 1 then 56 else 72)

/-- A narrow job runs on one lane (07 R190). -/
def isNarrow (r : Session) (op : Nat) : Bool := r.alg == 0x10 && ((r.mode == 2 && op == 1) || r.mode == 6 || r.mode == 7)

/-- C_op of a Hook job (09 Tables 9-6, 9-7). -/
def hookC (alg op cls : Nat) : Nat :=
  if alg = 0x30 then
    match op with
    | 1 | 2 => [8, 8, 8, 16, 24, 32, 48, 64].getD cls 0
    | 3 => [16, 32, 64, 232, 520, 920, 2080, 3680].getD cls 0
    | 4 => [1024, 3072, 6912, 16384, 36864, 65536, 147456, 262144].getD cls 0
    | 5 => [8192, 24576, 73728, 475136, 1597440, 3768320, 12779520, 30146560].getD cls 0
    | 8 => if cls = 8 then 144 else 160
    | 9 => if cls = 8 then 160 else 176
    | 0x0A => if cls = 8 then 48 else 64
    | _ => 32
  else
    let row := match alg with
      | 0x31 => [56000, 60000, 99600, 80000]
      | 0x32 => [128000, 136000, 224000, 180000]
      | 0x33 => [300000, 316000, 480000, 400000]
      | 0x34 => [48000, 52000, 90000]
      | 0x35 => [56000, 0, 0, 60000]
      | 0x36 => [0, 1080000, 60000]
      | 0x37 => [0, 3420000, 134000]
      | 0x38 => [0, 7992000, 236000]
      | 0x39 => [24000, 0, 0, 30000, 40000]
      | 0x3A => [36000, 0, 0, 44000, 56000]
      | 0x3B => [40000, 2400000, 79600]
      | _ => [64000, 3072000, 118000]
    match op with
    | 0x20 => row.getD 0 0
    | 0x21 | 0x26 => row.getD 1 0
    | 0x22 | 0x27 => row.getD 2 0
    | 0x23 | 0x24 => row.getD 3 0
    | _ => row.getD 4 0

/-- Slots n and fixed part F of a Nib job; a stream frame counts STM_LEN, trailer included (07 R205). -/
def slotsOf (r : Session) (j : Job) : Nat × Nat :=
  let d := j.desc
  let mlen := match j.src with
    | .stream _ _ => d.outLen
    | _ => d.inLen
  if r.mode = 5 then nibSlots r.alg 5 d.op 0 mlen 0 false
  else if r.mode = 7 then nibSlots r.alg 7 d.op d.inLen 0 0 false
  else nibSlots r.alg r.mode d.op (dataLen d) d.aadLen (ckptCount r d) d.ligature

/-- The part of an engine time that moves data and the fixed part, in SKEIN cycles before rounding is applied to their sum
by `engineCycles`; each in cycles of the engine's own clock (05 Table 5-1). -/
def engineParts (r : Session) (j : Job) (inverse : Bool) : Nat × Nat :=
  let d := j.desc
  if isNib r.alg then
    let q := slotsOf r j
    let n := q.1 + cdiv q.1 9
    (if inverse then 2 * n else n, q.2)
  else if isQuill r.alg then
    let b := qBlocks r d j.aAbs
    let c := match r.alg with | 0x20 => 16 | 0x21 | 0x22 => 20 | _ => 24
    let f := if r.mode = 1 then (match r.alg with | 0x20 => 120 | 0x21 | 0x22 => 100 | _ => 112)
      else if r.alg = 0x25 ∨ r.alg = 0x26 then 40 + 24 * (cdiv (quillOut r) (quillB r.alg) - 1) else 40
    (b * c, f)
  else if isHook r.alg then
    ((if hLoad d then 272 else 0) + (if 0 < hookMeta r.alg d then 80 else 0), hookC r.alg (hOp d) (hClass d))
  else (cdiv d.outLen 16, 96)

/-- Full rate, in GB/s: no stretch (05 R129). -/
def fullRate : Nat × Nat := (224, 1)

/-- Engine time in SKEIN cycles, the data part multiplied by 224 GB/s over a lower measured rate and rounded up (05 R127, R129). -/
def engineCycles (r : Session) (j : Job) (inverse : Bool) (rate : Nat × Nat) : Nat :=
  let q := engineParts r j inverse
  let data := if 0 < rate.1 ∧ rate.1 < 224 * rate.2 then cdiv (q.1 * 224 * rate.2) rate.1 else q.1
  let n := data + q.2
  if isNib r.alg then cyNib n else if isQuill r.alg then cyQuill n else if isHook r.alg then cyHook n else cyCtrl n

/-- Engine time in ns, rounded up, as the ledger charges it (05 Table 5-4). -/
def engineNs (r : Session) (j : Job) (inverse : Bool) : Nat :=
  let q := engineParts r j inverse
  let n := q.1 + q.2
  if isNib r.alg then cdiv (4 * n) 7 else if isQuill r.alg then cdiv (5 * n) 7 else if isHook r.alg then cdiv (5 * n) 6 else cdiv (5 * n) 4

/-- Engine time in the engine's own cycles, for its BUSY counter. -/
def engineOwn (r : Session) (j : Job) (inverse : Bool) : Nat := let q := engineParts r j inverse; q.1 + q.2

/-- The charge of a job: bytes and Hook operations (05 R144). -/
def chargeOf (r : Session) (j : Job) : Nat × Nat :=
  if isHook r.alg then (0, 1)
  else if isRandom r.alg then (j.desc.outLen, 0)
  else match j.src with
    | .stream _ _ => (j.desc.outLen, 0)
    | _ => (j.desc.inLen, 0)

end Sys2Proof.Machine
end

