-- ==== Sys2Proof/Machine/Cipher.lean ====
section
/-! DEFINITION. What the nibs, quills and hooks compute (07 R193, R197, R199, R202, R212; 08 R228 to R235; 09 R253 to R255). AES
itself, CMAC, CCM, XTS, ChaCha20-Poly1305, the digests and the public-key schemes are the standards', opaque in Config
(log 6). -/
namespace Sys2Proof.Machine

/-! ### Nib modes -/

/-- The mutable-field span computed as zero (07 R212). -/
def spanZero (r : Session) (b : Bytes) : Bytes :=
  if r.spanLen = 0 then b else b.take r.spanOff ++ zeros r.spanLen ++ b.drop (r.spanOff + r.spanLen)

/-- What a Nib job yields: output, META, checkpoint tags, and for a checked operation whether every tag matches. -/
structure NibOut where
  out : Bytes := []
  meta_ : Bytes := []
  tags : Bytes := []
  good : Option Bool := none

/-- Checkpoint tags of a Ligature job (07 R202). -/
def ckptTags (r : Session) (d : Desc) (key kL n aad c : Bytes) : Bytes :=
  ((List.range (ckptCount r d)).map (fun i =>
    xorBytes (gcmHash key aad (c.take ((i + 1) * ligatureL r.ligature))) (Config.aesEncrypt kL (n ++ beBytes 4 (i + 1))))).flatten

/-- N or the IV followed by a tag, as META holds them (07 Table 7-4). -/
def metaWith (n tag : Bytes) : Bytes := padTo 16 n ++ tag

/-- An encryption (07 Tables 7-1, 7-3). -/
def nibEncrypt (r : Session) (j : Job) (aad p : Bytes) : NibOut :=
  let k := j.keyMat
  let n := j.nonce
  let t := tagLen r
  match r.mode with
  | 1 => { out := ecbMode false k p }
  | 2 => let iv := Config.aesEncrypt k (n ++ beBytes 4 0); { out := cbcEncrypt k iv p, meta_ := iv }
  | 3 => let iv := n ++ beBytes 4 1; { out := ctrMode k iv p, meta_ := iv }
  | 4 => let c := ctrMode k (n ++ beBytes 4 2) p
         { out := c, meta_ := metaWith n ((gcmTag k n aad c).take t), tags := if j.desc.ligature then ckptTags r j.desc k j.kL n aad c else [] }
  | 6 => let q := Config.ccmSeal k n aad p t; { out := q.1, meta_ := metaWith n (q.2.take t) }
  | 8 => { out := Config.xts false k j.desc.param p }
  | _ => let q := Config.chachaPoly false k n aad p; { out := q.1, meta_ := metaWith n (q.2.take t) }

/-- A decryption with its IV and expected tags. -/
def nibDecrypt (r : Session) (j : Job) (aad c iv : Bytes) : NibOut :=
  let k := j.keyMat
  let n := iv.take 12
  let t := tagLen r
  let want := slice iv 16 t
  match r.mode with
  | 1 => { out := ecbMode true k c }
  | 2 => { out := cbcDecrypt k (iv.take 16) c }
  | 3 => { out := ctrMode k (iv.take 16) c }
  | 4 =>
    let marks := if j.desc.ligature then ckptTags r j.desc k j.kL n aad c else []
    { out := ctrMode k (n ++ beBytes 4 2) c, tags := marks, good := some ((gcmTag k n aad c).take t == want && marks == (joinParts j.ckptGot).take marks.length) }
  | 6 => let q := Config.ccmOpen k n aad c t; { out := q.1, good := some (q.2.take t == want) }
  | 8 => { out := Config.xts true k j.desc.param c }
  | _ => let q := Config.chachaPoly true k n aad c; { out := q.1, good := some (q.2.take t == want) }

/-- The tag of a message in GMAC or CMAC mode. -/
def macTag (r : Session) (key n m : Bytes) : Bytes := (if r.mode = 5 then gcmTag key n m [] else Config.cmac key m).take (tagLen r)

/-- META of a generated MAC. -/
def macMeta (r : Session) (j : Job) (m : Bytes) : Bytes :=
  let t := macTag r j.keyMat j.nonce m
  if r.mode = 5 then metaWith j.nonce t else t

/-- The result of a Nib job from memory (07 R193, R199; 04 R108 for G1). -/
def nibCompute (r : Session) (j : Job) : NibOut :=
  let raw := joinParts j.inGot
  let b := spanZero r raw
  let d := j.desc
  let md := joinParts j.metaGot
  let ahead := d.gen = 1 ∧ ivAhead r
  match d.op with
  | 1 =>
    let o := nibEncrypt r j (b.take d.aadLen) (raw.drop d.aadLen)
    if ahead then { o with out := o.meta_ ++ o.out, meta_ := [] } else o
  | 2 => if ahead then nibDecrypt r j [] (raw.drop 16) (raw.take 16) else nibDecrypt r j (b.take d.aadLen) (raw.drop d.aadLen) md
  | 3 => { meta_ := macMeta r j b }
  | _ => if r.mode = 5 then { good := some (macTag r j.keyMat (md.take 12) b == slice md 16 (tagLen r)) }
         else { good := some (macTag r j.keyMat [] b == md.take (tagLen r)) }

/-! ### Slots, dummies and masks (07 R206 to R208, R210) -/

/-- What an issue cycle of a wide job, or a lane issue position of a narrow one, runs: a real slot by its number, or a dummy: random data
under a random key, on a discarded accumulator. -/
inductive IssueSlot where
  | real (n : Nat)
  | dummy

/-- The 256-bit seed of one nib of a pair, drawn at admission (07 R208). -/
def nibSeed (draw : Bytes) (second : Bool) : Bytes := slice draw (if second then 32 else 0) 32

/-- Position of the dummy slot in group `g`, which holds `len` real slots (07 R206). -/
def dummyPos (seed : Bytes) (g len : Nat) : Nat := Config.maskWord seed g % (len + 1)

/-- Real slots of group `g` of a job of `n` slots. -/
def groupLen (n g : Nat) : Nat := min 9 (n - 9 * g)

/-- What a wide job issues in its issue cycle `c` (07 R206). -/
def wideIssue (seed : Bytes) (n c : Nat) : IssueSlot :=
  let p := dummyPos seed (c / 10) (groupLen n (c / 10))
  if c % 10 = p then .dummy else .real (9 * (c / 10) + (if c % 10 < p then c % 10 else c % 10 - 1))

/-- The issue cycle of real slot `k` of a wide job. -/
def wideCycle (seed : Bytes) (n k : Nat) : Nat :=
  10 * (k / 9) + k % 9 + b2n (decide (dummyPos seed (k / 9) (groupLen n (k / 9)) ≤ k % 9))

/-- Real slots among the first `c` issue cycles of a wide job of `n` slots. -/
def realBefore (seed : Bytes) (n c : Nat) : Nat :=
  min n (9 * (c / 10) + c % 10 - b2n (decide (dummyPos seed (c / 10) (groupLen n (c / 10)) < c % 10)))

/-- The lane issue positions of a narrow job from position `i` on, with `left` real and `dummies` dummy blocks to come: each position
drawn (07 R207). -/
def narrowGo (fuel i k left dummies : Nat) (seed : Bytes) : List IssueSlot :=
  match fuel with
  | 0 => []
  | f + 1 =>
    if left + dummies = 0 then []
    else if Config.maskWord seed i % (left + dummies) < dummies then .dummy :: narrowGo f (i + 1) k left (dummies - 1) seed
    else .real k :: narrowGo f (i + 1) (k + 1) (left - 1) dummies seed

/-- The lane issue positions of a narrow job of `n` cycles of slots: n/8 real blocks and ⌊⌈n/9⌉/8⌋ dummy blocks (07 R207). -/
def narrowPlan (seed : Bytes) (n : Nat) : List IssueSlot := narrowGo (n / 8 + cdiv n 9 / 8) 0 0 (n / 8) (cdiv n 9 / 8) seed

/-- The lane issue position of real block `k` of a narrow job. -/
def narrowPos (seed : Bytes) (n k : Nat) : Nat :=
  ((narrowPlan seed n).findIdx? (fun x => match x with
    | .real i => i == k
    | .dummy => false)).getD 0

/-- NIB cycles from t_start to the first issue cycle of a lane: lane l issues in cycles whose count modulo 8 is l (07 R190, R207). -/
def laneWait (tStart lane : Nat) : Nat := (lane + 8 - (7 * tStart / 6) % 8) % 8

/-- The mask of a block: 128 bits on the state (07 R208). -/
def blockMask (seed : Bytes) (block : Nat) : BitVec 128 := BitVec.ofNat 128 (Config.maskWord seed (2 ^ 32 + 2 * block))

/-- The members of a list in the order that a number draws them. -/
def drawOrder (fuel k : Nat) (l : List Nat) : List Nat :=
  match fuel with
  | 0 => []
  | f + 1 => match l[k % l.length]? with
    | some x => x :: drawOrder f (k / l.length) (l.filter (· != x))
    | none => []

/-- The order in which a block's 16 S-box positions run (07 R208). -/
def sboxOrder (seed : Bytes) (block : Nat) : List Nat := drawOrder 16 (Config.maskWord seed (2 ^ 32 + 2 * block + 1)) (List.range 16)

/-- AAD blocks that take slots of their own, ahead of the data (07 Table 7-7). -/
def aadSlots (r : Session) (d : Desc) : Nat := if r.mode = 4 ∨ r.mode = 9 then cdiv d.aadLen 16 - 4 else 0

/-- NIB cycles from t_start in which data block `k` has been issued on both nibs of a pair (07 R206, R207). -/
def issuedBy (r : Session) (j : Job) (k : Nat) : Nat :=
  let n := (slotsOf r j).1
  match j.lane with
  | none => max (wideCycle (nibSeed j.draw false) n (aadSlots r j.desc + k)) (wideCycle (nibSeed j.draw true) n (aadSlots r j.desc + k)) + 1
  | some l => laneWait j.tStart l
      + 8 * (max (narrowPos (nibSeed j.draw false) n k) (narrowPos (nibSeed j.draw true) n k) + 1)

/-- The context of a wide job as it is saved after `run` SKEIN cycles of its engine time (07 R210): the slots issued, dummies among them,
the counter block and the accumulator behind the blocks done, the lengths and the checkpoint tags. -/
def savedCtx (r : Session) (j : Job) (c : NibCtx) (run : Nat) : NibCtx :=
  let d := j.desc
  let q := slotsOf r j
  let slots := min (q.1 + cdiv q.1 9) (7 * run / 6)
  let blocks := realBefore (nibSeed c.seeds false) q.1 slots - aadSlots r d
  let raw := joinParts j.inGot
  let n := if d.op = 1 ∨ d.op = 3 then j.nonce else (joinParts j.metaGot).take 12
  let text := (if d.op = 1 then (nibCompute r j).out else raw.drop d.aadLen).take (16 * blocks)
  let aad := spanZero r raw |>.take d.aadLen
  { c with run := run, slots := slots, blocks := blocks
           counter := match r.mode with
             | 3 => n ++ beBytes 4 (1 + blocks)
             | 4 => n ++ beBytes 4 (2 + blocks)
             | 9 => n ++ beBytes 4 (1 + blocks / 4)
             | _ => []
           acc := match r.mode with
             | 4 => beBytes 16 (ghash (blockVec (Config.aesEncrypt c.key (zeros 16))) (padBlocks aad ++ text)).toNat
             | 5 => beBytes 16 (ghash (blockVec (Config.aesEncrypt c.key (zeros 16))) ((spanZero r raw).take (16 * blocks))).toNat
             | 9 => Config.polyState c.key n (padBlocks aad ++ text)
             | _ => []
           aadLen := d.aadLen, dataLen := text.length
           ckpts := if d.ligature then min (ckptCount r d) (text.length / max 1 (ligatureL r.ligature)) else 0 }

/-! ### Quill -/

/-- The padding of Table 8-4 behind a message of `d` bytes. -/
def quillPad (r : Session) (d : Nat) : Bytes :=
  let b := quillB r.alg
  let n := nBlk r.alg d * b - d
  let len := 8 * (if r.mode = 1 then b + d else d)
  match r.alg with
  | 0x20 => padTo (n - 8) [0x80] ++ beBytes 8 len
  | 0x21 | 0x22 => padTo (n - 16) [0x80] ++ beBytes 16 len
  | _ =>
    let first : Byte := if r.alg = 0x23 ∨ r.alg = 0x24 then 0x06 else 0x1F
    if n = 1 then [first ||| 0x80] else padTo (n - 1) [first] ++ [0x80]

/-- The result over a message: HMAC is built from its inner and outer hash (08 R232, R233). -/
def quillResult (r : Session) (key message : Bytes) : Bytes :=
  if r.mode = 1 then (hmac r.alg key message).take (quillOut r) else padTo (quillOut r) (Config.digest r.alg message (quillOut r))

/-- A final job: the result over the declared length, or none where the padding differs (08 R231). -/
def quillFinal (r : Session) (key padded : Bytes) (len : Nat) : Option Bytes :=
  if padded.drop len = quillPad r len then some (quillResult r key (padded.take len)) else none

/-! ### Hook -/

/-- What a Hook job ends with: its slot result, its blob's secret, its verdict. -/
inductive HookEnd where
  | ok (slot : Bytes) (secret : Option Bytes)
  | verified (good : Bool)
  | failed (st : Status)

/-- a ^ e mod m. -/
def modPow (fuel a e m : Nat) : Nat :=
  match fuel with
  | 0 => 1 % m
  | f + 1 =>
    let h := modPow f (a * a % m) (e / 2) m
    if e % 2 = 1 then h * a % m else h

/-- The extended Euclidean algorithm: gcd and the coefficient of `a`. -/
def egcd (fuel : Nat) (r0 r1 s0 s1 : Int) : Int × Int :=
  match fuel with
  | 0 => (r0, s0)
  | f + 1 => if r1 = 0 then (r0, s0) else egcd f r1 (r0 - r0 / r1 * r1) s1 (s0 - r0 / r1 * s1)

def modInv (a m : Nat) : Nat := ((egcd (3 * (m.log2 + 2)) a m 1 0).2 % (m : Int)).toNat

/-- Coefficients of a polynomial: 256 of 2 bytes in class 8, of 4 bytes in class 9 (09, before R253). -/
def coeffs (cls : Nat) (b : Bytes) : List Nat := let w := if cls = 8 then 2 else 4; (List.range 256).map (fun i => fld b (w * i) w)
def polyBytes (cls : Nat) (p : List Nat) : Bytes := (p.map (leBytes (if cls = 8 then 2 else 4))).flatten
def polyQ (cls : Nat) : Nat := if cls = 8 then 3329 else 8380417

/-- An integer primitive (09 Table 9-3). -/
def intPrim (op a b m : Nat) : Option Nat :=
  if m % 2 = 0 ∨ m < 3 ∨ m ≤ a then none
  else match op with
    | 1 => if m ≤ b then none else some ((a + b) % m)
    | 2 => if m ≤ b then none else some ((a + m - b) % m)
    | 3 => if m ≤ b then none else some (a * b % m)
    | 4 => if a = 0 ∨ Nat.gcd a m ≠ 1 then none else some (modInv a m)
    | _ => some (modPow 4096 a b m)

/-- A polynomial primitive (09 Table 9-3). -/
def polyPrim (op cls : Nat) (acc : Bool) (a b d : List Nat) : Option (List Nat) :=
  let q := polyQ cls
  let ok := fun (p : List Nat) => p.all (fun c => decide (c < q))
  let two := op == 0x0A || op == 0x0B || op == 0x0C
  if !ok a || (two && !ok b) || (op == 0x0A && acc && !ok d) then none
  else match op with
    | 8 => some (Config.ntt cls false a)
    | 9 => some (Config.ntt cls true a)
    | 0x0A =>
      let p := coeffs cls ((Config.hookPrimitive cls op (polyBytes cls a ++ polyBytes cls b)).getD [])
      some (if acc then List.zipWith (fun x y => (x + y) % q) d p else p)
    | 0x0B => some (List.zipWith (fun x y => (x + y) % q) a b)
    | _ => some (List.zipWith (fun x y => (x + q - y) % q) a b)

/-- A primitive on the lease's contents. -/
def hookPrim (d : Desc) (m : Memory) : HookEnd :=
  let c := hClass d
  let w := classBytes c
  let rd := fun (slot : Nat) => Memory.readBytes m (512 * slot) w
  if hOp d ≤ 5 then
    (match intPrim (hOp d) (leNat (rd (hA d))) (leNat (rd (hB d))) (leNat (rd (hM d))) with
     | some v => .ok (leBytes w v) none
     | none => .failed .operandRange)
  else match polyPrim (hOp d) c (hVariant d) (coeffs c (rd (hA d))) (coeffs c (rd (hB d))) (coeffs c (rd (hD d))) with
    | some p => .ok (padTo w (polyBytes c p)) none
    | none => .failed .operandRange

/-- RSA_PUBLIC: n, e and x in three slots, big-endian (09 Tables 9-4, 9-5). -/
def rsaPublic (n : Nat) (m : Bytes) : HookEnd :=
  let md := beNat (slice m 0 n)
  let e := beNat (slice m 512 4)
  let x := beNat (slice m 1024 n)
  if md % 2 = 0 ∨ md < 2 ^ (8 * n - 1) ∨ e < 3 ∨ e % 2 = 0 ∨ md ≤ x then .failed .operandRange
  else .ok (beBytes n (modPow 32 x e md)) none

/-- The message length ML of an Ed25519 operation is over 1,024, or not 64 for Ed25519ph (09 R254). -/
def edLengthBad (d : Desc) (m : Bytes) : Bool :=
  let ml := fld m (if hOp d = 0x21 then 0 else 1024) 2
  decide (1024 < ml) || (hVariant d && ml != 64)

/-- The number that names an Ed25519 operation with its variant. -/
def opWithVariant (d : Desc) : Nat := hOp d + 256 * b2n (hVariant d)

/-- Field prime, coefficient b and order of a NIST curve, a being -3: the numbers of SP 800-186, which 09 R249
names and does not repeat (PRESUMED, log 138). -/
def curveP (alg : Nat) : Nat :=
  if alg = 0x31 then 2 ^ 256 - 2 ^ 224 + 2 ^ 192 + 2 ^ 96 - 1
  else if alg = 0x32 then 2 ^ 384 - 2 ^ 128 - 2 ^ 96 + 2 ^ 32 - 1 else 2 ^ 521 - 1

def curveB (alg : Nat) : Nat :=
  if alg = 0x31 then 0x5ac635d8aa3a93e7b3ebbd55769886bc651d06b0cc53b0f63bce3c3e27d2604b
  else if alg = 0x32 then
    0xb3312fa7e23ee7e4988e056be3f82d19181d9c6efe8141120314088f5013875ac656398d8a2ed19d2a85c8edd3ec2aef
  else 0x51953eb9618e1c9a1f929a21a0b68540eea2da725b99b315f3b8b489918ef109e156193951ec7e937b1652c0bd3bb1bf073573df883d2c34f1ef451fd46b503f00

def curveN (alg : Nat) : Nat :=
  if alg = 0x31 then 0xffffffff00000000ffffffffffffffffbce6faada7179e84f3b9cac2fc632551
  else if alg = 0x32 then
    0xffffffffffffffffffffffffffffffffffffffffffffffffc7634d81f4372ddf581a0db248b0a77aecec196accc52973
  else 2 ^ 521 - 2 ^ 260 + 0xa51868783bf2f966b7fcc0148f709a5d03bb5c9b8899c47aebb6fb71e91386409

/-- Field prime of edwards25519 and the order of its base point (RFC 8032). -/
def edP : Nat := 2 ^ 255 - 19
def edL : Nat := 2 ^ 252 + 27742317777372353535851937790883648493

/-- Q has x, y < p and lies on its curve; the point at infinity has no such encoding (09 Table 9-5). -/
def nistPointOk (alg : Nat) (q : Bytes) : Bool :=
  let p := curveP alg
  let x := beNat (slice q 0 (hookN alg))
  let y := beNat (slice q (hookN alg) (hookN alg))
  decide (x < p) && decide (y < p) && y * y % p == (x * x * x + (p - 3) * x + curveB alg) % p

/-- The modulus check of FIPS 203: every 12-bit coefficient of ek is below q (09 Table 9-5). -/
def ekOk (alg : Nat) (ek : Bytes) : Bool :=
  (List.range (128 * (if alg = 0x39 then 3 else 4))).all (fun i =>
    let v := fld ek (3 * i) 3
    decide (v % 4096 < 3329) && decide (v / 4096 % 4096 < 3329))

/-- The input checks of Table 9-5: what the operation ends with where one fails, those of a key before those of a signature, an order
that the table does not give (09 R255; DESIGN CHOICE, log 137). -/
def hookChecks (alg op : Nat) (key args : Bytes) : Option HookEnd :=
  let within := fun (v n : Nat) => decide (1 ≤ v) && decide (v < n)
  if op = 0x22 ∧ alg ≤ 0x33 then
    let r := beNat (slice args 1024 (hookN alg))
    let s := beNat (slice args (1024 + hookN alg) (hookN alg))
    if !nistPointOk alg args then some (.failed .pointInvalid)
    else if !(within r (curveN alg) && within s (curveN alg)) then some (.verified false) else none
  else if op = 0x22 ∧ alg = 0x34 then
    if !(decide (fld args 0 32 % 2 ^ 255 < edP) && Config.edPointOk (slice args 0 32)) then some (.failed .pointInvalid)
    else if edL ≤ fld args 544 32 then some (.verified false) else none
  else if op = 0x23 ∧ alg ≤ 0x33 then (if nistPointOk alg args then none else some (.failed .pointInvalid))
  else if op = 0x24 then (if ekOk alg args then none else some (.failed .pointInvalid))
  else if op = 0x26 then (if beNat (slice args 0 (hookN alg)) < Config.rsaModulus key then none else some (.failed .operandRange))
  else none

/-- A composite operation on the lease's contents (09 R254, R255, R258). -/
def hookComp (alg : Nat) (d : Desc) (key draw : Bytes) (m : Memory) : HookEnd :=
  let op := hOp d
  let args := Memory.readBytes m (512 * hA d) (512 * hookInSlots alg op)
  let n := hookSlotResult alg op
  if op = 0x27 then rsaPublic (hookN alg) args
  else if alg = 0x34 ∧ (op = 0x21 ∨ op = 0x22) ∧ edLengthBad d args then .failed .operandRange
  else match hookChecks alg op key args with
  | some x => x
  | none =>
    let b := Config.hookComposite alg (opWithVariant d) args key draw
    if Config.sampleExhausted alg op args key draw ∧ 0x39 ≤ alg then .failed .sampleExhausted
    else if op = 0x22 then .verified (Config.hookVerdict alg (opWithVariant d) args)
    else if op = 0x23 ∧ alg = 0x35 ∧ allZero (padTo 32 b) then .failed .pointInvalid
    else
        let sec := if op = 0x24 then slice b n 32 else padTo (if op = 0x23 then (if alg = 0x35 then 32 else hookN alg) else 32) b
        .ok (padTo n b) (if 0 < hookBlob alg op then some sec else none)

def hookCompute (r : Session) (j : Job) (m : Memory) : HookEnd :=
  if r.alg = 0x30 then hookPrim j.desc m else hookComp r.alg j.desc j.keyMat j.draw m

end Sys2Proof.Machine
end

