-- ==== Sys2Proof/Machine/Sched.lean ====
section
/-! DEFINITION. The life of a job in the job table (04 R115 to R124) and Needle's admission (05 R125 to R145). -/
namespace Sys2Proof.Machine

/-! ### The job table -/

def jobOf (s : State) (i : Nat) : Option Job := tget s.jobs i

/-- The job with a fetch number, and its index: responses name jobs by fetch number, since an index is used again. -/
def jobBySeq (s : State) (q : Nat) : Option (Nat × Job) := tfind s.jobs (fun _ j => j.seq == q)

def setJob (i : Nat) (f : Job → Job) (s : State) : State := { s with jobs := tmod s.jobs i f }

/-- The ring or channel number that chooses the fabric port of a job's own transfers (02 R39). -/
def jobRoute (j : Job) : Route :=
  match j.src with
  | .ring id _ => .by id
  | .stream n _ => .by n
  | .block _ => .lowest

/-- The stream ID of a job's transfers (02 R33). -/
def jobSid (s : State) (j : Job) : BitVec 16 := (tgetD s.ports j.port {}).sid

/-- The session as the job's context holds it, or as its handle names it. -/
def jobSession (s : State) (j : Job) : Option Session :=
  match j.sess with
  | some r => some r
  | none => sessionOf s j.port j.desc.handle

/-- Whether two jobs belong to one ring or one channel (04 R119). -/
def sameSource (a b : Job) : Bool :=
  match a.src, b.src with
  | .ring x _, .ring y _ => x == y
  | .stream x _, .stream y _ => x == y
  | _, _ => false

/-- Counts of a port in the current accounting epoch changed (05 R151). -/
def ledger (p : Nat) (f : LedgerCnt → LedgerCnt) (s : State) : State :=
  { s with ep := { s.ep with cur := { s.ep.cur with ports := tmodD s.ep.cur.ports p {} f } } }

def modPort (p : Nat) (f : CPort → CPort) (s : State) : State := { s with ports := tmod s.ports p f }

/-- The key material, seeds and draws of a job zeroed when its operation ends (07 R192; 08 R225; 09 R248). -/
def wipe (j : Job) : Job := { j with keyMat := [], kL := [], draw := [] }

/-- The job enters the merge queue (04 R119). -/
def toMerge (i : Nat) (s : State) : State :=
  { s with jobs := tmod s.jobs i (fun j => { wipe j with phase := .merge, mergedAt := s.clk.now }), merge := s.merge ++ [i] }

/-- Statuses whose output span is zero-filled before posting (03 Table 3-16; 08, 09). -/
def zeroFilled (st : Status) : Bool :=
  match st with
  | .accessFault | .policyRevoked | .tagMismatch | .poisoned | .unitFault | .pointInvalid | .computeMismatch
  | .padMismatch | .operandRange | .sampleExhausted => true
  | _ => false

/-- The spans to zero for a job: those of 04 R123, the tag-area entry of a TAG frame (11 R287); none where the output
list could not be read (04 R110). -/
def jobZeroSpans (s : State) (j : Job) : List (Nat × Nat) :=
  match j.src with
  | .stream n f =>
    let c := tgetD s.chans n {}
    if j.desc.op = 3 then [(c.tagBase + 32 * (f % 2 ^ c.tagLog2), 32)] else []
  | _ => if j.listFail && j.outList.isEmpty && decide (0 < j.desc.outSgl) then [] else zeroSpans ((jobSession s j).getD noSession) j

/-- The zero-fill is issued, or the job is merged when there is nothing to zero (04 R123). -/
def startZero (i : Nat) (s : State) : State :=
  match jobOf s i with
  | none => s
  | some j =>
    let reqs := ((jobZeroSpans s j).map (fun p => zeroReqs (jobSid s j) (jobRoute j) (.jobZero j.seq) p.1 p.2)).flatten
    if reqs.isEmpty then toMerge i s
    else issue reqs (setJob i (fun x => { x with phase := .scrub, zeroIssued := true, writesLeft := reqs.length }) s)

/-- Writes of the job not yet issued are cancelled (02 Table 2-4). -/
def cancelWrites (i : Nat) (s : State) : State :=
  match jobOf s i with
  | none => s
  | some j =>
    let mine := fun (r : Req) => r.owner == .jobOut j.seq
    { s with fab := { s.fab with waiting := s.fab.waiting.filter (fun r => !mine r) }
             jobs := tmod s.jobs i (fun x => { x with writesLeft := x.writesLeft - (s.fab.waiting.filter mine).length }) }

/-- The open message of a session dropped with its context. -/
def dropMessage (h : Nat) (s : State) : State := { s with eng := { s.eng with messages := tdel s.eng.messages h } }

/-- A message lost under 08 R227: counted on its quill. -/
def loseMessage (h : Nat) (s : State) : State :=
  match tget s.eng.messages h with
  | none => s
  | some m => dropMessage h { s with eng := { s.eng with units := tmod s.eng.units m.quill (fun u => { u with lost := satAdd 32 u.lost 1 }) } }

/-- The context of a Quill part, found by the job that opened its message: its key in the table. -/
def messageOf (s : State) (j : Job) : Option (Nat × Message) := tfind s.eng.messages (fun _ m => m.opened == j.msg)

/-- The spare pair that a retry ran on is a pair no longer (07 R214). -/
def releaseSpare (j : Job) (e : Engines) : Engines :=
  if (tgetD e.units j.unit { role := .retired }).role = .spare then modUnits (members e.units j.unit) (fun u => { u with partner := none }) e else e

/-- The context entries of a job zeroed (07 R192). -/
def dropCtx (q : Nat) (e : Engines) : Engines :=
  { e with units := tmap e.units (fun _ u => { u with ctx := u.ctx.filter (fun c => c.2.job != q) }) }

/-- Whether another URGENT job still stands before the suspended job of fetch number `q` (05 R138). -/
def moreUnder (i q : Nat) (s : State) : Bool :=
  s.jobs.any (fun e => e.1 != i && e.2.under == some q && e.2.counted && e.2.phase == .queued)

/-- A job that URGENT work suspended runs on: from entry 9, 24 NIB cycles after the URGENT work (01 R23, 07 R210); one that was not yet
suspended loses nothing but the time that it had been moved by. -/
def resumeJob (x : Nat) (b : Job) (moved : Nat) (s : State) : State :=
  let us := members s.eng.units b.unit
  let run := (((tget (unitOf s b.unit).ctx 9).map (·.run)).getD 0)
  let start := s.clk.now + cyNib 24 - run
  let e := modUnits us (fun u => { u with ctx := u.ctx.map (fun c => if c.1 = 9 then (0, c.2) else c) })
    (modUnit b.unit (fun u => { u with suspended := none, suspendEnd := none }) s.eng)
  setJob x (fun y => if y.phase = .suspended then { y with phase := .queued, tStart := start, idle := 0, tEnd := start + y.span }
    else { y with tEnd := y.tEnd - moved }) { s with eng := e }

/-- An URGENT job leaves its unit: with no other URGENT work before the suspended job, that job resumes (05 R138, 07 R210). -/
def resumeUnder (i : Nat) (j : Job) (s : State) : State :=
  match j.under with
  | none => s
  | some q => if moreUnder i q s then s else match jobBySeq s q with
    | some (x, b) => resumeJob x b (j.tEnd - j.tStart + cyNib 48) s
    | none => s

/-- A Quill job that is a part of a message with others: it is no one-shot message (08 R223). -/
def quillPart (r : Session) (d : Desc) : Bool := isQuill r.alg && !(qOpen d && d.final)

/-- The message of a Quill part that fails is lost: that of the admitted or held part, or the session's open message that a part not
admitted would have continued (08 R227). -/
def losePart (j : Job) (s : State) : State :=
  match jobSession s j with
  | some r =>
    if !quillPart r j.desc then s
    else if j.counted || j.phase == .held then (match messageOf s j with
      | some m => loseMessage m.1 s
      | none => s)
    else if qOpen j.desc then s
    else loseMessage j.desc.handle s
  | none => s

/-- What a job leaves on the engines when it ends with a failure: nothing stays suspended for it, its contexts are zeroed, and the
message of a Quill part is lost (07 R192, R211; 08 R227). -/
def leaveEngine (i : Nat) (j : Job) (s : State) : State :=
  let s1 := losePart j s
  if j.counted then
    let e := dropCtx j.seq (releaseSpare j s1.eng)
    resumeUnder i j { s1 with eng := { e with units := tmap e.units (fun _ u =>
      if u.suspended == some i then { u with suspended := none, suspendEnd := none } else u) } }
  else s1

/-- Checkpoint tags up to tag `n` issued, in order, to the checkpoint area (07 R203). -/
def issueTags (i n : Nat) (s : State) : State :=
  match jobOf s i with
  | none => s
  | some j =>
    if n ≤ j.ckpts then s
    else
      let reqs := writeReqs (jobSid s j) false (jobRoute j) (.jobOut j.seq) (j.desc.ckptAddr + 16 * j.ckpts) (slice j.result (16 * j.ckpts) (16 * (n - j.ckpts)))
      issue reqs (setJob i (fun x => { x with ckpts := n, writesLeft := x.writesLeft + reqs.length }) s)

/-- Whether a write of the job's first `n` output bytes is not yet acknowledged. -/
def outPending (s : State) (r : Session) (j : Job) (n : Nat) : Bool :=
  let span := takeSpan (outSpans r j) n
  let mine := fun (q : Req) => q.owner == .jobOut j.seq && span.any (fun e => overlaps q.addr q.len e.1 e.2)
  s.fab.waiting.any mine || s.fab.ports.any (fun p => p.2.txns.any (fun t => mine t.req))

/-- Tags that may go out: the blocks below the tag are compared and written, and every output byte below i × L is acknowledged (07
R203). -/
def tagsDue (s : State) (j : Job) : Nat :=
  match j.sess with
  | none => 0
  | some r =>
    let k := if j.desc.op = 1 ∧ j.status = .ok ∧ (j.phase = .queued ∨ j.phase = .writing) then ckptCount r j.desc else 0
    let made := if j.phase = .writing then k else min k (4096 * j.chunks / ligatureL r.ligature)
    ((List.range made).takeWhile (fun i => !outPending s r j ((i + 1) * ligatureL r.ligature))).length

/-- The tags of a job that are due now. -/
def issueDue (i : Nat) (s : State) : State :=
  match jobOf s i with
  | some j => issueTags i (tagsDue s j) s
  | none => s

/-- A job ends with a failure: its unissued writes are cancelled, and once the issued ones are acknowledged its whole
output span is zero-filled (04 R123, 01 R20); a status that leaves the output untouched merges it at once. -/
def failJob (i : Nat) (st : Status) (verdict : Nat) (s : State) : State :=
  let s0 := cancelWrites i (setJob i (fun x => { x with status := st, verdict := verdict, bytes := 0 }) s)
  match jobOf s i with
  | none => s
  | some j0 =>
    let s1 := leaveEngine i j0 s0
    let j := (jobOf s1 i).getD j0
    if j.phase = .merge ∨ j.phase = .posted ∨ j.phase = .scrub then s
    else if zeroFilled st then
      (if j.writesLeft = 0 then startZero i s1 else setJob i (fun x => { wipe x with phase := .scrub, zeroIssued := false }) s1)
    else if j.writesLeft = 0 then toMerge i s1
    else setJob i (fun x => { wipe x with phase := .writing }) s1

/-- Bucket levels are held in units of 1 / 1,500,000,000 of a byte or operation. -/
def bucketUnit : Nat := 1500000000

/-- A charge given back (05 R135). -/
def credit (p : CPort) (c : Nat × Nat) : CPort :=
  { p with lvlBytes := if p.bytesPerS = 0 then p.lvlBytes else p.lvlBytes + ((c.1 * bucketUnit : Nat) : Int)
           lvlHook := if p.hookPerS = 0 then p.lvlHook else p.lvlHook + ((c.2 * bucketUnit : Nat) : Int) }

/-- A refused job: its status is recorded, its port's refusal counts move, and it is merged (05 R134; Table 5-3); a held
job's debit is credited back (R135). -/
def refuseJob (i : Nat) (st : Status) (s : State) : State :=
  match jobOf s i with
  | none => s
  | some j =>
    let s1 := ledger j.port (fun c => { c with refused := c.refused + 1 })
      (modPort j.port (fun q => let p := if j.phase = .held then credit q (j.chargeBytes, j.chargeHook) else q; { p with
        refDeadline := if st = .deadlineMissed then satAdd 16 p.refDeadline 1 else p.refDeadline
        refQuota := if st = .quotaExceeded then satAdd 16 p.refQuota 1 else p.refQuota
        refWindow := if st = .windowShort then satAdd 16 p.refWindow 1 else p.refWindow }) s)
    failJob i st 0 s1

/-! ### Cost and placement -/

/-- L of 05 R128 in SKEIN cycles. -/
def memL (s : State) : Nat := cyNs (if 100 ≤ s.regs.latNs ∧ s.regs.latNs ≤ 4000 then s.regs.latNs else 4000) + 2

/-- The fabric port of a job (02 R39). -/
def jobPort (s : State) (j : Job) : Option FabPort :=
  (choosePort (fabEnv s) s.fab.ports (jobRoute j)).map (fun n => tgetD s.fab.ports n {})

/-- The rate measured for the job's port (05 R129); full rate where none was measured. -/
def jobRate (s : State) (j : Job) : Nat × Nat := ((jobPort s j).bind (·.rate)).getD fullRate

/-- The measured rate is 0: no job that uses the port is admitted (05 R129). -/
def jobRateZero (s : State) (j : Job) : Bool := (jobRate s j).1 == 0

/-- A job put in its place among others, in order of their start (05 R130). -/
def insertByStart (x : Nat × Job) (l : List (Nat × Job)) : List (Nat × Job) :=
  match l with
  | [] => [x]
  | y :: r => if x.2.tStart < y.2.tStart ∨ (x.2.tStart = y.2.tStart ∧ x.2.seq < y.2.seq) then x :: y :: r
      else y :: insertByStart x r

/-- How a job is moved by an URGENT job that passes it: its index, the cycles by which its prediction moves and those by which its time
on the unit does, and whether it has started (05 R137). -/
structure Move where
  job : Nat
  pred : Nat
  time : Nat
  started : Bool

/-- A position that Needle found: unit, lane, start, the job that it suspends with the URGENT work already standing before that job (its
fetch number and, where it is to be suspended by this job, its index), the jobs that it moves, and the lease zeroings. -/
structure Place where
  unit : Nat
  lane : Option Nat
  start : Nat
  susp : Option Nat := none
  under : Option Nat := none
  moved : List Move := []
  clears : List (Nat × Nat) := []

/-- The least of a list by a key, the first on a tie. -/
def leastBy {α : Type} (f : α → Nat) (l : List α) : Option α :=
  l.foldl (fun a x => match a with
    | none => some x
    | some y => if f x < f y then some x else some y) none

/-- The unit that takes the place of a withdrawn quill or hook (13 R335). -/
def effUnit (s : State) (u : Nat) : Nat :=
  if unitKind u = 0 then u
  else match (unitOf s u).copying, (unitOf s u).drain with
    | some r, _ => r
    | none, some d => d.replacement.getD u
    | none, none => u

/-- Contexts on a quill, those still to be copied to it included; the message of the session `h` apart (08 R224, R226). -/
def ctxOn (s : State) (q h : Nat) : Nat := tcount s.eng.messages (fun _ m => effUnit s m.quill == q && m.handle != h)

/-- Contexts that lie on a quill. -/
def ctxCount (s : State) (q : Nat) : Nat := tcount s.eng.messages (fun _ m => m.quill == q)

/-- The lease that an admitted job works on: its windows keep their place until the lease ends. -/
def leaseAt (s : State) (wid : Nat) : Option (Nat × Lease) := (tget s.eng.leases (wid % 512)).map (fun l => (wid % 512, l))

/-- The units and lanes that a job of a session may take (05 R131, 07 R191, 08 R224, 09 R244). An OPEN job whose session has an open
message discards it, so that its context is free (08 R223). -/
def candidates (s : State) (r : Session) (j : Job) : List (Nat × Option Nat) :=
  let k := kindOf r.alg
  if k = 0 then
    (placeable s 0).flatMap (fun u => if isNarrow r j.desc.op then (List.range 8).map (fun l => (u, some l)) else [(u, none)])
  else if k = 1 then
    (if qOpen j.desc then
       ((placeable s 1).filter (fun u => j.desc.final || decide (ctxOn s (effUnit s u) j.desc.handle < 64))).map (fun u => (effUnit s u, none))
     else match (if j.phase = .held then (messageOf s j).map (·.2) else tget s.eng.messages j.desc.handle) with
       | some m => [(effUnit s m.quill, none)]
       | none => (placeable s 1).map (fun u => (effUnit s u, none)))
  else if k = 2 then
    (match leaseAt s j.desc.aux with
     | some (_, l) => if inService (unitOf s l.hook) || (unitOf s l.hook).copying.isSome then [(effUnit s l.hook, none)] else []
     | none => [])
  else [(0x300, none)]

/-- No unit of the job's kind will serve again: all are RETIRED or ISOLATED, or for a Hook job the hook that holds its lease is (05 R131,
09 R245). -/
def noUnit (s : State) (r : Session) (j : Job) : Bool :=
  let k := kindOf r.alg
  k != 3 && (noneLeft s k || (k == 2 && (match leaseAt s j.desc.aux with
    | some (_, l) => let u := unitOf s l.hook; (u.role == .retired || u.role == .isolated) && u.copying.isNone
    | none => false)))

/-- Whether jobs at two places share issue cycles: one unit, and one lane or the whole pipeline (07 R191). -/
def sharesUnit (a : Nat × Option Nat) (b : Job) : Bool := b.unit == a.1 && (a.2.isNone || b.lane.isNone || b.lane == a.2)

/-- Jobs admitted on a unit or lane and not ended, in order of their start (05 R130). -/
def unitQueue (s : State) (u : Nat) (lane : Option Nat) : List (Nat × Job) :=
  (s.jobs.filter (fun e => onUnit e.2 && sharesUnit (u, lane) e.2)).foldl (fun a e => insertByStart e a) []

/-- The latest t_end of the jobs queued on a unit, or on one lane of it (05 R130, 07 R191). -/
def queuedEnd (s : State) (c : Nat × Option Nat) : Nat :=
  s.jobs.foldl (fun a e => if onUnit e.2 && sharesUnit c e.2 then max a e.2.tEnd else a) 0

/-- The end of the zeroings queued on a hook (09 R262). -/
def clearEnd (s : State) (c : Nat) : Nat :=
  s.eng.leases.foldl (fun a l => if l.2.hook = c then max a ((l.2.zeroing.map (·.1)).getD 0) else a) 0

/-- What is booked on a unit beside jobs: switches, copies and the block's own work. -/
def bookedEnd (s : State) (c : Nat) : Nat := if c = 0x300 then (tgetD s.rng.feeds 6 {}).freeAt else (unitOf s c).freeAt

/-- free(u) of 05 R130, not before now: a unit with nothing queued and nothing booked is free at once. -/
def candFree (s : State) (c : Nat × Option Nat) : Nat :=
  max s.clk.now (max (queuedEnd s c) (max (clearEnd s c.1) (bookedEnd s c.1)))

/-- Whether a job still meets its bound after being moved by `d` cycles (05 R137). -/
def stillMeets (j : Job) (d : Nat) : Bool := j.bound == 0 || decide (j.predicted + d ≤ j.bound)

/-- The job that URGENT work has suspended, or is admitted to suspend, on a unit (05 R138). -/
def suspendedOn (s : State) (c : Nat) : Option (Nat × Job) :=
  match (unitOf s c).suspended with
  | some x => (jobOf s x).map (fun b => (x, b))
  | none => none

/-- The first position, among those before each BULK job not started, that moves no job past its bound (05 R137): its start, what it
passes, and the end of what stands before it. -/
def urgentSlot (ready e prevEnd : Nat) (q : List (Nat × Job)) : Nat × List (Nat × Job) :=
  match q with
  | [] => (max ready prevEnd, [])
  | x :: r => if (x :: r).all (fun y => stillMeets y.2 e) then (max ready prevEnd, x :: r)
      else urgentSlot ready e (max prevEnd x.2.tEnd) r

/-- The delay on the unit of the jobs passed: the URGENT job's engine time, and what the first of them would start earlier than it ends
(log 126). -/
def passDelay (start e : Nat) (q : List (Nat × Job)) : Nat :=
  match q.find? (fun x => !x.2.begun) with
  | some x => max e (start + e - x.2.tStart)
  | none => e

/-- The BULK jobs of a unit, other lanes included, that follow a wide job which is passed: a pair runs wide or narrow jobs, never both
(07 R191). -/
def followers (s : State) (c : Nat) (q : List (Nat × Job)) : List (Nat × Job) :=
  match q.find? (fun x => x.2.lane.isNone) with
  | some w => (unitQueue s c none).filter (fun x => decide (w.2.tStart ≤ x.2.tStart) && !x.2.begun && !x.2.urgent && !q.any (fun y => y.1 == x.1))
  | none => []

/-- The message that a Quill part belongs to: the fetch number of the job that opened it. -/
def messageNo (s : State) (j : Job) : Nat :=
  if qOpen j.desc then j.seq else ((tget s.eng.messages j.desc.handle).map (·.opened)).getD j.seq

/-- An URGENT job's earliest position on one unit (05 R137, R138; 07 R211; 08 R223; 09 R244, R262). -/
def urgentPlace (s : State) (r : Session) (j : Job) (c0 : Nat × Option Nat) (ready e : Nat) : Place :=
  let held := suspendedOn s c0.1
  let c := if held.isSome && c0.2.isSome then (c0.1, some 0) else c0
  let q0 := unitQueue s c.1 c.2
  let booked := bookedEnd s c.1
  let fixed := fun (x : Nat × Job) => x.2.urgent || (x.2.begun && !(held.map (·.1) == some x.1)) || decide (x.2.tStart < booked)
    || (isHook r.alg && x.2.desc.aux % 512 == j.desc.aux % 512)
    || (isQuill r.alg && !qOpen j.desc && x.2.msg == messageNo s j)
  let q : List (Nat × Job) := match held with
    | some b => q0.filter (fun x => x.2.under == some b.2.seq) ++ b :: q0.filter (fun x => !(x.2.under == some b.2.seq) && x.1 != b.1)
    | none => q0
  let tail : List (Nat × Job) := (q.reverse.takeWhile (fun x => !fixed x)).reverse
  let ahead := q.take (q.length - tail.length)
  let mine := fun (l : Nat × Lease) => isHook r.alg && l.1 == j.desc.aux % 512
  let clears : List (Nat × Lease) := s.eng.leases.filter (fun l => l.2.hook == c.1 && l.2.zeroing.isSome)
  let clearStop := fun (l : Nat × Lease) => (l.2.zeroing.map (·.1)).getD 0
  let clearFixed := fun (l : Nat × Lease) => mine l || decide (clearStop l ≤ s.clk.now + cyHook (32 * l.2.windows.length))
  let prevEnd := clears.foldl (fun a l => if clearFixed l then max a (clearStop l) else a)
    (ahead.foldl (fun a x => max a x.2.tEnd) (max s.clk.now booked))
  let p := urgentSlot ready e prevEnd tail
  let all := p.2 ++ followers s c.1 p.2
  let wait : Place := { unit := c.1, lane := c.2, start := p.1
                        under := match held with
                          | some b => if p.2.any (fun x => x.1 == b.1) then some b.2.seq else none
                          | none => none
                        moved := let d := passDelay p.1 e p.2; all.map (fun x => { job := x.1, pred := e, time := d, started := x.2.begun })
                        clears := (clears.filter (fun l => !clearFixed l && decide (p.1 < clearStop l))).map (fun l => (l.1, e)) }
  match q.find? (fun x => x.2.begun && !x.2.urgent && x.2.lane.isNone && x.2.phase == .queued) with
  | some x =>
    let start := max ready (s.clk.now + cyNib 24)
    let behind := (unitQueue s c.1 none).filter (fun y => y.1 != x.1 && !y.2.begun)
    if isNib r.alg && held.isNone && !q.any (fun y => y.2.urgent) && stillMeets x.2 (e + cyNib 48) && behind.all (fun y => stillMeets y.2 e)
        && decide (booked ≤ start) && decide (start < wait.start) then
      { unit := c.1, lane := if c.2.isSome then some 0 else none, start := start, susp := some x.1, under := some x.2.seq
        moved := { job := x.1, pred := e + cyNib 48, time := e + cyNib 48, started := true }
          :: behind.map (fun y => { job := y.1, pred := e, time := e + cyNib 48, started := false }) }
    else wait
  | none => wait

/-- Whether a job reads anything from memory before it can start (04 Table 4-7). -/
def readsMemory (r : Session) (d : Desc) : Bool := !(isRandom r.alg || (isHook r.alg && !hLoad d))

/-- l_in of 05 R130: L for input from memory, 0 for a stream frame; 0 also for a job that reads no input, which the rule does not name
(DESIGN CHOICE, log 124). The first user of a spilled key slot waits L more for its record (06 R169). -/
def lIn (s : State) (r : Session) (j : Job) : Nat :=
  (match j.src with
   | .stream _ _ => 0
   | _ => if readsMemory r j.desc then memL s else 0)
  + (if r.key ≠ 0 ∧ (keyOf s r.key).spilled then memL s else 0)

/-- Whether the job writes output or META (05 R130 l_out). -/
def hasOutput (j : Job) : Bool := writesOut j.desc || writesMeta j.desc || (match j.src with
    | .stream _ _ => j.desc.op == 3
    | _ => false)

/-- The prediction of the job before `j` in its ring or channel (05 R130). -/
def prevPredicted (s : State) (j : Job) : Nat :=
  s.jobs.foldl (fun a e => if sameSource e.2 j && decide (e.2.seq < j.seq) then max a e.2.predicted else a) 0

/-- t_end and p(j) of a position (05 R130). -/
def predict (s : State) (r : Session) (j : Job) (p : Place) : Nat × Nat :=
  let e := engineCycles r j ((unitOf s p.unit).role == .inverse) (jobRate s j)
  let tEnd := p.start + e
  let out := if hasOutput j then memL s else 0
  (tEnd, max (tEnd + out + memL s) (prevPredicted s j))

/-- place(j, t) of 05 R134, with t the instant from which the job may start its reads: a BULK job on the unit whose free(u) is earliest, an
URGENT job at the position that gives it the earliest p (R131, R137). -/
def place (s : State) (r : Session) (j : Job) (t : Nat) : Option Place :=
  let cs := candidates s r j
  let ready := t + lIn s r j
  if j.urgent then
    let e := fun (c : Nat × Option Nat) => engineCycles r j ((unitOf s c.1).role == .inverse) (jobRate s j)
    leastBy (fun p => (predict s r j p).2) (cs.map (fun c => urgentPlace s r j c ready (e c)))
  else (leastBy (candFree s) cs).map (fun c => { unit := c.1, lane := c.2, start := max ready (candFree s c) })

/-! ### Gauge (05 R143 to R145) -/

def depthBytes (p : CPort) : Nat := if p.burstKib = 0 ∨ p.bytesPerS = 0 then cdiv p.bytesPerS 100 else p.burstKib * 1024
def depthHook (p : CPort) : Nat := max 1 (p.hookPerS / 100)

/-- A level after `dt` cycles at a rate, up to the depth. -/
def levelAfter (lvl : Int) (rate depth dt : Nat) : Int := min ((depth * bucketUnit : Nat) : Int) (lvl + ((rate * dt : Nat) : Int))

/-- Both buckets brought to `now`. -/
def bucketsAt (now : Nat) (p : CPort) : CPort :=
  { p with lvlBytes := if p.bytesPerS = 0 then p.lvlBytes else levelAfter p.lvlBytes p.bytesPerS (depthBytes p) (now - p.lvlAt)
           lvlHook := if p.hookPerS = 0 then p.lvlHook else levelAfter p.lvlHook p.hookPerS (depthHook p) (now - p.lvlAt)
           lvlAt := now }

/-- Cycles until a level reaches a charge. -/
def tokenWait (lvl : Int) (rate charge : Nat) : Nat :=
  let need : Int := ((charge * bucketUnit : Nat) : Int) - lvl
  if rate = 0 ∨ need ≤ 0 then 0 else cdiv need.toNat rate

/-- The held jobs of a port that were fetched ahead of a job (05 R126). -/
def heldAhead (s : State) (j : Job) : List Job :=
  (s.jobs.filter (fun e => e.2.phase == .held && e.2.port == j.port && decide (e.2.seq < j.seq))).map (·.2)

/-- t_tok of a charge (05 R144), no earlier than that of a held job of the port fetched ahead (05 R126). -/
def tokenTime (s : State) (j : Job) (p : CPort) (c : Nat × Nat) : Nat :=
  let own := s.clk.now + max (tokenWait p.lvlBytes p.bytesPerS c.1) (tokenWait p.lvlHook p.hookPerS c.2)
  (heldAhead s j).foldl (fun a h => max a h.tTok) own

def debit (p : CPort) (c : Nat × Nat) : CPort :=
  { p with lvlBytes := if p.bytesPerS = 0 then p.lvlBytes else p.lvlBytes - ((c.1 * bucketUnit : Nat) : Int)
           lvlHook := if p.hookPerS = 0 then p.lvlHook else p.lvlHook - ((c.2 * bucketUnit : Nat) : Int) }

/-! ### Counters (06 R181 to R183, 07 R197, R198) -/

/-- Whether a job consumes a counter value (07 R197, 11 R287). -/
def takesCounter (r : Session) (d : Desc) : Bool :=
  isNib r.alg && r.policy != 2 && ((usesIv r && d.op == 1) || (r.alg == 0x10 && r.mode == 5 && d.op == 3))

def nonceOf (r : Session) (c : Nat) : Bytes := beBytes 4 r.salt ++ beBytes 8 c

def modSession (ix : Nat) (f : Session → Session) (s : State) : State :=
  { s with keys := { s.keys with sessions := tmod s.keys.sessions ix f } }

/-- The ceiling is raised by 2^20 with one record write, not beyond the limit (06 R181). -/
def raiseCeiling (ix : Nat) (s : State) : State :=
  match tget s.keys.sessions ix with
  | none => s
  | some r =>
    if r.raising ∨ r.limit ≤ r.ceiling then s
    else
      let c := min (r.ceiling + 2 ^ 20) r.limit
      writeSession (.ceiling ix c) ix c (modSession ix (fun x => { x with raising := true }) s)

/-- A counter value is assigned and the reservation topped up when fewer than 2^19 values remain (06 R181). -/
def takeCounter (ix : Nat) (s : State) : State :=
  let s1 := modSession ix (fun x => { x with next := x.next + 1 }) s
  match tget s1.keys.sessions ix with
  | none => s1
  | some r => if r.ceiling - r.next < 2 ^ 19 then raiseCeiling ix s1 else s1

/-! ### Feed (10 R275, R278) -/

def feedReady (s : State) (i : Nat) : Bool := (tgetD s.rng.feeds i {}).state == .ready

/-- Whether the draw of a job can be served (10 R278). -/
def feedOk (s : State) (r : Session) : Bool :=
  if isNib r.alg then (List.range 6).any (feedReady s)
  else if isHook r.alg then feedReady s 7
  else if isRandom r.alg then feedReady s 6 else true

/-- The request counted on the instance that serves it: FEED_0 to FEED_5 in rotation, FEED_7, FEED_6 (10 R275). -/
def drawFrom (s : State) (r : Session) : State :=
  let i := if isHook r.alg then 7 else if isRandom r.alg then 6
    else (((List.range 6).map (fun k => (s.rng.rotor + k) % 6)).find? (feedReady s)).getD 0
  if isQuill r.alg then s
  else { s with rng := { s.rng with
    feeds := tmod s.rng.feeds i (fun f => { f with requests := f.requests + 1 })
    rotor := if isNib r.alg then (i + 1) % 6 else s.rng.rotor } }

/-! ### state_check and admission (05 R134) -/

/-- A Quill part with the A_abs that it continues (08 R223): bytes that the parts admitted or held before it cover. -/
def withAbs (s : State) (r : Session) (j : Job) : Job :=
  if isQuill r.alg ∧ !qOpen j.desc ∧ j.phase ≠ .held then
    { j with aAbs := ((tget s.eng.messages j.desc.handle).map (·.aAbs)).getD 0 }
  else j

/-- The Quill message checks (08 R223, R224, R229). A message whose final part is admitted and has not ended still counts among the 64 of
its port (DESIGN CHOICE, log 127). -/
def quillCheck (s : State) (r : Session) (j : Job) : Status :=
  let d := j.desc
  let msg := tget s.eng.messages d.handle
  if !qOpen d && msg.isNone then .contextLost
  else if !qOpen d && (if d.final then decide (qLength d < j.aAbs) else decide (qLength d ≤ j.aAbs)) then .invalidField
  else if d.inLen < qBlocks r d j.aAbs * quillB r.alg then .invalidField
  else if qOpen d && !d.final
      && (decide (64 ≤ tcount s.eng.messages (fun _ m => m.port == j.port && m.handle != d.handle)) || (candidates s r j).isEmpty) then .quotaExceeded
  else .ok

/-- The conditions of state_check that come after the message checks: the counter limit and the Feed draw (05 R134). -/
def drawCheck (s : State) (r : Session) (j : Job) : Status :=
  if takesCounter r j.desc && decide (r.limit ≤ r.next) then .nonceExhausted
  else if !feedOk s r then .rngUnavailable
  else if isRandom r.alg && (let f := tgetD s.rng.feeds 6 {}
      !f.reserve && decide (f.nextReseed < candFree s (0x300, none) + engineCycles r j false fullRate)) then .rngUnavailable
  else .ok

/-- state_check of 05 R134. -/
def stateCheck (s : State) (r : Session) (j : Job) : Status :=
  let q := if isQuill r.alg then quillCheck s r j else .ok
  if q ≠ .ok then q else drawCheck s r j

/-- Links before a job in its chain, not yet admitted, that take counter values of the same session (05 R136). -/
def counterAhead (s : State) (j : Job) : Nat :=
  match j.chainHead, sessionOf s j.port j.desc.handle with
  | some h, some r => tcount s.jobs (fun _ x => x.chainHead == some h && decide (x.link < j.link) && x.phase == .checked
      && x.desc.handle == j.desc.handle && takesCounter r x.desc)
  | _, _ => 0

/-- The counter value of a job lies beyond the ceiling, and not beyond the limit (06 R181). -/
def beyondCeiling (s : State) (r : Session) (j : Job) : Bool :=
  takesCounter r j.desc && (let n := r.next + counterAhead s j; decide (r.ceiling ≤ n) && decide (n < r.limit))

/-- Conditions under which the evaluation waits (05 R129, R131, R136; 06 R181; 04 R114 step 0). -/
def mustWait (s : State) (r : Session) (j : Job) : Bool :=
  !r.cached || jobRateZero s j || beyondCeiling s r j
    || (let k := kindOf r.alg
        k != 3 && !noUnit s r j && ((placeable s k).isEmpty || (k == 2 && (candidates s r j).isEmpty)))

/-- The gateway time in ns (11 R300). -/
def gNs (s : State) : Nat := s.tim.g / 3000000

/-- The close of the window assigned at evaluation, in ns of gateway time (05 R140, R141). -/
def windowClose (w : Window) (g : Nat) : Nat :=
  let base := w.phaseS * 1000000000 + w.openNs
  if g < base then base + w.lenNs
  else
    let k := (g - base) / w.cycleNs
    if (g - base) % w.cycleNs < w.lenNs then base + k * w.cycleNs + w.lenNs else base + (k + 1) * w.cycleNs + w.lenNs

/-- The windows that a stream job's frame took at its STM_SOF, if it has any, and its channel (05 R140). -/
def windowed (s : State) (j : Job) : Option (Window × Chan) :=
  match j.src with
  | .stream n f =>
    let c := tgetD s.chans n {}
    match c.frames.find? (fun x => x.number == f) with
    | some x => if x.win.lenNs = 0 then none else some (x.win, c)
    | none => none
  | _ => none

/-- The last SKEIN cycle at or before the close of the assigned window; gateway time has 3,000,000 units in a ns and gains 2,000,000 in a
cycle (05 R141, 11 R300). -/
def closeCycle (s : State) (w : Window) : Nat := s.clk.now + (windowClose w (gNs s) * 3000000 - s.tim.g) / 2000000

/-- window_fit of 05 R141: p is at or before the close of the assigned window. -/
def windowFit (s : State) (w : Window) (p : Nat) : Bool :=
  decide (s.tim.g + (p - s.clk.now) * 2000000 ≤ windowClose w (gNs s) * 3000000)

/-- frame_longer_than_window of 05 R141; a cycle is 2/3 ns. -/
def frameTooLong (s : State) (r : Session) (j : Job) (w : Window) : Bool :=
  let e := engineCycles r j false (jobRate s j)
  decide (3 * w.lenNs < 2 * (e + (if hasOutput j then memL s else 0) + memL s))

/-- The reads that a job's input, META and checkpoints take (04 Table 4-7). -/
def inputReqs (s : State) (r : Session) (q : Nat) (j : Job) : List Req :=
  let d := j.desc
  let sid := jobSid s j
  let route := jobRoute j
  let want := if isQuill r.alg then qBlocks r d j.aAbs * quillB r.alg else inBytes r d
  let go := fun (acc : Nat × List Req) (e : Nat × Nat) =>
    (acc.1 + e.2, acc.2 ++ readReqs sid false route (fun o => .jobIn q .input (acc.1 + o)) e.1 e.2)
  let ins := if d.op = 0x30 ∨ (d.op = 0x20 ∧ !hLoad d) then [] else ((takeSpan (inSpans r j) want).foldl go (0, [])).2
  let m := metaRead r d
  let sl := keyOf s r.key
  let ext := match sl.ext with
    | some x => if r.key ≠ 0 ∧ needsKey r d then
        readReqs s.keys.selfSid true .lowest (fun _ => .ext (handleSlot r.key) (some q)) (s.keys.carveBase + extOff x) 2048 else []
    | none => []
  ext ++ ins ++ (if m = 0 then [] else readReqs sid false route (fun o => .jobIn q .metaIn o) d.metaAddr m)
    ++ (if d.op = 2 ∧ d.ligature then readReqs sid false route (fun o => .jobIn q .ckptIn o) d.ckptAddr (16 * ckptCount r d)
        else [])

/-- The reads of an admitted job are issued (05 R130, 09 R252). -/
def issueInputs (i : Nat) (s : State) : State :=
  match jobOf s i with
  | none => s
  | some j =>
    match j.src, j.sess with
    | .stream _ _, _ => s
    | _, none => s
    | _, some r =>
      let reqs := inputReqs s r j.seq j
      issue reqs (setJob i (fun x => { x with readsLeft := reqs.length }) s)

/-- Moved jobs keep their order; one that has started ends later (05 R132, R137). -/
def moveJobs (m : List Move) (t : Tbl Job) : Tbl Job :=
  tmap t (fun i j => match m.find? (fun x => x.job == i) with
    | some x => { j with tStart := if x.started then j.tStart else j.tStart + x.time, tEnd := j.tEnd + x.time, predicted := j.predicted + x.pred }
    | none => j)

/-- Lease zeroings moved by an URGENT job that passes them (05 R137, 09 R262). -/
def moveClears (m : List (Nat × Nat)) (t : Tbl Lease) : Tbl Lease :=
  tmap t (fun i l => match m.find? (fun x => x.1 == i), l.zeroing with
    | some x, some z => { l with zeroing := some (z.1 + x.2, z.2) }
    | _, _ => l)

/-- The message of a Quill part when it is admitted or held: OPEN discards an open message and allocates a context unless the part is
final; a later part moves A_abs, and the final one closes the message, whose context stands apart until the part ends (08 R223, R225).
A part held for tokens counts as admitted here, so that the parts behind it are judged with it (DESIGN CHOICE, log 128). -/
def quillCommit (j : Job) (unit cfg : Nat) (e : Engines) : Engines :=
  let h := j.desc.handle
  let old := tget e.messages h
  if qOpen j.desc then
    if j.desc.final then e
    else
      let cleared : Engines := match old with
        | some m => { e with messages := tdel e.messages h
                             units := tmod e.units m.quill (fun u => { u with discarded := satAdd 32 u.discarded 1 }) }
        | none => e
      let m : Message := { handle := h, opened := j.seq, quill := unit, port := j.port, aAbs := qLength j.desc, absorbed := [], configGen := cfg }
      { cleared with messages := tput cleared.messages h m }
  else match old with
    | none => e
    | some m =>
      let moved : Message := { m with aAbs := qLength j.desc }
      if j.desc.final then { e with messages := tput (tdel e.messages h) (2 ^ 32 + m.opened) moved }
      else { e with messages := tput e.messages h moved }

/-- The message state after the admission or the hold of a Quill part. -/
def takePart (r : Session) (j : Job) (unit : Nat) (s : State) : State :=
  if isQuill r.alg then { s with eng := quillCommit j unit s.eng.configGen.toNat s.eng } else s

/-- The context of a message that a held job opened lies on the quill where that job is placed at last (08 R224, 05 R135). -/
def settlePart (r : Session) (j : Job) (unit : Nat) (s : State) : State :=
  if isQuill r.alg ∧ qOpen j.desc then
    { s with eng := { s.eng with messages := tmap s.eng.messages (fun _ m => if m.opened = j.seq then { m with quill := unit } else m) } }
  else s

/-- Bytes that a job draws from Feed: 256 bits for each nib of its pair (07 R208), the blinding of both passes and the values of a Hook
operation (09 R256), OUT_LEN (10 R281). -/
def drawBytes (r : Session) (d : Desc) : Nat := if isNib r.alg then 64 else if isHook r.alg then 256 else if isRandom r.alg then d.outLen else 0

/-- commit(j, u, p) of 05 R134: the job is dispatched with its nonce, its draw, its session and key, and its prediction; its
reads are issued unless it is a later chain link (04 R112). -/
def commitJob (i : Nat) (r : Session) (p : Place) (later : Bool) (s : State) : State :=
  match jobOf s i with
  | none => s
  | some j0 =>
    let j := withAbs s r j0
    let pr := predict s r j p
    let sl := keyOf s r.key
    let ctr := takesCounter r j.desc
    let inv := (unitOf s p.unit).role == .inverse
    let e := engineCycles r j inv fullRate
    let n := drawBytes r j.desc
    let s1 := setJob i (fun x => { x with
      phase := .queued, counted := true, status := .ok, unit := p.unit, lane := p.lane, tStart := p.start, tEnd := pr.1, span := e
      predicted := pr.2, counter := if ctr then some r.next else none, nonce := if ctr then nonceOf r r.next else []
      draw := freeBytes s n, sess := some { r with next := 0, ceiling := 0 }, keyMat := keyBytes sl, kL := sl.kL, aAbs := j.aAbs
      msg := if j.phase = .held then x.msg else messageNo s j, under := p.under
      policyGen := (tgetD s.ports j.port {}).gen, configGen := s.eng.configGen.toNat, waitPrev := later }) (useFree n s)
    let s2 := { s1 with jobs := moveJobs p.moved s1.jobs, eng := { s1.eng with leases := moveClears p.clears s1.eng.leases } }
    let s3 := match p.susp with
      | some x => { s2 with eng := modUnit p.unit (fun u => { u with suspended := some x, suspendEnd := some p.start }) s2.eng }
      | none => s2
    let s5 := drawFrom s3 r
    let s6 := if ctr then takeCounter (sessIndex j.desc.handle) s5 else s5
    let s7 := if j.phase = .held then settlePart r j p.unit s6 else takePart r j p.unit s6
    let s8 := ledger j.port (fun c => { c with bytes := c.bytes + (chargeOf r j).1, hookOps := c.hookOps + (chargeOf r j).2
                                               engineNs := c.engineNs + engineNs r j inv })
      (modPort j.port (fun q => { q with admitted := q.admitted + 1 }) s7)
    if later then s8 else issueInputs i s8

/-- hold(j, t_tok) of 05 R134: the job keeps its debit, its prediction, and its part of a message, and is placed again at t_tok. -/
def holdJob (i : Nat) (r : Session) (p : Place) (tok : Nat) (c : Nat × Nat) (later : Bool) (s : State) : State :=
  match jobOf s i with
  | none => s
  | some j0 =>
    let j := withAbs s r j0
    let pr := predict s r j p
    takePart r j p.unit (setJob i (fun x => { x with
      phase := .held, tTok := tok, counted := false, waitPrev := later, chargeBytes := c.1, chargeHook := c.2, predicted := pr.2,
      aAbs := j.aAbs, msg := messageNo s j }) s)

/-- The bound of a job on p(j): its deadline from its doorbell (05 R139), or its window's close (05 R141). -/
def boundOf (s : State) (j : Job) : Nat :=
  match windowed s j with
  | some w => closeCycle s w.1
  | none => if j.desc.deadline = 0 then 0 else j.tDb + cyNsDown j.desc.deadline

/-- What became of an evaluation: refused or deferred, or admitted or held with its prediction, or left waiting. -/
inductive Admitted where
  | waits
  | done
  | at (p : Nat)
  deriving DecidableEq, Repr

/-- A link that will not run: its status waits for its turn (04 R112). -/
def abortLink (i : Nat) (st : Status) (first : Bool) (s : State) : State :=
  if first then refuseJob i st s
  else setJob i (fun x => { x with phase := .queued, waitPrev := true, status := st, counted := false }) s

/-- NONCE_EXHAUSTED also stands in the session (06 R183). -/
def markExhausted (j : Job) (st : Status) (s : State) : State :=
  if st = .nonceExhausted then modSession (sessIndex j.desc.handle) (fun x => { x with exhausted := true }) s else s

/-- The checks of admit() behind place (05 R134): the refusal of a job that misses its deadline or window, whether a frame is deferred,
and its bound. -/
inductive Fit where
  | ok (bound : Nat)
  | miss (st : Status)
  | defer

/-- Deadline and window against a prediction; a held job is not deferred (05 R134, R135, R141). -/
def fits (s : State) (r : Session) (j : Job) (p : Nat) : Fit :=
  let b := boundOf s j
  if j.desc.deadline ≠ 0 ∧ b < p then .miss .deadlineMissed
  else match windowed s j with
    | some w =>
      if windowFit s w.1 p then .ok b
      else if w.2.reject ∨ j.phase = .held ∨ frameTooLong s r j w.1 then .miss .windowShort
      else .defer
    | none => .ok b

/-- The charges that no bucket of the port can ever hold (05 R134). -/
def neverFits (p : CPort) (c : Nat × Nat) : Bool :=
  (p.bytesPerS != 0 && decide (depthBytes p < c.1)) || (p.hookPerS != 0 && decide (depthHook p < c.2))

/-- The steps of admit() from state_check on, for a job whose evaluation need not wait (05 R134). -/
def admitChecked (i t : Nat) (later : Bool) (r : Session) (j : Job) (s : State) : State × Admitted :=
  let st := stateCheck s r j
  let p0 := bucketsAt s.clk.now (tgetD s.ports j.port {})
  let c := chargeOf r j
  let tok := tokenTime s j p0 c
  if st ≠ .ok then (abortLink i st (!later) (markExhausted j st s), .done)
  else if neverFits p0 c || decide (150000000 < tok - s.clk.now) then (abortLink i .quotaExceeded (!later) s, .done)
  else if noUnit s r j then (abortLink i .unitFault (!later) s, .done)
  else match place s r j (max t tok) with
    | none => (s, .waits)
    | some p =>
      let pr := predict s r j p
      match fits s r j pr.2 with
      | .miss x => (abortLink i x (!later) s, .done)
      | .defer => (setJob i (fun x => { x with phase := .deferred }) s, .done)
      | .ok b =>
        let s1 := modPort j.port (fun _ => debit p0 c) (setJob i (fun x => { x with bound := b }) s)
        if s.clk.now < tok ∨ heldAhead s j ≠ [] then (holdJob i r p tok c later s1, .at pr.2)
        else (commitJob i r p later s1, .at pr.2)

/-- admission of 05 R134, from the instant `t` at which the job may start (a chain link starts at the p of the link
before it, R136). -/
def admitJob (i t : Nat) (later : Bool) (s : State) : State × Admitted :=
  match jobOf s i with
  | none => (s, .done)
  | some j =>
    let d := descStatus s j
    if d ≠ .ok then (abortLink i d (!later) s, .done)
    else match sessionOf s j.port j.desc.handle with
    | none => (abortLink i .sessionClosed (!later) s, .done)
    | some r => if mustWait s r j then (s, .waits) else admitChecked i t later r (withAbs s r j) s

/-! ### Chains (04 R112, 05 R136) -/

/-- The jobs of a chain, in order. -/
def chainLinks (s : State) (head : Nat) : List (Nat × Job) :=
  (s.jobs.filter (fun e => e.2.chainHead == some head)).foldl (fun a e => insertByStart (e.1, { e.2 with tStart := e.2.link }) a) []

/-- Whether every link is fetched: the last one has CHAIN at 0. -/
def chainWhole (l : List (Nat × Job)) : Bool :=
  match l.getLast? with
  | some x => !x.2.desc.chain || decide (16 < l.length)
  | none => false

/-- The links evaluated one after another; after the first that fails, the rest are aborted in their turn. -/
def admitLinks (l : List Nat) (t : Nat) (first dead : Bool) (s : State) : State :=
  match l with
  | [] => s
  | i :: r =>
    if dead then admitLinks r t false true (abortLink i .chainAborted first s)
    else match jobOf s i with
      | none => admitLinks r t first dead s
      | some j =>
        if j.status ≠ .ok then admitLinks r t false true (abortLink i j.status first s)
        else
          let q := admitJob i t (!first) s
          match q.2 with
          | .at p => admitLinks r p false false q.1
          | _ => admitLinks r t false true q.1

/-- The instant from which a held chain link is placed: the p of the link before it (05 R136). -/
def linkStart (s : State) (j : Job) : Nat :=
  match j.chainHead with
  | some h => match tfind s.jobs (fun _ x => x.chainHead == some h && x.link + 1 == j.link) with
    | some (_, x) => max s.clk.now x.predicted
    | none => s.clk.now
  | none => s.clk.now

/-- Step 0 of 04 R114: the session record that the handle indexes is in the session cache, if there is one. -/
def recordHere (s : State) (j : Job) : Bool :=
  match tget s.keys.sessions (sessIndex j.desc.handle) with
  | some r => r.cached
  | none => true

/-- The ring of a job fetches no more: a chain that it left open stays as it is (04 R95, R104). -/
def ringEnds (s : State) (j : Job) : Bool :=
  match j.src with
  | .ring id _ => match tget s.rings id with
    | some r => r.draining
    | none => true
  | _ => false

/-- A link whose chain was decided before it was fetched. -/
def lateLink (s : State) (j : Job) : Bool :=
  match j.chainHead with
  | some h => h != j.seq && !s.jobs.any (fun e => e.2.seq == h && (e.2.phase == .fetched || e.2.phase == .checked))
  | none => false

/-- Whether some link of the chain cannot be predicted yet (05 R136). -/
def chainWaits (s : State) (l : List (Nat × Job)) : Bool :=
  l.any (fun x => x.2.phase == .fetched || !recordHere s x.2 || (x.2.status == .ok && (match sessionOf s x.2.port x.2.desc.handle with
    | some r => mustWait s r x.2
    | none => false)))

/-- Whether Needle can evaluate the job now: its session record is here, and a chain is whole; what waits is passed over (05 R126). -/
def evaluable (s : State) (e : Nat × Job) : Bool :=
  e.2.phase == .checked && recordHere s e.2 && (match e.2.chainHead with
    | some h => lateLink s e.2 || (decide (h = e.2.seq) && (chainWhole (chainLinks s h) || ringEnds s e.2) && !chainWaits s (chainLinks s h))
    | none => match sessionOf s e.2.port e.2.desc.handle with
      | some r => descStatus s e.2 != .ok || !mustWait s r e.2
      | none => true)

/-- A stream frame's turn: no earlier frame of its channel waits to be admitted (05 R141). -/
def streamTurn (s : State) (j : Job) : Bool :=
  match j.src with
  | .stream _ _ => !s.jobs.any (fun e => sameSource e.2 j && decide (e.2.seq < j.seq) && (e.2.phase == .checked || e.2.phase == .deferred))
  | _ => true

/-- A deferred or held job that the rules in force no longer permit is refused without waiting (03 R88). -/
def nowRefused (s : State) (j : Job) : Bool := (j.phase == .deferred || j.phase == .held) && descStatus s j != .ok

def nextFetched (s : State) : Option (Nat × Job) :=
  leastBy (fun e => e.2.seq + (if e.2.urgent then 0 else 2 ^ 64))
    (s.jobs.filter (fun e => nowRefused s e.2 || (streamTurn s e.2 && evaluable s e)))

/-- One evaluation by Needle; none in an activation pause (05 R133). -/
def needleOne (s : State) : State :=
  match if s.fw.pauseAt.isSome then none else nextFetched s with
  | none => s
  | some e =>
    if nowRefused s e.2 then refuseJob e.1 (descStatus s e.2) s
    else match e.2.chainHead with
    | some h =>
      let l := chainLinks s h
      if h ≠ e.2.seq then refuseJob e.1 .chainAborted s
      else if 16 < l.length then l.foldl (fun a x => refuseJob x.1 .invalidField a) s
      else admitLinks (l.map (·.1)) s.clk.now true false s
    | none => (admitJob e.1 s.clk.now false s).1

end Sys2Proof.Machine
end

