-- ==== Sys2Proof/Machine/Common.lean ====
section
/-! DEFINITION. Operations over keys, the NVM queue and the maintenance token that several families share (06 R163 to R167,
15 R375, 03 R80). -/
namespace Sys2Proof.Machine

/-- The event kinds of 12 Table 12-2, 13 Table 13-8 and 14 Table 14-5 by name. -/
def kEccCorrected : Nat := 0x01
def kEccUncorrectable : Nat := 0x02
def kParity : Nat := 0x03
def kSlotMac : Nat := 0x04
def kTwinCompare : Nat := 0x05
def kAccessRefused : Nat := 0x12
def kFabricProtocol : Nat := 0x11
def kFabricTimeout : Nat := 0x10
def kHealthRct : Nat := 0x08
def kHealthApt : Nat := 0x09
def kCellFailed : Nat := 0x0A
def kLaneLockLost : Nat := 0x14
def kLaneDead : Nat := 0x15
def kLinkDown : Nat := 0x16
def kReadback : Nat := 0x19
def kBistFail : Nat := 0x20
def kSparesLow : Nat := 0x21
def kRowRepaired : Nat := 0x22
def kClockLost : Nat := 0x18
def kCompareRepeated : Nat := 0x06
def kHookRepeat : Nat := 0x07
def kRecordCheck : Nat := 0x13
def kBatonFault : Nat := 0x1A
def kDoorbellReject : Nat := 0x1B
def kAdminFraming : Nat := 0x1C
def kLedgerMerged : Nat := 0x1D
def kStreamOverflow : Nat := 0x1E
def kStorage : Nat := 0x1F
def kEscRetired : Nat := 0x30
def kEscIsolated : Nat := 0x31
def kEscHandover : Nat := 0x32
def kEscFailSilent : Nat := 0x33

/-- An operation at the end of the NVM controller's queue (15 R375). -/
def nvmQueue (o : NvmOp) (s : State) : State := { s with nvm := { s.nvm with ops := s.nvm.ops ++ [o] } }

/-- The winning value of a monotonic counter (15 R381). -/
def counterOf (n : Nvm) (id : Nat) : Nat := tgetD n.counters id 0

def cntRollback : Nat := 1
def cntAcct : Nat := 2
def cntKey : Nat := 3
def cntArch : Nat := 4

/-- MATERIAL of a slot: the key, followed by K_L where there is one, or the index of an extended record (06 Table 6-5,
07 R200). -/
def slotRow (sl : Slot) : Bytes :=
  match sl.ext with
  | some i => padTo 72 (leBytes 4 i)
  | none => padTo 72 (sl.material.take sl.matLen ++ sl.kL)

/-- The MAC that a slot carries (06 Table 6-5). -/
def slotMac (s : State) (n : Nat) (sl : Slot) : Bytes :=
  (Config.cmac (kSlot s)
    (slotRow sl ++ leBytes 1 sl.keyType ++ leBytes 1 (match sl.state with
      | .free => 0 | .valid => 1 | .stale => 2 | .retired => 3)
     ++ leBytes 2 sl.usage.toNat ++ leBytes 2 sl.owner ++ leBytes 1 sl.matLen ++ [0] ++ leBytes 4 sl.gen
     ++ leBytes 4 sl.validUntil ++ leBytes 2 n)).take 8

/-- A slot written in one row write, with its MAC (06 R163). -/
def writeSlot (n : Nat) (sl : Slot) (s : State) : State :=
  { s with keys := { s.keys with slots := tput s.keys.slots n { sl with mac := slotMac s n sl } } }

/-- The slot advanced to the next generation, or RETIRED where GEN would pass 131,071 (06 R164, R165). -/
def nextGen (sl : Slot) : Slot :=
  if sl.gen < 131071 then { sl with gen := sl.gen + 1 } else { sl with state := .retired }

/-- A slot emptied (06 R165): material, type, usage and K_L zeroed, an extended record given back. -/
def emptySlot (sl : Slot) : Slot :=
  { gen := sl.gen, state := if sl.state == .retired then .retired else .free, owner := if sl.state == .retired then sl.owner else 0 }

/-- The handle of a slot (06 R164). -/
def handleOf (n : Nat) (sl : Slot) : Nat := n + 2 ^ 15 * sl.gen

/-- SLOT_MAC does not check; a spilled slot has none in the Reservoir (06 R163, R168, R169). -/
def macBad (s : State) (n : Nat) : Bool := let sl := slotOf s n; !sl.spilled && sl.mac != slotMac s n sl

/-- A use of the slot behind a key handle: a SLOT_MAC that fails, also by injection, makes it STALE (06 R168, 12 Table 12-6). -/
def slotUsed (port h : Nat) (s : State) : State :=
  if keyStatus s port h = .ok ∧ ((injectedAt s.flt 0x0B0 0).isSome ∨ macBad s (handleSlot h)) then
    raiseEvent 0x0B0 kSlotMac (handleSlot h) (writeSlot (handleSlot h) { slotOf s (handleSlot h) with state := .stale } (takeInject 0x0B0 0 s))
  else s

/-- Every VALID slot is checked on the wake from P3R (06 R168). -/
def checkSlots (s : State) : State :=
  s.keys.slots.foldl (fun a e => if e.2.state = .valid then slotUsed e.2.owner (handleOf e.1 e.2) a else a) s

/-- A slot freed with its extended record (06 R165, R167). -/
def freeSlotNow (n : Nat) (s : State) : State :=
  let sl := slotOf s n
  let s1 := match sl.ext with
    | some x => { s with keys := { s.keys with extUsed := s.keys.extUsed.filter (· != x) } }
    | none => s
  writeSlot n (emptySlot sl) s1

/-- A key archive record, not yet complete: the slot, with its material wrapped under K_NVMK (06 Table 6-1, before R186). -/
def archiveRec (id version : Nat) (sl : Slot) : KeyRec :=
  { id := id, version := version, complete := false, slot := sl, wrapped := Config.kwpWrap kNvmk (keyBytes sl) }

/-- Slots not FREE that a port holds; STALE and RETIRED slots hold their place (06 R167). -/
def slotsHeld (s : State) (p : Nat) : Nat := tcount s.keys.slots (fun _ sl => sl.state != .free && sl.owner == p)

def openPorts (s : State) : Nat := tcount s.ports (fun _ p => p.isOpen)

/-- Shared slots in use: what open ports hold beyond their 16, and everything that closed ports hold (06 R167). -/
def sharedUsed (s : State) : Nat :=
  let beyond := s.ports.foldl (fun a e => a + (if e.2.isOpen then slotsHeld s e.1 - 16 else 0)) 0
  beyond + tcount s.keys.slots (fun _ sl => sl.state != .free && !(tgetD s.ports sl.owner {}).isOpen)

/-- The lowest FREE slot: which free slot a new key takes is open (06 R167; DESIGN CHOICE, log 135). -/
def lowestFreeSlot (fuel k : Nat) (s : State) : Option Nat :=
  match fuel with
  | 0 => none
  | f + 1 => if (slotOf s k).state = .free then some k else lowestFreeSlot f (k + 1) s

/-- The slot that a port's command takes (06 R167). -/
def slotFor (s : State) (p : Nat) : Option Nat :=
  if slotsHeld s p < 16 ∨ sharedUsed s + 16 * openPorts s < 32768 then lowestFreeSlot 32768 0 s else none

/-- The lowest free extended key record. -/
def extFor (s : State) : Option Nat := (List.range 4096).find? (fun i => !s.keys.extUsed.contains i)

/-- MAT_LEN of a key type; 0 for a type whose length varies or whose material lies in an extended record (06 Table 6-3). -/
def keyTypeLen (t : Nat) : Option Nat :=
  match t with
  | 0x01 => some 16 | 0x02 => some 24 | 0x03 => some 32 | 0x04 => some 32 | 0x05 => some 64 | 0x06 => some 32
  | 0x10 => some 32 | 0x11 => some 48 | 0x12 => some 66 | 0x13 => some 32 | 0x14 => some 32
  | 0x18 => some 64 | 0x19 => some 64 | 0x1A => some 32 | 0x1B => some 32
  | _ => none

def isRsa (t : Nat) : Bool := t == 0x20 || t == 0x21 || t == 0x22

/-- Bytes of an RSA private key in CRT form (06 Table 6-3). -/
def rsaLen (t : Nat) : Nat := if t = 0x20 then 644 else if t = 0x21 then 964 else 1284

def keyTypeKnown (t : Nat) : Bool := (keyTypeLen t).isSome || t == 0x07 || isRsa t

/-- Whether MAT_LEN matches KEY_TYPE (06 R159). -/
def matLenOk (t n : Nat) : Bool :=
  if t = 0x07 then decide (1 ≤ n) && decide (n ≤ 72) else if isRsa t then n == rsaLen t else keyTypeLen t == some n

/-- A new key in a slot; K_L is derived for a key with USAGE LIGATURE (07 R200). The material of an RSA key lies in its
extended record; the slot's 72 bytes then hold the record's index and MAT_LEN reads 0 (06 Table 6-5). -/
def fillSlot (s : State) (n keyType usage owner matLen validUntil : Nat) (material : Bytes) (ext : Option Nat) : Slot :=
  { material := material, keyType := keyType, state := .valid, usage := BitVec.ofNat 16 usage, owner := owner, matLen := matLen
    gen := (slotOf s n).gen, validUntil := validUntil, ext := ext
    kL := if usage / 256 % 2 = 1 then kdf (material.take matLen) (label "ligature") [] (8 * matLen) else [] }

/-! ### The Scribe pair (14 R363 to R367) -/

def scribeState (b : Baton) (k : Nat) : ScribeState := if k = 0 then b.a else b.b
def setScribe (k : Nat) (x : ScribeState) (b : Baton) : Baton := if k = 0 then { b with a := x } else { b with b := x }

/-- An award of the baton: OWNER and EPOCH + 1 in all three copies (14 R363). -/
def award (now k : Nat) (b : Baton) : Baton :=
  let c : BatonCopy := { epoch := b.c0.epoch + 1, owner := k }
  setScribe k .owner { b with c0 := c, c1 := c, c2 := c, lastRenew := now }

/-- The token given to a command that waits, or freed (03 R80), whoever held it. -/
def releaseToken (s : State) : State := { s with cmd := passToken s.cmd }

end Sys2Proof.Machine
end

