-- ==== Sys2Proof/Machine/Epoch.lean ====
section
/-! DEFINITION. Accounting and key epochs and their ledgers (05 R147 to R153, 06 R166, 11 R306). -/
namespace Sys2Proof.Machine

/-- Epoch time in ns (11 R300). -/
def eNs (s : State) : Nat := s.tim.e / 3000000

/-- Length of an epoch in ns. -/
def Epoch.lenNs (e : Epoch) : Nat := e.lenMs * 1000000

/-- Whether epoch time has passed the scheduled end (05 R148). -/
def Epoch.over (e : Epoch) (now : Nat) : Bool := e.running && decide (e.endNs ≤ now)

/-- Epochs wholly passed beyond the current one (11 R306). -/
def Epoch.passed (e : Epoch) (now : Nat) : Nat := if e.lenNs = 0 then 0 else (now - e.endNs) / e.lenNs

/-- The epoch in which epoch time lies, as if it had run through (05 R148, 11 R306). -/
def Epoch.next (e : Epoch) (now : Nat) : Epoch :=
  let m := e.passed now
  let start := e.endNs + m * e.lenNs
  { e with number := e.chosen.getD (e.number + 1) + m, start := start, endNs := start + e.lenNs, chosen := none }

/-- The stored ceiling of a kind raised, unless it exceeds the number `k` that starts next, or is being raised (05 R149; log 15). -/
def raiseEpochCeiling (id k : Nat) (s : State) : State :=
  let queued := s.nvm.ops.any (fun o => match o.work with
    | .counterProgram i _ => i == id
    | .counterMarker i _ => i == id
    | _ => false)
  if k < counterOf s.nvm id ∨ queued then s else nvmQueue { work := .counterProgram id (k + 65536) } s

/-- Counts added port by port. -/
def addCounts (a b : LedgerCnt) : LedgerCnt :=
  { refused := a.refused + b.refused, done := a.done + b.done, bytes := a.bytes + b.bytes
    engineNs := a.engineNs + b.engineNs, hookOps := a.hookOps + b.hookOps, failed := a.failed + b.failed }

def mergeBank (a b : Bank) : Bank :=
  { a with last := b.last, endNs := b.endNs, merged := true, partialRec := a.partialRec || b.partialRec
           ports := b.ports.foldl (fun t e => tmodD t e.1 {} (fun c => addCounts c e.2)) a.ports }

/-- The ports open now, with counts at 0: the ports that the new span covers (05 R151). -/
def openBank (s : State) (first startNs : Nat) : Bank :=
  { first := first, last := first, startNs := startNs, endNs := startNs
    ports := (s.ports.filter (fun e => e.2.isOpen)).map (fun e => (e.1, {})) }

/-- The current bank joins the closing banks; with both waiting it is added to the newer one and MERGED is set with an
event (05 R152). -/
def pushBank (b : Bank) (s : State) : State :=
  match s.ep.closing with
  | [] => { s with ep := { s.ep with closing := [b] } }
  | [x] => { s with ep := { s.ep with closing := [x, b] } }
  | x :: y :: r => raiseEvent 0x0C4 kLedgerMerged b.last { s with ep := { s.ep with closing := x :: mergeBank y b :: r, mergedFlag := true } }

/-- An accounting epoch closes; with passed epochs one record set covers all of them (05 R148, R151; 11 R306). The next epoch does not
start before the stored ceiling exceeds its number (R149). -/
def closeAcct (s : State) : State :=
  let n := s.ep.acct.next (eNs s)
  if !s.ep.acct.over (eNs s) then s
  else if counterOf s.nvm cntAcct ≤ n.number then raiseEpochCeiling cntAcct n.number s
  else
    let b : Bank := { s.ep.cur with last := n.number - 1, endNs := n.start
                                    merged := s.ep.cur.merged || decide (s.ep.acct.number + 1 < n.number) }
    let s1 := pushBank b s
    let s2 := { s1 with ep := { s1.ep with acct := n, cur := openBank s n.number n.start
                                           head := if s.ep.newLedger.isSome then 0 else s1.ep.head
                                           tail := if s.ep.newLedger.isSome then 0 else s1.ep.tail
                                           issued := if s.ep.newLedger.isSome then 0 else s1.ep.issued
                                           phase := if s.ep.newLedger.isSome then true else s1.ep.phase
                                           ledgerBase := (s.ep.newLedger.map (·.1)).getD s1.ep.ledgerBase
                                           ledgerLog2 := (s.ep.newLedger.map (·.2)).getD s1.ep.ledgerLog2
                                           newLedger := none } }
    raiseEpochCeiling cntAcct (n.number + 1) s2

/-- Contexts of messages under a key that is revoked, zeroed once no admitted part works on them any more (06 R166), and not counted as
lost (DESIGN CHOICE, log 136). -/
def dropDead (s : State) : State :=
  let dead := fun (m : Message) => match tget s.keys.sessions (sessIndex m.handle) with
    | some r => r.key != 0 && keyStatus s m.port r.key == .keyRevoked && !s.jobs.any (fun e => onUnit e.2 && e.2.msg == m.opened)
    | none => false
  { s with eng := { s.eng with messages := s.eng.messages.filter (fun e => !dead e.2) } }

/-- Keys revoked at the closes of key epochs `first` to `last`: GEN + 1, FREE, zeroed (06 R166, 05 R150). -/
def revokeKeys (first last : Nat) (s : State) : State :=
  s.keys.slots.foldl (fun a e =>
    if e.2.state = .valid ∧ e.2.validUntil ≠ 0 ∧ first ≤ e.2.validUntil ∧ e.2.validUntil ≤ last then
      freeSlotNow e.1 (writeSlot e.1 (nextGen e.2) a)
    else a) s

/-- A key epoch closes, and every boundary passed revokes (05 R150, 11 R306). -/
def closeKey (s : State) : State :=
  let n := s.ep.key.next (eNs s)
  if !s.ep.key.over (eNs s) then s
  else if counterOf s.nvm cntKey ≤ n.number then raiseEpochCeiling cntKey n.number s
  else raiseEpochCeiling cntKey (n.number + 1)
    (dropDead (revokeKeys s.ep.key.number (n.number - 1) { s with ep := { s.ep with key := n } }))

/-- EPOCH_CLOSE. -/
def execEpochClose (s : State) : Host.Outcome State Fault Refusal := .next (if aonOn s then closeAcct s else s)

/-- KEY_EPOCH_CLOSE. -/
def execKeyEpochClose (s : State) : Host.Outcome State Fault Refusal := .next (if aonOn s then closeKey s else s)

/-! ### Ledger records (05 Table 5-4) -/

def ledgerSize (e : Epochs) : Nat := 2 ^ e.ledgerLog2

/-- Records that GLB_LEDGER_HEAD leaves room for (05 R152). One slot stays empty, so that a full ring and an empty one are told apart
(DESIGN CHOICE, log 133). -/
def ledgerRoom (e : Epochs) : Nat := ledgerSize e - 1 - (e.issued + ledgerSize e - e.head % ledgerSize e) % ledgerSize e

/-- A ledger record (05 Table 5-4). -/
def ledgerRecord (b : Bank) (port : Nat) (c : LedgerCnt) (phase gap last : Bool) : Bytes :=
  leBytes 4 b.first ++ leBytes 4 b.last ++ leBytes 2 port
  ++ leBytes 1 (b2n phase + 2 * b2n b.merged + 4 * b2n b.partialRec + 8 * b2n gap + 16 * b2n last) ++ [0]
  ++ leBytes 4 c.refused ++ leBytes 8 b.startNs ++ leBytes 8 b.endNs ++ leBytes 8 c.done ++ leBytes 8 c.bytes
  ++ leBytes 8 c.engineNs ++ leBytes 4 c.hookOps ++ leBytes 4 c.failed

/-- One record written at the next slot, and the Epochs after it: PHASE turns at the wrap (R118), RESET_GAP stands in the
first record after a reset (R153). -/
def writeLedger (sid : BitVec 16) (b : Bank) (port : Nat) (c : LedgerCnt) (last : Bool) (e : Epochs) : Epochs × List Req :=
  let wrapped := e.issued + 1 = ledgerSize e
  ({ e with issued := if wrapped then 0 else e.issued + 1, phase := if wrapped then !e.phase else e.phase, resetGap := false },
   writeReqs sid true .lowest (.ledger e.issued) (e.ledgerBase + 64 * e.issued) (ledgerRecord b port c e.phase e.resetGap last))

/-- The records of the oldest closing bank, as far as there is room. -/
def writeLedgers (sid : BitVec 16) (room : Nat) (b : Bank) (ports : Tbl LedgerCnt) (e : Epochs) (rs : List Req) :
    Tbl LedgerCnt × Epochs × List Req :=
  match ports with
  | [] => ([], e, rs)
  | (p, c) :: r =>
    match room with
    | 0 => ((p, c) :: r, e, rs)
    | room' + 1 =>
      let q := writeLedger sid b p c r.isEmpty e
      writeLedgers sid room' b r q.1 (rs ++ q.2)

/-- The closing banks are written as far as GLB_LEDGER_HEAD permits (05 R152). -/
def writeBanks (fuel : Nat) (s : State) : State :=
  match fuel, s.ep.closing with
  | 0, _ => s
  | _, [] => s
  | f + 1, b :: rest =>
    let q := writeLedgers s.keys.selfSid (ledgerRoom s.ep) b b.ports s.ep []
    let s1 := issue q.2.2 { s with ep := { q.2.1 with closing := if q.1.isEmpty then rest else { b with ports := q.1 } :: rest } }
    if q.1.isEmpty then writeBanks f s1 else s1

/-- LEDGER_BANK_WRITE. -/
def execLedgerBankWrite (s : State) : Host.Outcome State Fault Refusal := .next (if working s then writeBanks 3 s else s)

/-- The partial records of the running epoch at the entry to P3R or P3; counting restarts at 0 (05 R153). -/
def partialClose (s : State) : State :=
  if s.ep.acct.running then
    let b : Bank := { s.ep.cur with last := s.ep.acct.number, endNs := eNs s, partialRec := true }
    let s1 := pushBank b s
    writeBanks 3 { s1 with ep := { s1.ep with cur := openBank s s.ep.acct.number (eNs s) } }
  else s

end Sys2Proof.Machine
end

