-- ==== Sys2Proof/Machine/Time.lean ====
section
/-! DEFINITION. The time-keeper: references, holdover, slews, steps and captures (11 R300 to R308; 02 R48, R49, R53). -/
namespace Sys2Proof.Machine

/-- Units of G and E in a nanosecond, and in a SKEIN cycle. -/
def unitsPerNs : Nat := 3000000
def unitsPerCycle : Nat := 2000000

/-- The rank of a quality code (02 Table 2-8); 0xF is rank 3 in MANUFACTURE and RMA. -/
def qualRank (lifecycle : Nat) (q : BitVec 4) : Nat :=
  match q.toNat with
  | 1 => 1 | 2 => 2 | 3 => 3
  | 15 => if lifecycle = 0 ∨ lifecycle = 3 then 3 else 0
  | _ => 0

/-- A reserved code, or a sample with TIM_NS at or above 10^9 (02 R48, Table 2-8). -/
def sampleOdd (r : TimeSample) : Bool :=
  decide (1000000000 ≤ r.ns.toNat) || (decide (4 ≤ r.qual.toNat) && decide (r.qual.toNat ≤ 14))

def sampleBad (r : TimeSample) : Bool := decide (1000000000 ≤ r.ns.toNat)

/-- The reference value in the units of G. -/
def refUnits (r : TimeSample) : Nat := (r.sec.toNat * 1000000000 + r.ns.toNat) * unitsPerNs

/-- The sample's quality is latched, and an invalid sample or reserved code is counted (Table 11-4). -/
def noteSample (r : TimeSample) (t : Tim) : Tim :=
  { t with qual := r.qual, invalid := if sampleOdd r then satAdd 16 t.invalid 1 else t.invalid }

/-- The action on d = r - G (11 R305), at a take-up and at every followed PPS edge. -/
def discipline (r : TimeSample) (t : Tim) : Tim :=
  let u := refUnits r
  let d : Int := (u : Int) - (t.g : Int)
  let ms : Int := ((1000000 * unitsPerNs : Nat) : Int)
  let t0 : Tim := { t with offset := d / ((unitsPerNs : Nat) : Int) }
  if ms ≤ d then { t0 with g := u, e := max t.e u, slewing := false, slewLeft := 0, steps := satAdd 16 t.steps 1 }
  else if d ≤ -ms then { t0 with g := u, e := max t.e u, slewing := false, slewLeft := 0, backsteps := satAdd 16 t.backsteps 1 }
  else { t0 with slewing := d != 0, slewLeft := d }

/-- Whether the holdover source is LANE_REF: in LA-1024/L with the lanes powered (00 Table 0-1, 01 Table 1-5); AON_RC otherwise. -/
def laneSource (s : State) : Bool :=
  s.pins.formL && !s.pins.laneRefLost && !(s.pwr.state == .p3r || s.pwr.state == .p3)

/-- A locked edge: the holdover source is measured against it, afresh where it is another than before (11 R302, R303). -/
def lockEdge (src : Bool) (now : Nat) (t : Tim) : Tim :=
  { t with lastLocked := now, laneRef := src, measuredSince := some (if t.laneRef = src then t.measuredSince.getD now else now) }

/-- A reference taken up (11 R304, R305): HOLDOVER and PENDING clear and the input is followed. -/
def takeUp (rank : Nat) (r : TimeSample) (t : Tim) : Tim :=
  discipline r { t with holdover := false, pending := false, pendHold := false, rank := rank, following := true
                        calShort := false, uncertInf := t.uncertInf && decide (rank = 0) }

/-- A switch to a worse reference becomes pending to the next whole millisecond of G (11 R304). -/
def setPending (hold : Bool) (rank : Nat) (t : Tim) : Tim :=
  { t with pending := true, pendHold := hold, pendRank := rank, pendAt := t.g / (1000000 * unitsPerNs) + 1 }

/-- The time-keeper changed while VDD_AON is there; a forward step closes the epochs that it passes (11 R306), and
after a step, slew or back-step the deferred frames are to be evaluated again (05 R142). -/
def onTime (f : Tim → Tim) (s : State) : State :=
  if aonOn s then
    let t := f s.tim
    let moved := t.g != s.tim.g || t.slewing != s.tim.slewing || (t.slewing && t.slewLeft != s.tim.slewLeft)
    let s1 := { s with tim := t, jobs := if moved then tmap s.jobs (fun _ j => if j.phase = .deferred then { j with phase := .checked } else j)
                                         else s.jobs }
    if s.tim.e < s1.tim.e then closeKey (closeAcct s1) else s1
  else s

/-- A PPS edge with a usable input: the reference in use is followed, and out of holdover the reference is taken up (11 R302, R305, Table
11-2). -/
def ppsEdge (src : Bool) (now : Nat) (ref : TimeSample) (t : Tim) : Tim :=
  if !t.usable || t.pending || sampleBad ref then t
  else lockEdge src now (if t.following then discipline ref t else takeUp t.inRank ref t)

/-- TIM_PPS_EDGE (11 R302). -/
def execTimPpsEdge (ref : TimeSample) (s : State) : Host.Outcome State Fault Refusal :=
  .next (onTime (fun t => ppsEdge (laneSource s) s.clk.now ref (noteSample ref t)) s)

/-- PPS_MISSING: the edge is counted missing while the input is followed, and the TIM_NS wrap takes its place (11 R302). -/
def execPpsMissing (ref : TimeSample) (s : State) : Host.Outcome State Fault Refusal :=
  .next (onTime (fun t =>
    ppsEdge (laneSource s) s.clk.now ref
      { noteSample ref t with ppsMissing := if t.usable && t.following then satAdd 16 t.ppsMissing 1 else t.ppsMissing }) s)

/-- A rank recognised while a switch is pending: a better one than the one pending is taken up at once, a worse one is pending in its place
(11 R304). -/
def whilePending (rk : Nat) (ref : TimeSample) (t : Tim) : Tim :=
  if t.pendHold || decide (t.pendRank < rk) then takeUp rk ref t else if rk < t.pendRank then setPending false rk t else t

/-- TIME_INPUT_USABLE: a pending switch is cancelled; out of holdover the reference is taken up at the next PPS edge (11 R301, R304, Table
11-2). -/
def execTimeInputUsable (ref : TimeSample) (s : State) : Host.Outcome State Fault Refusal :=
  let rk := qualRank s.fuse.lifecycle ref.qual
  .next (onTime (fun t =>
    if t.usable || sampleBad ref || decide (rk < t.minRank) then noteSample ref t
    else
      let t1 := { noteSample ref t with usable := true, inRank := rk }
      if t.pending then whilePending rk ref t1 else t1)
    { s with pins := { s.pins with timClkLost := if aonOn s then false else s.pins.timClkLost } })

/-- The input unusable: a switch to holdover is pending if it was followed (11 R301, R304). -/
def loseInput (t : Tim) : Tim :=
  if t.usable then (let t1 := { t with usable := false }; if t.following then setPending true 0 t1 else t1) else t

/-- TIME_INPUT_UNUSABLE: a switch to holdover is pending; a lost TIM_CLK raises CLOCK_LOST on 0x0D2 (11 R301, 02 R53). -/
def execTimeInputUnusable (clockLost : Bool) (s : State) : Host.Outcome State Fault Refusal :=
  let s1 := onTime loseInput s
  .next (if aonOn s && clockLost && !s.pins.timClkLost then
      raiseEvent 0x0D2 kClockLost 2 { s1 with pins := { s1.pins with timClkLost := true } }
    else s1)

/-- TIM_RANK_CHANGE, after 16 samples at the new rank: a better reference is taken up, a worse one is pending, and a rank below MIN_RANK
makes the input unusable (11 R301, R304). -/
def execTimRankChange (ref : TimeSample) (s : State) : Host.Outcome State Fault Refusal :=
  let rk := qualRank s.fuse.lifecycle ref.qual
  .next (onTime (fun t =>
    let t1 := noteSample ref t
    if !t.usable || sampleBad ref then t1
    else if rk < t.minRank then loseInput t1
    else
      let t2 := { t1 with inRank := rk }
      if !t.following then t2
      else if t.pending then whilePending rk ref t2
      else if t.rank < rk then takeUp rk ref t2
      else if rk < t.rank then setPending false rk t2 else t2) s)

/-- The commit of a pending switch (11 R304); at a lower rank the next PPS edge compares the new reference (log 16). -/
def commitSwitch (src : Bool) (now : Nat) (t : Tim) : Tim :=
  if t.pendHold then
    { t with pending := false, pendHold := false, holdover := true, following := false, measuredSince := none
             calShort := match t.measuredSince with
               | none => true
               | some m => t.laneRef != src || decide (now - m < cyMs 60000) }
  else { t with pending := false, rank := t.pendRank, uncertInf := t.uncertInf && decide (t.pendRank = 0) }

/-- REFERENCE_SWITCH_COMMIT. -/
def execReferenceSwitchCommit (s : State) : Host.Outcome State Fault Refusal :=
  .next (onTime (fun t =>
    if t.pending && decide (t.pendAt * (1000000 * unitsPerNs) ≤ t.g) then commitSwitch (laneSource s) s.clk.now t else t) s)

/-- SLEW_END (11 R305). -/
def execSlewEnd (s : State) : Host.Outcome State Fault Refusal :=
  .next (onTime (fun t => if t.slewing && t.slewLeft == 0 then { t with slewing := false } else t) s)

/-- EPOCH_TICK: at each whole second of E (11 R302). -/
def execEpochTick (s : State) : Host.Outcome State Fault Refusal :=
  .next (onTime (fun t =>
    if t.lastTickSec < t.e / (1000000000 * unitsPerNs) then { t with lastTickSec := t.e / (1000000000 * unitsPerNs) } else t) s)

/-- BACKSTEP is 1 exactly while G < E (11 R300). -/
def Tim.backstep (t : Tim) : Bool := decide (t.g < t.e)

/-- UNCERTAINTY_NS (11 R303), saturating at 2^64 - 1. -/
def uncertainty (now : Nat) (t : Tim) : Nat :=
  let top := 2 ^ 64 - 1
  let u0 := match t.rank with
    | 3 => 50 | 2 => 200 | 1 => 1000 | _ => top
  if t.uncertInf ∨ t.rank = 0 then top
  else if t.holdover then min top (u0 + (if t.calShort then 50 else 5) * ((now - t.lastLocked) / 1500000))
  else min top (u0 + (t.slewLeft.natAbs + unitsPerNs - 1) / unitsPerNs)

/-- TIM_STAT (11 Table 11-4). -/
def timStat (t : Tim) : Nat :=
  b2n t.holdover + 2 * b2n t.backstep + 4 * b2n t.slewing + 8 * b2n t.pending + 16 * (t.rank % 4) + 256 * t.qual.toNat
    + 4096 * b2n t.calShort

/-- The capture that a read of TIM_NOW_SEC makes (11 R308). -/
def captureTime (t : Tim) : Tim :=
  let ns := t.g / unitsPerNs
  { t with capSec := ns / 1000000000 % 2 ^ 48, capNs := ns % 1000000000, capStat := BitVec.ofNat 13 (timStat t), capEpoch := t.e / unitsPerNs }

/-- One SKEIN cycle of gateway and epoch time; a slew changes the rate by up to SLEW_PPM_MAX (11 R300, R305; log 1). -/
def tickTim (t : Tim) : Tim :=
  let lim : Int := ((2 * t.slewPpm : Nat) : Int)
  let adj : Int := if t.slewing then max (-lim) (min lim t.slewLeft) else 0
  let g' := ((t.g + unitsPerCycle : Nat) + adj : Int).toNat
  { t with g := g', e := max t.e g', slewLeft := t.slewLeft - adj }

end Sys2Proof.Machine
end

