-- ==== Sys2Proof/Machine/Flags.lean ====
section
/-! DEFINITION. Status words: the contents of the block's registers as functions of the state (19 R450; Tables 3-1, 4-4, 5-3,
6-11, 7-10, 8-9, 9-11, 10-4, 11-3, 11-4, 12-7, 13-9, 14-7, 15-7, 16-6, 17-8, 18-5, 19-4, 19-5). -/
namespace Sys2Proof.Machine

/-- A word put together from fields: value and lowest bit. -/
def pack (fs : List (Nat × Nat)) : Nat := fs.foldl (fun a f => a + f.1 * 2 ^ f.2) 0 % 2 ^ 64

/-! ### Encodings -/

def PState.code (p : PState) : Nat :=
  match p with
  | .p0 => 0 | .p1 => 1 | .p2 => 2 | .p3r => 3 | .p3 => 4

def ScribeState.code (x : ScribeState) : Nat :=
  match x with
  | .off => 0 | .booting => 1 | .owner => 2 | .syncing => 3 | .ready => 4 | .offline => 5 | .deposed => 6

/-- ROLE of a nib, and of a quill or hook (07 Table 7-10, 08 Table 8-9, 09 Table 9-11). -/
def Role.nibCode (r : Role) : Nat :=
  match r with
  | .active => 0 | .spare => 1 | .underTest => 2 | .inverse => 3 | .retired => 4 | .isolated => 5

def Role.code (r : Role) : Nat :=
  match r with
  | .active => 0 | .inverse => 0 | .spare => 1 | .underTest => 2 | .retired => 3 | .isolated => 4

def CellState.code (c : CellState) : Nat :=
  match c with
  | .spare => 0 | .online => 1 | .underTest => 2 | .failed => 3

def FwState.code (f : FwState) : Nat :=
  match f with
  | .idle => 0 | .transfer => 1 | .staged => 2 | .scheduled => 3 | .preparing => 4 | .probation => 5 | .replaying => 6

/-- Card states (17 Table 17-3). -/
def CardState.code (c : CardState) : Nat :=
  match c with
  | .empty => 0 | .probing => 1 | .identifying => 2 | .ready => 3 | .locked => 4 | .poweredOff => 5 | .reversed => 6
  | .openContact => 7 | .short => 8 | .unsupported => 9 | .failed => 10 | .recovering => 11

def LaneRole.code (l : LaneRole) : Nat :=
  match l with
  | .active => 0 | .spare => 1 | .dead => 2 | .training => 3

def SectorState.code (x : SectorState) : Nat :=
  match x with
  | .spare => 0 | .mapped => 1 | .retired => 2 | .bad => 3 | .halfErased => 4

/-! ### Rings (04 Tables 4-3, 4-4) -/

/-- Jobs of a ring in the job table; for a completion ring the records reserved or held (04 R116). -/
def ringJobs (s : State) (id : Nat) : Nat := tcount s.jobs (fun _ j => match j.src with
  | .ring x _ => x == id
  | _ => false)

def ringCount (s : State) (id : Nat) (r : Ring) : Nat := if r.isCpl then r.reserved else ringJobs s id

/-- Entries of a ring not yet fetched (04 R98). -/
def unfetched (r : Ring) : Nat := (r.tail + 2 ^ r.log2 - r.head % 2 ^ r.log2) % 2 ^ r.log2

/-- The state of a ring as the port `p` sees it (04 Table 4-3). -/
def ringState (s : State) (p id : Nat) : Nat :=
  match tget s.rings id with
  | none => 0
  | some r =>
    if r.port ≠ p then 0
    else if r.draining then 4
    else if r.stopped then 3
    else if ringCount s id r ≠ 0 ∨ (!r.isCpl ∧ unfetched r ≠ 0) then 2
    else 1

/-- A bit of a sparse table of 64-bit words. -/
def bitAt (t : Tbl (BitVec 64)) (n : Nat) : Bool := (tgetD t (n / 64) 0).getLsbD (n % 64)

/-- Whether a ring is marked (04 R91, R92). -/
def ringMarked (s : State) (id : Nat) : Bool := s.skein.urgent.contains id || bitAt s.skein.leaf id

/-- CPW_RING_STAT for a cached ring of the port. -/
def ringStat (s : State) (p id : Nat) : Nat :=
  match tget s.rings id with
  | none => 0
  | some r =>
    if r.port ≠ p ∨ !r.cached then 0
    else pack [(1, 0), (ringState s p id, 1), (b2n r.isCpl, 4), (r.gen % 4, 5), (b2n (ringMarked s id), 7), (b2n r.urgent, 8)
               , (ringCount s id r % 65536, 16)]

def ringHeadTail (s : State) (p id : Nat) : Nat × Nat :=
  match tget s.rings id with
  | none => (0, 0)
  | some r => if r.port ≠ p ∨ !r.cached then (0, 0) else (r.head, r.tail)

/-! ### Engines -/

/-- A job that a unit runs now: from its start to its engine end (05 R130). -/
def runsNow (u : Nat) (j : Job) : Bool := j.unit == u && j.phase == .queued && j.counted && j.begun

def nibStat (s : State) (c : Nat) : Nat :=
  let u := unitOf s c
  let lead := leadOf s.eng.units c
  let wide := s.jobs.any (fun e => runsNow lead e.2 && e.2.lane.isNone)
  let lanes := ((List.range 8).filter (fun l => s.jobs.any (fun e => runsNow lead e.2 && e.2.lane == some l))).length
  pack [(u.role.nibCode, 0), ((u.partner.getD 0x1F) % 32, 8), (b2n wide, 16), (lanes, 24)
        , (b2n (tget u.ctx 9).isSome, 28), (u.configGen % 2 ^ 32, 32)]

/-- Pairs in service in a half. -/
def pairsIn (us : Tbl EUnit) (half : Nat) : Nat :=
  ((unitsOfKind us 0).filter (fun u => nibHalf u.1 == half && u.2.role == .active && (match u.2.partner with
    | some p => decide (u.1 < p)
    | none => false))).length

def inverseIn (us : Tbl EUnit) (half : Nat) : Bool := (unitsOfKind us 0).any (fun u => nibHalf u.1 == half && u.2.role == .inverse)

def nibArray (s : State) : Nat :=
  pack [(pairsIn s.eng.units 0, 0), (pairsIn s.eng.units 1, 4), (spareCount s.eng.units 0 % 16, 8)
        , (b2n (inverseIn s.eng.units 0), 12), (b2n (inverseIn s.eng.units 1), 13)]

def unitBusy (s : State) (c : Nat) : Bool := s.jobs.any (fun e => runsNow c e.2)

def quillStat (s : State) (c : Nat) : Nat :=
  let u := unitOf s c
  pack [(u.role.code, 0), (ctxCount s c % 256, 8), (b2n (unitBusy s c), 16), (u.configGen % 2 ^ 32, 32)]

def quillArray (s : State) : Nat :=
  let act := (unitsOfKind s.eng.units 1).filter (fun u => u.2.role == .active)
  pack [(act.length % 16, 0), (spareCount s.eng.units 1 % 16, 4)
        , ((act.foldl (fun a u => a + (64 - ctxCount s u.1)) 0) % 1024, 8)]

/-- Windows leased on a hook (09 R242). -/
def windowsOn (s : State) (c : Nat) : Nat := s.eng.leases.foldl (fun a l => if l.2.hook = c then a + l.2.windows.length else a) 0

def hookStat (s : State) (c : Nat) : Nat :=
  let u := unitOf s c
  pack [(u.role.code, 0), (windowsOn s c % 128, 8), (b2n (unitBusy s c), 16), (u.configGen % 2 ^ 32, 32)]

def hookArray (s : State) : Nat :=
  let act := (unitsOfKind s.eng.units 2).filter (fun u => u.2.role == .active)
  pack [(act.length % 16, 0), (spareCount s.eng.units 2 % 16, 4)
        , ((act.foldl (fun a u => a + (64 - windowsOn s u.1)) 0) % 1024, 8)]

/-! ### SRAM arrays (13 Table 13-4) -/

/-- Spare rows of an array at delivery. -/
def arraySpares (a : Nat) : Nat :=
  if a < 4 then 16 else if a < 124 then 8 else if a < 128 then 4 else if a < 132 then 32 else if a < 136 then 4
  else if a < 170 then 4 else if a < 179 then 16 else 8

def arrayPresent (formL : Bool) (a : Nat) : Bool := decide (a < 179) || (decide (a < 181) && formL)

def arrayOf (s : State) (a : Nat) : SArray := tgetD s.darn.arrays a {}

def sparesLeft (s : State) (a : Nat) : Nat :=
  let r := arrayOf s a
  arraySpares a - r.fuse - r.runtime.length - r.copies.length

def rowSparesAll (s : State) : Nat :=
  (List.range 181).foldl (fun t a => if arrayPresent s.pins.formL a then t + sparesLeft s a else t) 0

/-! ### Cells, sectors, lanes -/

def cellsIn (s : State) (c : CellState) : Nat := tcount s.rng.cells (fun _ x => x.state == c)

/-- RNG_STAT.STATE (10 Table 10-4): 0 STARTING until a first startup test ended. -/
def rngState (s : State) : Nat :=
  let n := cellsIn s .online
  if n ≥ 4 then 1 else if n ≥ 1 then 2 else if s.rng.started then 3 else 0

def sectorOf (n : Nvm) (i : Nat) : Sector :=
  tgetD n.sectors i (if i < 1024 then { state := .mapped, logical := i } else { state := .spare })

/-- Spare sectors, without a walk over the array: those of delivery less the changes listed (15 Table 15-1). -/
def nvmSpares (n : Nvm) : Nat :=
  128 + tcount n.sectors (fun i x => decide (i < 1024) && x.state == .spare)
    - tcount n.sectors (fun i x => decide (1024 ≤ i) && x.state != .spare)

def nvmRetired (n : Nvm) : Nat := tcount n.sectors (fun _ x => x.state == .retired || x.state == .bad)

def nvmMaxErase (n : Nvm) : Nat := n.sectors.foldl (fun a x => if x.2.state == .mapped then max a x.2.erases else a) 0

def portN (s : State) (n : Nat) : FabPort := tgetD s.fab.ports n {}

/-- GLB_FAB_RATE of a port, in whole GB/s; 0 before the first measurement (19 Table 19-4; 05 R129). -/
def fabRate (p : FabPort) : Nat :=
  match p.rate with
  | some r => r.1 / r.2
  | none => 0

def laneOf (s : State) (i : Nat) : Lane := tgetD s.link.lanes i {}

/-- Locked lanes, and locked spares (19 Table 19-5). -/
def lanesLocked (s : State) : Nat := tcount s.link.lanes (fun _ l => l.locked)
def spareLanes (s : State) : Nat := if s.pins.formL then tcount s.link.lanes (fun _ l => l.rxRole == .spare && l.locked) else 0

/-! ### Fault bitmaps -/

/-- 64 sources as one word of a bitmap (12 Table 12-7). -/
def srcWord (s : State) (w : Nat) (p : Src → Bool) : Nat :=
  s.flt.sources.foldl (fun a e => if e.1 / 64 = w ∧ p e.2 then a + 2 ^ (e.1 % 64) else a) 0

def unacked (f : Flt) : Nat := tcount f.sources (fun _ r => r.severe && !r.acked)

/-- The source whose reaction timer expires first, and its expiry. -/
def firstTimer (f : Flt) : Option (Nat × Nat) :=
  f.sources.foldl (fun a e => match e.2.timer with
    | none => a
    | some t => match a with
      | none => some (e.1, t)
      | some b => if t < b.2 then some (e.1, t) else a) none

/-- A level condition of a source that still holds (12 R325): a clock lost, a lane down, ERR_N read back wrong, a port
isolated, a baton fault. -/
def levelHolds (s : State) (n : Nat) : Bool :=
  (decide (0x060 ≤ n) && decide (n ≤ 0x063) && (portN s (n - 0x060)).isolated)
  || (decide (0x068 ≤ n) && decide (n ≤ 0x089) && s.pins.formL
      && (let l := laneOf s (n - 0x068); !l.locked || l.rxRole == .dead || l.txRole == .dead))
  || (n == 0x050 && s.rng.inkLost) || (n == 0x0D2 && (s.pins.timClkLost || s.pins.xtalLost)) || (n == 0x0D3 && s.pins.pllLost)
  || (n == 0x0D4 && s.pins.rbMismatch) || (n == 0x0A2 && s.pwr.failSilent && s.pwr.fsCause == 1)

/-- A unit in service or spare whose latest event was a compare or health kind, without a passed self-test since; for a cell,
a health event while it has not passed a retest (12 R325). -/
def unitSuspect (s : State) (n : Nat) : Bool :=
  let k := (srcOf s.flt n).latestKind
  decide (5 ≤ k) && decide (k ≤ 0x0A)
    && (s.eng.units.any (fun u => unitSrc u.1 == n && !u.2.passedSince && !(u.2.role == .retired || u.2.role == .isolated))
        || (decide (0x040 ≤ n) && decide (n ≤ 0x04F) && (tgetD s.rng.cells (n - 0x040) {}).state == .underTest))

/-- The cause of a source is present (12 R325). -/
def causePresent (s : State) (n : Nat) : Bool :=
  let r := srcOf s.flt n
  (r.severe && !r.acked) || (r.sticky && (unitSuspect s n || levelHolds s n))

def fltQstat (s : State) : Nat := s.flt.queue.length % 8192

def fltStat (s : State) : Nat :=
  pack [(b2n s.flt.err, 0), (b2n s.flt.widthRunning, 1), (b2n s.pins.errRb, 2), (b2n s.pwr.failSilent, 3)
        , (unacked s.flt % 4096, 16), (s.flt.clearRefused % 65536, 32)]

def fltReact (s : State) : Nat :=
  match firstTimer s.flt with
  | none => 0
  | some x => pack [(x.1, 0), (1, 12), (cdiv (x.2 - s.clk.now) 1500000 % 16384, 32)]

/-! ### The readable contents of every register, by offset (19 Table 19-1) -/

def selPort (s : State) : CPort := tgetD s.ports s.regs.cpsel {}

/-- A CPW register of a port that is not open reads 0 (19 R454). -/
def ifOpen (s : State) (v : Nat) : Nat := if (selPort s).isOpen then v else 0

def portSessions (s : State) (p : Nat) : Nat := tcount s.keys.sessions (fun _ r => r.owner == p)
def portRings (s : State) (p : Nat) : Nat := tcount s.rings (fun _ r => r.port == p)
def portWindows (s : State) (p : Nat) : Nat := s.eng.leases.foldl (fun a l => if l.2.port = p then a + l.2.windows.length else a) 0
def portHeld (s : State) (p : Nat) : Nat := tcount s.jobs (fun _ j => j.phase == .held && j.port == p)

/-- Bucket levels in whole bytes and operations (05 R146). -/
def lvlBytesNow (s : State) (p : CPort) : Int := (bucketsAt s.clk.now p).lvlBytes / ((bucketUnit : Nat) : Int)
def lvlHookNow (s : State) (p : CPort) : Int := (bucketsAt s.clk.now p).lvlHook / ((bucketUnit : Nat) : Int)

def glbWords : List (Nat × (State → Nat)) :=
  [ (0x0000, fun _ => 0x1024 * 2 ^ 32 + 0x0100),
    (0x0008, fun s => pack [(b2n s.pins.formL, 0), (s.pins.cfgFabEn.toNat, 4), (if s.pins.formL then s.pins.cfgFabRoute.toNat else 0, 8)]),
    (0x0010, fun s => pack [(b2n s.pwr.aslpAccess, 0), (b2n s.pwr.fsAccess, 1), (b2n (portN s 0).isolated, 4), (b2n (portN s 1).isolated, 5)
                            , (b2n (portN s 2).isolated, 6), (b2n (portN s 3).isolated, 7)]),
    (0x0018, fun s => s.regs.fabTimeout),
    (0x0020, fun s => pack [((portN s 0).stall, 0), ((portN s 1).stall, 16), ((portN s 2).stall, 32), ((portN s 3).stall, 48)]),
    (0x0028, fun s => pack [(fabRate (portN s 0), 0), (fabRate (portN s 1), 16), (fabRate (portN s 2), 32), (fabRate (portN s 3), 48)]),
    (0x0030, fun s => pack [((portN s 0).reqCred, 0), ((portN s 0).wdatCred, 20)]),
    (0x0100, fun s => pack [(s.pwr.state.code, 0), (b2n s.pwr.entering.isSome, 3), (b2n s.pwr.waking, 4), (s.pwr.lastWake, 16)]),
    (0x0108, fun s => pack [(b2n s.pwr.wakeBit, 0), (s.pwr.deepest, 8)]),
    (0x0110, fun s => s.pwr.idleUs),
    (0x0118, fun s => pack [(s.pwr.stage, 0), (s.pwr.fsCause, 8), (b2n s.pwr.failSilent, 16), (s.pwr.completeUs % 2 ^ 32, 32)]),
    (0x0120, fun s => pack [(batonEpoch s % 2 ^ 48, 0), (batonOwner s, 48), (b2n (s.baton.a == .ready || s.baton.b == .ready), 50)]),
    (0x0128, fun s => pack [(s.baton.a.code, 0), (s.baton.b.code, 8), (s.baton.lapses, 16), (s.baton.stale, 32)]),
    (0x0130, fun s => pack [(s.pwr.wakes, 0), (s.pwr.abandoned, 32)]),
    (0x0200, fun s => s.regs.latNs),
    (0x0208, fun s => if s.ep.acct.running then s.ep.acct.number % 2 ^ 32 else 0),
    (0x0210, fun s => if s.ep.key.running then s.ep.key.number % 2 ^ 32 else 0),
    (0x0218, fun s => if s.ep.acct.running then s.ep.acct.endNs % 2 ^ 64 else 0),
    (0x0220, fun s => if s.ep.key.running then s.ep.key.endNs % 2 ^ 64 else 0),
    (0x0228, fun s => s.ep.head),
    (0x0230, fun s => s.ep.tail),
    (0x0238, fun s => b2n s.ep.mergedFlag),
    (0x0300, fun s => s.keys.carveBase),
    (0x0308, fun s => pack [(b2n s.keys.carveEn, 0), (s.keys.carveLog2, 8), (b2n s.keys.carveReady, 16)]),
    (0x0310, fun s => pack [((32768 - tcount s.keys.slots (fun _ x => x.state != .free)), 0)
                            , (tcount s.keys.slots (fun _ x => x.state == .stale), 16), (4096 - s.keys.extUsed.length, 32)
                            , (tcount s.keys.slots (fun _ x => x.state == .retired), 48)]),
    (0x0318, fun s => bootCount s % 2 ^ 32),
    (0x0320, fun s => s.keys.selfSid.toNat),
    (0x0400, fun s => pack [(s.fw.runVersion % 2 ^ 32, 0), (s.fw.runSec % 2 ^ 32, 32)]),
    (0x0408, fun s => pack [(s.fw.state.code, 0), (b2n s.fw.relay, 3), (b2n s.fw.selfDone, 4), (b2n s.fw.selfPass, 5), (b2n s.fw.rollDone, 6)
                            , (s.fw.lastFallback, 8), (s.fw.chunksDone % 65536, 16)
                            , (if s.fw.state == .probation then cdiv (s.fw.probationEnd - s.clk.now) 1500000000 % 4096 else 0, 32)]),
    (0x0410, fun s => pack [(s.fw.stagedVersion % 2 ^ 32, 0), (s.fw.stagedSec % 2 ^ 32, 32)]),
    (0x0418, fun s => s.fw.actSec % 2 ^ 48),
    (0x0420, fun s => s.fw.actNs % 2 ^ 30),
    (0x0428, fun s => pack [(s.fw.lastPauseUs % 2 ^ 32, 0), (s.fw.lateUs % 2 ^ 32, 32)]),
    (0x0430, fun s => pack [(s.fw.activations, 0), (s.fw.fallbacks, 16)]),
    (0x0438, fun s => pack [(s.fw.campaign % 2 ^ 32, 0), (s.fw.hop % 64, 32)]) ]

/-- BLOCK_ID: SHA-384 of the public identity (18 R443), from the certificate as stored. -/
def blockId (s : State) : Bytes := padTo 48 (Config.digest 0x21 s.id.cert 48)

/-- The copy in force: the one with the higher serial, and its number (18 R446). -/
def winner (t : Tbl Bytes) : Option (Nat × Bytes) :=
  match tget t 0, tget t 1 with
  | some a, some b => if fld a 8 4 < fld b 8 4 then some (1, b) else some (0, a)
  | some a, none => some (0, a)
  | none, some b => some (1, b)
  | none, none => none

/-- The provisioning bundle and the pairing certificate in force. -/
def provBundle (s : State) : Option Bytes := (winner s.id.prov).map (·.2)
def pairCert (s : State) : Option Bytes := (winner s.id.pairs).map (·.2)

/-- An installed key reads other than zero in the bundle in force (18 Table 18-2). -/
def operatorKeyIn (s : State) : Bool := (provBundle s).any (fun b => !allZero (slice b 60 2049))
def escrowKeyIn (s : State) : Bool := (provBundle s).any (fun b => !allZero (slice b 2109 1665))

def idWords : List (Nat × (State → Nat)) :=
  [ (0x0500, fun s => pack [(s.fuse.lifecycle, 0), (b2n (!s.id.cert.isEmpty), 8), (b2n (operatorKeyIn s), 9)
                            , (b2n (escrowKeyIn s), 10), (b2n (pairCert s).isSome, 11)]),
    (0x0508, fun s => fld (blockId s) 0 8), (0x0510, fun s => fld (blockId s) 8 8), (0x0518, fun s => fld (blockId s) 16 8),
    (0x0520, fun s => fld (blockId s) 24 8), (0x0528, fun s => fld (blockId s) 32 8), (0x0530, fun s => fld (blockId s) 40 8),
    (0x0540, fun s => s.id.src), (0x0548, fun s => s.id.dest),
    (0x0550, fun s => pack [(s.id.op, 0), (s.id.srcLen, 16), (s.id.destLen, 32), (b2n s.id.go, 63)]),
    (0x0558, fun s => pack [(b2n s.id.done, 0), (s.id.status, 8), (s.id.outBytes % 65536, 16)
                            , ((match s.id.rewrap with
                                | some r => r.1
                                | none => 0) % 2 ^ 32, 32)]),
    (0x0560, fun s => pack [(((pairCert s).map (fun b => fld b 8 4)).getD 0, 0), (((provBundle s).map (fun b => fld b 8 4)).getD 0, 32)]) ]

def cmdStat (s : State) : Nat :=
  pack [(b2n s.cmd.halted, 0), (b2n (replyHeld s.cmd), 1), (b2n s.pwr.failSilent, 2), (b2n s.cmd.token.isSome, 3)
        , ((s.cmd.exec.filter (fun e => e.started)).length % 32, 4), ((match s.cmd.token with
            | some t => t.opcode % 65536
            | none => 0), 16), (batonEpoch s % 65536, 32)]

def cmdIrq (c : Cmd) : Nat := pack [(b2n c.irqReply, 0), (b2n c.irqHalt, 1), (b2n c.irqMbox, 2), (b2n c.irqReplyLost, 3)]

def cmdWords : List (Nat × (State → Nat)) :=
  [ (0x1000, fun s => s.cmd.adminBase),
    (0x1008, fun s => pack [(b2n s.cmd.adminEn, 0), (s.cmd.adminLog2, 8)]),
    (0x1010, fun s => s.cmd.adminTail), (0x1018, fun s => s.cmd.adminHead), (0x1020, fun s => s.cmd.replyBase),
    (0x1028, fun s => pack [(b2n s.cmd.replyEn, 0), (s.cmd.replyLog2, 8), (b2n s.cmd.notifyAll, 16)]),
    (0x1030, fun s => s.cmd.replyTail), (0x1038, fun s => s.cmd.replyHead), (0x1040, cmdStat), (0x1048, fun s => cmdIrq s.cmd) ]
  ++ (List.range 16).map (fun i => (0x1080 + 8 * i, fun s => fld s.cmd.mbox (8 * i) 8))
  ++ [ (0x1100, fun s => pack [(b2n s.cmd.mboxGo, 0), (b2n s.cmd.mboxDone, 1)]) ]

def cpwKeys (s : State) (p : Nat) : Nat := pack [(slotsHeld s p % 65536, 0), (cdiv (portSessions s p) 64 % 65536, 16)]

def cpwWords : List (Nat × (State → Nat)) :=
  [ (0x2000, fun s => s.regs.cpsel),
    (0x2010, fun s => pack [(b2n (selPort s).isOpen, 0), ((selPort s).gen % 2 ^ 32, 32)]),
    (0x2018, fun s => ifOpen s (selPort s).sid.toNat), (0x2020, fun s => ifOpen s (selPort s).winBase),
    (0x2028, fun s => ifOpen s (selPort s).winLen), (0x2030, fun s => cpwKeys s s.regs.cpsel), (0x2038, fun s => (selPort s).dbReject),
    (0x2100, fun s => ifOpen s s.regs.ringSel),
    (0x2108, fun s => ifOpen s (ringHeadTail s s.regs.cpsel s.regs.ringSel).1),
    (0x2110, fun s => ifOpen s (ringHeadTail s s.regs.cpsel s.regs.ringSel).2),
    (0x2118, fun s => ifOpen s (ringStat s s.regs.cpsel s.regs.ringSel)),
    (0x2120, fun s => ifOpen s (selPort s).irqBase), (0x2128, fun s => ifOpen s (b2n (selPort s).irqEn)),
    (0x2200, fun s => ifOpen s (signed 64 (lvlBytesNow s (selPort s)))), (0x2208, fun s => ifOpen s (signed 32 (lvlHookNow s (selPort s)))),
    (0x2210, fun s => ifOpen s (portHeld s s.regs.cpsel % 65536)), (0x2218, fun s => (selPort s).late),
    (0x2220, fun s => pack [((selPort s).refDeadline, 0), ((selPort s).refQuota, 16), ((selPort s).refWindow, 32)]) ]

/-- A register of the engine that ENGSEL names, if it is of the kind; otherwise 0. -/
def ifKind (k : Nat) (f : State → Nat → Nat) (s : State) : Nat :=
  if engselValid s.regs.engsel && unitKind s.regs.engsel == k then f s s.regs.engsel else 0

def engWords : List (Nat × (State → Nat)) :=
  [ (0x3000, fun s => s.regs.engsel),
    (0x3100, ifKind 0 nibStat), (0x3108, ifKind 0 (fun s c => (unitOf s c).jobs)), (0x3110, ifKind 0 (fun s c => (unitOf s c).busy)),
    (0x3118, ifKind 0 (fun s c => pack [((unitOf s c).mismatchA, 0), ((unitOf s c).mismatchB, 32)])),
    (0x3120, ifKind 0 (fun s c => pack [((unitOf s c).cured, 0), ((unitOf s c).failed, 32)])),
    (0x3128, ifKind 0 (fun s c => (unitOf s c).suspends)), (0x3180, nibArray),
    (0x3200, ifKind 1 quillStat), (0x3208, ifKind 1 (fun s c => (unitOf s c).jobs)), (0x3210, ifKind 1 (fun s c => (unitOf s c).busy)),
    (0x3218, ifKind 1 (fun s c => pack [((unitOf s c).mismatchA, 0), ((unitOf s c).mismatchB, 32)])),
    (0x3220, ifKind 1 (fun s c => pack [((unitOf s c).cured, 0), ((unitOf s c).failed, 32)])),
    (0x3228, ifKind 1 (fun s c => pack [((unitOf s c).discarded, 0), ((unitOf s c).lost, 32)])), (0x3280, quillArray),
    (0x3300, ifKind 2 hookStat), (0x3308, ifKind 2 (fun s c => (unitOf s c).jobs)), (0x3310, ifKind 2 (fun s c => (unitOf s c).busy)),
    (0x3318, ifKind 2 (fun s c => pack [((unitOf s c).mismatchA, 0), ((unitOf s c).mismatchB, 32)])),
    (0x3320, ifKind 2 (fun s c => pack [((unitOf s c).cured, 0), ((unitOf s c).failed, 32)])),
    (0x3328, ifKind 2 (fun s c => (unitOf s c).exhausted)), (0x3380, hookArray) ]

def selChan (s : State) : Chan := tgetD s.chans s.regs.strsel {}

/-- Words of a frame that its nib has read by now, in proportion to its engine time (log 25). -/
def wordsRead (now words total : Nat) (j : Job) : Nat :=
  if !j.begun then 0 else if j.tStart + j.span + j.idle ≤ now then words else min words (total * (now - j.tStart - j.idle) / j.span)

/-- Words of a frame held in the FIFO: waiting, deferred, or not yet read by its nib (11, before R293). -/
def frameWords (s : State) (x : Frame) : Nat :=
  if x.discard || x.done then 0
  else match x.job with
    | none => x.words
    | some q => match tfind s.jobs (fun _ j => j.seq == q) with
      | none => 0
      | some (_, j) => match j.phase with
        | .fetched | .checked | .deferred | .held => x.words
        | .queued => if j.retried then 0 else x.words - wordsRead s.clk.now x.words (cdiv x.len 32) j
        | _ => 0

/-- Words held in a channel's FIFO (11 R293). -/
def chanWords (s : State) (c : Chan) : Nat := c.frames.foldl (fun a f => a + frameWords s f) 0

/-- XOFF of an open channel by its watermarks (11 R293; 02 R46). -/
def xoffNext (s : State) (c : Chan) : Bool :=
  if c.isOpen && !c.closing && coreOn s then
    (let occ := 32 * chanWords s c; if c.hwm ≤ occ then true else if occ ≤ c.lwm then false else c.xoff)
  else c.xoff

/-- XOFF of every channel by the net occupancy. -/
def refreshXoff (s : State) : State := { s with chans := tmap s.chans (fun _ c => { c with xoff := xoffNext s c }) }

def strStat (s : State) (c : Chan) : Nat :=
  pack [(b2n c.isOpen, 0), (b2n c.xoff, 1), (0, 2), (b2n (c.frames.any (fun f => !f.eof)), 3), (chanWords s c % 4096, 16), (c.owner, 32)]

/-- STR_STAT with DEFERRED taken from the job of the head frame (11 Table 11-3). -/
def strStatAt (s : State) (n : Nat) : Nat :=
  let d := s.jobs.any (fun e => e.2.phase == .deferred && (match e.2.src with
    | .stream x _ => x == n
    | _ => false))
  strStat s (tgetD s.chans n {}) + 4 * b2n d

def xoffWord (s : State) : Nat := s.chans.foldl (fun a e => if e.2.xoff && decide (e.1 < 64) then a + 2 ^ e.1 else a) 0

def strWords : List (Nat × (State → Nat)) :=
  [ (0x4000, fun s => s.regs.strsel), (0x4008, fun s => pack [(b2n (selChan s).dirTag, 0), ((selChan s).tagLog2, 8)]),
    (0x4010, fun s => (selChan s).tagBase), (0x4018, fun s => strStatAt s s.regs.strsel),
    (0x4020, fun s => pack [((selChan s).hwm, 0), ((selChan s).lwm, 32)]), (0x4028, fun s => (selChan s).count % 2 ^ 64),
    (0x4030, fun s => pack [((selChan s).disabled, 0), ((selChan s).dropped, 32)]),
    (0x4038, fun s => pack [((selChan s).trunc, 0), ((selChan s).poison, 16), ((selChan s).overflow, 32)]), (0x4100, xoffWord) ]

def fltWords : List (Nat × (State → Nat)) :=
  [ (0x5000, fun s => (s.flt.queue.head?.getD 0).toNat), (0x5008, fltQstat), (0x5010, fun s => s.flt.overflow), (0x5018, fltStat),
    (0x5020, fun s => pack [(s.flt.errpwUs, 0), (s.flt.reactMs, 32)]), (0x5028, fltReact), (0x5030, fun s => s.flt.irqAddr),
    (0x5038, fun s => b2n s.flt.irqEn) ]

def timWords : List (Nat × (State → Nat)) :=
  [ (0x6000, fun s => s.tim.capSec), (0x6008, fun s => s.tim.capNs), (0x6010, fun s => s.tim.capStat.toNat),
    (0x6018, fun s => uncertainty s.clk.now s.tim), (0x6020, fun s => s.tim.capEpoch % 2 ^ 64), (0x6028, fun s => signed 64 s.tim.offset),
    (0x6030, fun s => pack [(s.tim.minRank, 0), (s.tim.slewPpm, 8)]),
    (0x6038, fun s => pack [(s.tim.steps, 0), (s.tim.backsteps, 16), (s.tim.invalid, 32), (s.tim.ppsMissing, 48)]) ]

def rngStat (s : State) : Nat :=
  pack [(b2n (!s.rng.data.isEmpty), 0), (b2n s.rng.underrun, 1), (rngState s, 2), (min 4 (cellsIn s .online), 8), (cellsIn s .spare, 16)
        , (cellsIn s .failed, 24), (((List.range 8).foldl (fun a i => if feedReady s i then a + 2 ^ i else a) 0), 32)]

def cellStat (s : State) : Nat := s.rng.cells.foldl (fun a e => if e.1 < 16 then a + e.2.state.code * 4 ^ e.1 else a) 0

def rngEntropy (s : State) : Nat :=
  pack [(s.rng.pool % 32, 0), (((List.range 8).foldl (fun a i => if (tgetD s.rng.feeds i {}).reserve then a + 2 ^ i else a) 0), 8)]

def rngWords : List (Nat × (State → Nat)) :=
  [ (0x7000, fun s => (s.rng.data.head?.getD 0).toNat), (0x7008, rngStat), (0x7010, cellStat),
    (0x7018, fun s => pack [(s.rng.rct, 0), (s.rng.apt, 32)]), (0x7020, fun s => s.rng.period),
    (0x7028, fun s => pack [(s.rng.reseeds % 2 ^ 32, 0), (s.rng.mismatch, 32)]), (0x7030, rngEntropy) ]

def folStat (s : State) : Nat :=
  pack [(s.fol.state.code, 0), (b2n s.fol.seated, 4), (b2n s.fol.power, 5), (b2n s.fol.wide, 6), (b2n s.fol.password.isSome, 7)
        , (s.fol.div % 2048, 16)]

def folCnt (s : State) : Nat :=
  pack [(s.fol.crc, 0), (s.fol.retries, 16), (s.fol.recoveries, 32), (s.fol.insertions, 48)]

def folWords : List (Nat × (State → Nat)) :=
  [ (0x8000, folStat), (0x8008, fun s => pack [(s.fol.busyMs, 0), (s.fol.clkMax, 16), (b2n s.fol.intent, 24)]),
    (0x8010, fun s => fld s.fol.ident 0 8), (0x8018, fun s => fld s.fol.ident 8 8), (0x8020, fun s => fld s.fol.ident 16 8),
    (0x8028, fun s => fld s.fol.ident 24 8), (0x8030, fun s => pack [(s.fol.genA % 2 ^ 32, 0), (s.fol.genB % 2 ^ 32, 32)]), (0x8038, folCnt) ]

/-- VERSION of the active settings bank. -/
def activeVersion (n : Nvm) : Nat := ((tget n.banks n.activeBank).bind (·.version)).getD 0

def nvmStat (s : State) : Nat :=
  pack [(b2n (!s.nvm.ops.isEmpty), 0), (b2n s.nvm.settingsDefault, 1), (s.nvm.activeBank % 2, 2), (b2n s.nvm.brownout, 3)
        , (min 255 (s.nvm.ops.length - 1), 8)]

def nvmWords : List (Nat × (State → Nat)) :=
  [ (0x9000, nvmStat), (0x9008, fun s => activeVersion s.nvm % 2 ^ 32),
    (0x9010, fun s => pack [(nvmSpares s.nvm % 256, 0), (nvmRetired s.nvm % 256, 16), (nvmMaxErase s.nvm % 2 ^ 17, 32)]),
    (0x9018, fun s => pack [(s.nvm.erases % 2 ^ 32, 0), (s.nvm.halfErased, 32)]),
    (0x9020, fun s => pack [(s.nvm.corrected, 0), (s.nvm.uncorrectable, 32)]), (0x9028, fun s => s.regs.sectorSel),
    (0x9030, fun s =>
      let x := sectorOf s.nvm s.regs.sectorSel
      if 1152 ≤ s.regs.sectorSel then 0
      else pack [(x.erases % 2 ^ 17, 0), (x.state.code, 24), (if x.state == .mapped || x.state == .bad then x.logical % 1024 else 0, 32)]) ]

def laneStat (l : Lane) : Nat :=
  pack [((l.rx.getD 0x3F) % 64, 0), ((l.tx.getD 0x3F) % 64, 8), (l.rxRole.code, 16), (l.txRole.code, 20), (b2n l.locked, 24)
        , (b2n l.inverted, 25), (l.skew % 16, 32)]

def laneWords : List (Nat × (State → Nat)) :=
  [ (0xA000, fun s => s.regs.lanesel), (0xA008, fun s => b2n s.link.rate), (0xA010, fun s => s.link.errLimit),
    (0xA018, fun s => pack [(b2n s.link.up, 0), (b2n s.link.half, 1), (b2n s.link.training, 2), (lanesLocked s % 64, 8)
                            , (spareLanes s % 4, 16), (s.link.step % 8, 20)]),
    (0xA020, fun s => pack [(s.link.naksSent, 0), (s.link.naksReceived, 16), (s.link.retrains, 32), (s.link.substitutions, 48)]),
    (0xA100, fun s => if s.regs.lanesel < 34 then laneStat (laneOf s s.regs.lanesel) else 0),
    (0xA108, fun s => if s.regs.lanesel < 34 then pack [((laneOf s s.regs.lanesel).invalid, 0), ((laneOf s s.regs.lanesel).lockLosses, 32)] else 0) ]

/-- The unit that the next sweep step names (13 R334): RETIRED and ISOLATED units are passed over. -/
def nextSweepUnit (us : Tbl EUnit) (k ptr : Nat) : Nat :=
  let l := (unitsOfKind us k).filter (fun u => u.2.role != .retired && u.2.role != .isolated)
  match l.find? (fun u => decide (ptr ≤ u.1)) with
  | some u => u.1
  | none => (l.head?.map (·.1)).getD ptr

def sweepPtr (d : Darn) (k : Nat) : Nat := if k = 0 then d.ptrNib else if k = 1 then d.ptrQuill else d.ptrHook

def sweepStat (s : State) : Nat :=
  pack [(((s.darn.test.map (·.unit)).orElse (fun _ => s.darn.tests2.head?.map (·.unit))).getD 0x3FF, 0), (s.darn.nextKind, 16)
        , (nextSweepUnit s.eng.units s.darn.nextKind (sweepPtr s.darn s.darn.nextKind), 32)]

def sweepCnt (s : State) : Nat := pack [(s.darn.tests % 2 ^ 32, 0), (s.darn.skipped, 32), (s.darn.failed, 48)]

def inventory (s : State) : Nat :=
  pack [(spareCount s.eng.units 0 % 16, 0), (spareCount s.eng.units 1 % 16, 4), (spareCount s.eng.units 2 % 16, 8), (cellsIn s .spare % 16, 12)
        , (spareLanes s % 4, 16), (nvmSpares s.nvm % 256, 24), (if 2 ≤ s.pwr.stage then rowSparesAll s % 65536 else 0, 32)]

def rowStat (s : State) : Nat :=
  let a := s.regs.rowSel
  let r := arrayOf s a
  if arrayPresent s.pins.formL a then
    pack [(1, 0), (sparesLeft s a % 256, 8), (r.fuse % 256, 16), (r.runtime.length % 256, 24), (b2n (!r.copies.isEmpty), 32)]
  else 0

def darnWords : List (Nat × (State → Nat)) :=
  [ (0xB000, fun s => pack [(b2n s.darn.enable, 0), (s.darn.period % 4096, 16)]), (0xB008, sweepStat), (0xB010, sweepCnt),
    (0xB018, fun s => pack [(s.darn.lastResult % 2 ^ 32, 0), (s.darn.lastUnit, 32)]), (0xB020, inventory),
    (0xB028, fun s => pack [(s.darn.floorNib, 0), (s.darn.floorQuill, 8), (s.darn.floorHook, 16)]),
    (0xB030, fun s => pack [(s.darn.alertUnits, 0), (s.darn.alertRows, 8)]), (0xB038, fun s => s.regs.rowSel), (0xB040, rowStat),
    (0xB048, fun s => pack [(s.darn.repairs % 2 ^ 32, 0), (s.darn.unrecorded % 256, 32)]) ]

/-- The fault bitmaps (12 Table 12-7). -/
def bitmapWord (s : State) (off : Nat) : Option Nat :=
  if off < 0x5400 ∨ 0x5C00 ≤ off then none
  else
    let w := off % 0x200 / 8
    some (match (off - 0x5400) / 0x200 with
      | 0 => srcWord s w (fun r => r.sticky)
      | 1 => srcWord s w (fun r => r.severe)
      | 2 => srcWord s w (fun r => r.severe && !r.acked)
      | _ => srcWord s w (fun r => !r.inject.isEmpty))

/-- The register list of a group. -/
def groupWords (off : Nat) : List (Nat × (State → Nat)) :=
  match off / 0x1000 with
  | 0 => if off < 0x500 then glbWords else idWords
  | 1 => cmdWords | 2 => cpwWords | 3 => engWords | 4 => strWords | 5 => fltWords | 6 => timWords | 7 => rngWords | 8 => folWords
  | 9 => nvmWords | 10 => laneWords | 11 => darnWords
  | _ => []

/-- The contents of the register at an offset; none where the offset is undefined (19 R450). In LA-1024/F the LANE group
reads 0 (19, Table 0-1). -/
def regWord (s : State) (off : Nat) : Option Nat :=
  match bitmapWord s off with
  | some w => some w
  | none => ((groupWords off).find? (fun r => r.1 == off)).map
      (fun r => if off / 0x1000 = 10 ∧ !s.pins.formL then 0 else r.2 s)

/-! ### Start complete (14 R359; 02 R39) -/

/-- The bus at rest, with no Folio command and nothing to repeat. -/
def cardRest (f : Folio) : Folio :=
  { f with task := .none, cur := none, wait := .none, attempt := 0, settings := [], recovered := false, resume := none, cid := none
           pwFailAt := none }

/-- Slot power removed, with the bus at rest (17 R418, R420, R421). -/
def cardOff (f : Folio) : Folio := { cardRest f with power := false, wide := false, div := 2000 }

/-- Table 17-2 runs from step 2 whenever a card is seated and POWER_INTENT is 1 (17 R421). -/
def cardRestart (f : Folio) : Folio :=
  { cardOff f with state := if !f.seated then .empty else if f.intent then .probing else .poweredOff }

/-- Some fabric port is in service. -/
def portsReady (s : State) : Bool := (List.range 4).any (fun n => portUp (fabEnv s) n (portN s n))

/-- The start has done everything but the lanes and the ports: step 7, or step 8 with the training over. -/
def startWaits (s : State) : Bool :=
  coreOn s && (if s.pins.formL then s.pwr.stage == 6 && !s.link.training else s.pwr.stage == 5)

/-- The start ends once a fabric port is in service: admission opens, and the sweep, the credit measurement, the rotation of the cells
and the idle time begin. -/
def startComplete (s : State) : State :=
  if startWaits s && portsReady s then
    { s with
      pwr := { s.pwr with stage := 7, fsCause := 0, state := .p0, completeUs := (s.clk.now - s.pwr.releasedAt) / 1500, idleSince := s.clk.now
                          deepSince := s.clk.now }
      darn := { s.darn with nextDue := if s.darn.enable && s.darn.period != 0 then some (s.clk.now + cyMs (1000 * s.darn.period)) else none }
      fab := { s.fab with measureAt := s.clk.now + 15000 }
      rng := { s.rng with rotateAt := s.clk.now + cyMs (1000 * s.rng.period) }
      fol := cardRestart s.fol }
  else s

/-! ### Idle (14 R353) -/

/-- No fabric write is on its way or waits for its acknowledgement. -/
def writesDone (s : State) : Bool :=
  s.fab.waiting.all (fun r => r.kind == .rd) && s.fab.ports.all (fun p => p.2.txns.all (fun t => t.req.kind == .rd))

/-- A card being identified or recovered counts as a command in execution (17 R421). -/
def cardBusy (f : Folio) : Bool := f.state == .probing || f.state == .identifying || f.state == .recovering || f.task != .none

/-- P1-idle. -/
def p1Idle (s : State) : Bool :=
  s.jobs.isEmpty && s.skein.leaf.isEmpty && s.skein.urgent.isEmpty && s.cmd.exec.isEmpty && !cardBusy s.fol
    && (!s.cmd.adminEn || s.cmd.adminHead == s.cmd.adminTail) && !s.cmd.mboxGo && !s.chans.any (fun c => c.2.isOpen)
    && s.darn.test.isNone && writesDone s

/-- Deep-idle. -/
def deepIdle (s : State) : Bool :=
  p1Idle s && (firstTimer s.flt).isNone && s.cmd.token.isNone && s.cmd.held.isEmpty && s.cmd.replyOut.isNone
    && !s.darn.arrays.any (fun a => !a.2.copies.isEmpty)

/-- The idle times restart at every instant at which a condition does not hold. -/
def trackIdle (s : State) : State :=
  { s with pwr := { s.pwr with idleSince := if p1Idle s then s.pwr.idleSince else s.clk.now
                               deepSince := if deepIdle s then s.pwr.deepSince else s.clk.now } }

/-! ### Interrupts of completion rings (04 R121) -/

/-- Whether a trigger of the ring is met. -/
def irqDue (now : Nat) (r : Ring) : Bool :=
  r.irqNow || (r.coalCount != 0 && decide (r.coalCount ≤ r.counted))
    || (r.coalUs != 0 && decide (0 < r.counted) && decide (r.oldest + cyUs r.coalUs ≤ now))

end Sys2Proof.Machine
end

