-- ==== Sys2Proof/Machine/Control.lean ====
section
/-! DEFINITION. The control path: the admin ring, deadlines and policy fences (03 R69 to R90, R464). -/
namespace Sys2Proof.Machine

/-! ### The admin ring -/

def adminSize (c : Cmd) : Nat := ringBytes c.adminLog2

/-- Bytes from an offset to CMD_ADMIN_TAIL. -/
def adminAvail (c : Cmd) (off : Nat) : Nat := (c.adminTail + adminSize c - off % adminSize c) % adminSize c

/-- The read of the next admin-ring bytes into CTRL SRAM, one at a time, within a page and the ring (03 R70). -/
def adminFetch (s : State) : State :=
  let c := s.cmd
  let n := min (adminAvail c c.readPtr) (min (4096 - (c.adminBase + c.readPtr) % 4096) (adminSize c - c.readPtr % adminSize c))
  if running s && c.adminEn && !c.halted && c.haltReply.isNone && c.readFail.isNone && !c.readOut && decide (0 < n) then
    issue (readReqs s.keys.selfSid true .lowest (fun _ => .admin c.adminGen) (c.adminBase + c.readPtr) n)
      { s with cmd := { c with readOut := true } }
  else s

/-- The admin ring halts (03 R71, R464). -/
def haltAdmin (s : State) : State := { s with cmd := { s.cmd with halted := true, irqHalt := true } }

/-- CMD_ADMIN_CTRL.RESET (03 Table 3-1): it acts only while HALTED is 1 or EN is 0. The packets in execution go on; their offsets name nothing
in the ring any more. -/
def adminReset (s : State) : State :=
  if s.cmd.halted || !s.cmd.adminEn then
    { s with cmd := { s.cmd with adminHead := 0, adminTail := 0, halted := false, readPtr := 0, takePtr := 0, landing := [], readOut := false
                                 adminGen := s.cmd.adminGen + 1, tailTimes := [], answered := [], commitLog := [], haltReply := none, readFail := none } }
  else s

/-- The opcode that the firmware activity holds the token under (03 R81). -/
def fwToken : Nat := 0x0700

/-- The entry joins execution; a mailbox packet goes ahead of the entries not yet started (03 R73). -/
def enqueueEntry (now : Nat) (e : CmdEntry) (c : Cmd) : Cmd :=
  let started := c.exec.filter (fun x => x.started)
  let rest := c.exec.filter (fun x => !x.started)
  startAll now { c with exec := if e.via == .mailbox then started ++ e :: rest else c.exec ++ [e], nextCid := c.nextCid + 1 }

/-- Whether a whole packet stands in CTRL SRAM. -/
def packetLanded (c : Cmd) : Bool := decide (8 ≤ c.landing.length) && decide (8 * fld c.landing 4 2 ≤ c.landing.length)

/-- A failed admin-ring read halts fetching once the packets before it are taken up (03 R464). -/
def readFailHalt (s : State) : State :=
  match s.cmd.readFail with
  | some f => if packetLanded s.cmd || s.cmd.halted then s
      else raiseEvent 0x0A3 f.1 f.2 (haltAdmin { s with cmd := { s.cmd with readFail := none } })
  | none => s

/-- COMMAND_DEADLINE_EXPIRY: an unstarted command past its latest start (03 R80). -/
def execCommandDeadlineExpiry (s : State) : Host.Outcome State Fault Refusal :=
  .next (if running s then
      match s.cmd.exec.find? (fun e => !e.started && !(runnable s.clk.now s.cmd).any (fun x => x.cid == e.cid) && (match e.due with
          | some t => decide (t ≤ s.clk.now)
          | none => false)) with
      | some e => answer e .deadlineMissed [] s
      | none => s
    else s)

/-! ### Policy fences (03 R88 to R90) -/

/-- Whether a job works under the object of a fence. -/
def fenceHits (obj : FenceObj) (j : Job) : Bool :=
  match obj with
  | .port p => j.port == p
  | .key h => (match j.sess with
      | some r => r.key == h && r.owner == j.port
      | none => false)
  | .session h => j.desc.handle == h
  | .binding h ring => j.desc.handle == h && (match j.src with
      | .ring id _ => id == ring
      | _ => false)
  | .ring id => j.cpl == id || (match j.src with
      | .ring x _ => x == id
      | _ => false)
  | .channel n => (match j.src with
      | .stream x _ => x == n
      | _ => false)
  | .lease w => j.desc.op == 0x20 && j.desc.aux == w

/-- Fetch numbers of the admitted jobs that a fence waits for. -/
def fenceJobs (s : State) (port : Nat) (obj : FenceObj) : List Nat :=
  (s.jobs.filter (fun e => e.2.counted && e.2.port == port && fenceHits obj e.2)).map (fun e => e.2.seq)

/-- Jobs that the earlier fences of the same key still wait for (03 R90). -/
def earlierJobs (s : State) (e : CmdEntry) : List Nat :=
  (s.cmd.exec.filter (fun x => x.port == e.port && x.cid != e.cid)).flatMap (fun x => match x.fence with
    | some f => f.jobs
    | none => [])

/-- Whether a REVOKE stops the job: one that already completes with another status goes on (03 R89). -/
def revokable (s : State) (q : Nat) : Bool :=
  match jobBySeq s q with
  | some (_, j) => !(j.phase == .merge || j.phase == .posted || j.phase == .scrub)
  | none => false

/-- One job stopped under REVOKE (03 R89); a nib that held it suspended holds nothing. -/
def revokeJob (q : Nat) (s : State) : State :=
  match jobBySeq s q with
  | none => s
  | some (i, _) =>
    if !revokable s q then s
    else
      failJob i .policyRevoked 0 (setJob i (fun x => { x with revoked := true, waitPrev := false }) s)

/-- Whether a job of the fence, admitted when it was set, is still in the job table: its record is not acknowledged (03 R88). -/
def fenceOpen (s : State) (f : Fence) : Bool := f.jobs.any (fun q => s.jobs.any (fun e => e.2.seq == q))

/-- A fence set on a command after its commit, with the reply that follows it; DETAIL counts the jobs that are drained, or with REVOKE
those that it revokes (03 R88, R89). -/
def setFence (e : CmdEntry) (obj : FenceObj) (payload : Bytes) (s : State) : State :=
  let rv := isRevoke e
  let mine := fenceJobs s e.port obj
  let js := if rv then mine ++ (earlierJobs s e).filter (fun q => !mine.contains q) else mine
  let n := if rv then (js.filter (revokable s)).length else js.length
  let r := replyTo s e .ok n payload true
  let s1 := if rv then js.foldl (fun a q => revokeJob q a) s else s
  setEntry e.cid (fun x => { x with fence := some { obj := obj, revoke := rv, jobs := js, count := n }, reply := some r }) (logCommit e s1)

/-- The oldest fence whose jobs are all out of the job table, with no earlier fence of its key waiting (03 R90). -/
def drained (s : State) : Option (CmdEntry × Fence) :=
  s.cmd.exec.findSome? (fun e => match e.fence with
    | some f =>
      if fenceOpen s f || s.cmd.exec.any (fun x => decide (x.cid < e.cid) && x.port == e.port && x.fence.isSome) then none
      else some (e, f)
    | none => none)

end Sys2Proof.Machine
end

