-- ==== Sys2Proof/Machine/Running.lean ====
section
/-! DEFINITION. Jobs on their engines: what starts in a cycle, what a start does, and idle cycles for input that comes late (01 R25; 05
R130, R137, R138; 06 R168, R185; 07 R190 to R192, R208, R211; 08 R223, R226, R232, R240; 09 R244, R245, R248, R252, R262). -/
namespace Sys2Proof.Machine

/-- The end of a job's engine time, idle cycles included (01 R21, R25). -/
def engineStop (j : Job) : Nat := j.tStart + j.span + j.idle

/-! ### Late starts move the queue -/

/-- Queued jobs, in order of their start, each no earlier than the jobs ahead of it on its unit end; a suspended job does not hold up the
URGENT work that it makes way for (01 R25, 05 R130). -/
def settleFrom (ahead q : List (Nat × Job)) : List (Nat × Job) :=
  match q with
  | [] => []
  | x :: r =>
    let t := ahead.foldl (fun a y =>
      if sharesUnit (x.2.unit, x.2.lane) y.2 && x.2.under != some y.2.seq then max a y.2.tEnd else a) x.2.tStart
    let x' : Nat × Job := (x.1, { x.2 with tStart := t, tEnd := t + (x.2.tEnd - x.2.tStart) })
    x' :: settleFrom (x' :: ahead) r

/-- Fetch numbers of the jobs that an OPERAND_CLEAR follows: those admitted on its lease before it (09 R262). -/
def clearJobs (s : State) (cid : Option Nat) : List Nat := ((cid.bind (entryOf s)).map (·.work)).getD []

/-- Zeroings of leases behind jobs that end late (09 R262): the lease and the cycles by which it moves. -/
def lateClears (s : State) : List (Nat × Nat) :=
  s.eng.leases.filterMap (fun l => match l.2.zeroing with
    | none => none
    | some (t, cid) =>
      let work := clearJobs s cid
      let from_ := s.jobs.foldl (fun a e => if onUnit e.2 && work.contains e.2.seq then max a e.2.tEnd else a) 0
      let t' := if from_ = 0 then t else max t (from_ + cyHook (32 * l.2.windows.length))
      if t < t' then some (l.1, t' - t) else none)

/-- The queues of the units after a job has started, ended or been held up late. -/
def settleQueues (s : State) : State :=
  let q := (s.jobs.filter (fun e => onUnit e.2 && !e.2.waitPrev)).foldl (fun a e => insertByStart e a) []
  let moved := settleFrom (q.filter (fun e => e.2.begun)) (q.filter (fun e => !e.2.begun))
  { s with jobs := tmap s.jobs (fun i j => match moved.find? (fun x => x.1 == i) with
             | some x => x.2
             | none => j)
           eng := { s.eng with leases := moveClears (lateClears s) s.eng.leases } }

/-! ### What may start -/

/-- A job of the unit stands before `j`: it runs, or its turn is earlier; a suspended job stands before all work but the URGENT work that
it makes way for (05 R137, R138; 07 R191, R211). -/
def standsBefore (x j : Job) : Bool :=
  onUnit x && sharesUnit (j.unit, j.lane) x && !x.waitPrev
    && (if x.phase = .suspended then j.under != some x.seq
        else x.begun || decide (x.tStart < j.tStart) || (x.tStart == j.tStart && decide (x.seq < j.seq)))

/-- An earlier part of the job's message, or an earlier job on its lease, that has not ended (08 R223, 09 R244). -/
def earlierPart (x j : Job) : Bool :=
  let quill := fun (d : Desc) => decide (0x10 ≤ d.op) && decide (d.op ≤ 0x13)
  onUnit x && decide (x.seq < j.seq) && x.desc.handle == j.desc.handle
    && (if j.desc.op = 0x20 then x.desc.op == 0x20 && x.desc.aux == j.desc.aux else quill j.desc && quill x.desc && x.msg == j.msg)

/-- A zeroing that the job stands behind: one queued on its hook before it, or an OPERAND_CLEAR of its lease that it was admitted after
(09 R262). -/
def clearAhead (s : State) (j : Job) : Bool :=
  s.eng.leases.any (fun l => l.2.hook == j.unit && (match l.2.zeroing with
    | none => false
    | some (t, cid) => decide (t ≤ j.tStart)
        || (l.1 == j.desc.aux % 512 && !(clearJobs s cid).contains j.seq)))

/-- Contexts or windows are being copied to the unit, or will be at the end of a drain that it waits for (08 R226, 09 R245). -/
def copyingTo (s : State) (c : Nat) : Bool :=
  s.eng.units.any (fun u => u.2.copying == some c || (match u.2.drain with
    | some d => d.replacement == some c
    | none => false))

/-- The pair of the job is being changed: while one of its nibs drains, only the jobs admitted before the request start, and the others
once the switch is over (01 R26; 13 Table 13-2). -/
def switching (s : State) (j : Job) : Bool :=
  unitKind j.unit == 0 && (match (members s.eng.units j.unit).findSome? (fun c => (unitOf s c).drain) with
    | some d => !d.jobs.contains j.seq
    | none => decide (s.clk.now < (unitOf s j.unit).freeAt))

/-- Whether an admitted job starts now: its start has come, nothing stands before it, and what it starts from is here: a Hook job's whole
input (09 R252), a key spilled at P3 (06 R169). -/
def canBegin (s : State) (e : Nat × Job) : Bool :=
  let j := e.2
  j.counted && j.phase == .queued && !j.begun && !j.waitPrev && j.status == .ok && decide (j.tStart ≤ s.clk.now)
    && !s.jobs.any (fun x => x.1 != e.1 && (standsBefore x.2 j || earlierPart x.2 j))
    && !copyingTo s j.unit && !switching s j
    && (match j.sess with
        | some r => (r.key == 0 || !(keyOf s r.key).spilled || keyStatus s j.port r.key != .ok)
            && (!isHook r.alg || (j.readsLeft == 0 && !clearAhead s j))
        | none => true)

/-! ### A start -/

/-- The input of a Hook job committed to its lease: from byte 0 of SLOT_IN on, the rest of the last slot zeroed; a completed
load clears CONTENTS_LOST (09 R247, R252). -/
def commitLoad (i : Nat) (s : State) : State :=
  match jobOf s i with
  | none => s
  | some j =>
    if j.desc.op ≠ 0x20 ∨ !hLoad j.desc ∨ j.loaded then s
    else match leaseAt s j.desc.aux with
      | none => s
      | some (ix, l) =>
        let b := joinParts j.inGot
        let full := padTo (512 * cdiv b.length 512) b
        let l' : Lease := { l with data := Memory.writeBytes l.data (512 * hIn j.desc) full, contentsLost := false }
        setJob i (fun x => { x with loaded := true }) { s with eng := { s.eng with leases := tput s.eng.leases ix l' } }

/-- The context that a Nib job takes on both nibs of its pair: entry 0 for a wide job, 1 to 8 for the lanes (07 R192). -/
def openCtx (j : Job) (s : State) : State :=
  let n := match j.lane with
    | none => 0
    | some l => l + 1
  let c : NibCtx := { configGen := j.configGen, port := j.port, job := j.seq, key := j.keyMat, seeds := j.draw }
  { s with eng := modUnits (members s.eng.units j.unit) (fun u => { u with ctx := tput u.ctx n c }) s.eng }

/-- What a start takes from the slot of its key: the key, if the handle still names a VALID slot; the admitted job keeps the key that an
epoch close has revoked since (06 R166, R185; 08 R232; 09 R248). -/
def startKey (j : Job) (r : Session) (s : State) : Job :=
  let sl := keyOf s r.key
  if r.key ≠ 0 ∧ keyStatus s j.port r.key = .ok then { j with keyMat := keyBytes sl, kL := sl.kL } else j

/-- Whether a part's context is gone at its start (08 R227, R240). -/
def contextGone (s : State) (r : Session) (j : Job) : Bool := quillPart r j.desc && (messageOf s j).isNone

/-- A job starts on its engine. -/
def beginJob (i : Nat) (j : Job) (r : Session) (s : State) : State :=
  let s1 := if r.key ≠ 0 then slotUsed j.port r.key s else s
  if r.key ≠ 0 ∧ keyStatus s1 j.port r.key = .keyStale then failJob i .keyStale 0 s1
  else if contextGone s1 r j then failJob i .contextLost 0 s1
  else
    let late := s1.clk.now - j.tStart
    let j1 := { startKey j r s1 with begun := true, tStart := j.tStart + late, tEnd := j.tEnd + late }
    let s2 := setJob i (fun _ => j1) s1
    if isNib r.alg then openCtx j1 s2 else if isHook r.alg then commitLoad i s2 else s2

/-- The jobs that start now, one after another. -/
def beginGo (fuel : Nat) (s : State) : State :=
  match fuel with
  | 0 => s
  | f + 1 =>
    match s.jobs.find? (canBegin s) with
    | none => s
    | some (i, j) => match j.sess with
      | none => s
      | some r => beginGo f (beginJob i j r s)

/-- Every job whose start has come starts (05 R130). -/
def startDue (s : State) : State := if running s then beginGo s.jobs.length (settleQueues s) else s

/-! ### Input that comes late (01 R25) -/

/-- The engine has waited since `need` for what is here now: idle cycles, and a later end (log 24). -/
def stallJob (i need : Nat) (s : State) : State :=
  setJob i (fun x =>
    if x.begun ∧ x.phase = .queued ∧ need < s.clk.now then
      let y := { x with idle := x.idle + (s.clk.now - need) }
      { y with tEnd := max y.tEnd (engineStop y) }
    else x) s

/-- The cycle in which a started job needs byte `off` of `n` bytes of input. -/
def neededAt (j : Job) (off n : Nat) : Nat := j.tStart + j.idle + j.span * off / max 1 n

end Sys2Proof.Machine
end

