-- ==== Sys2Proof/Machine/Doorbells.lean ====
section
/-! DEFINITION. Doorbells: the checks of 02 R43 and 04 R97, R98, R100, the marks of Skein's bitmap (04 R91, R92), and the
doorbell porch (02 R42, 14 R357). -/
namespace Sys2Proof.Machine

/-- A bit of a table of 64-bit words set; a word that is 0 is not listed. -/
def setBit (t : Tbl (BitVec 64)) (n : Nat) : Tbl (BitVec 64) :=
  tput t (n / 64) (tgetD t (n / 64) 0 ||| BitVec.ofNat 64 (2 ^ (n % 64)))

/-- A bit cleared. -/
def clearBit (t : Tbl (BitVec 64)) (n : Nat) : Tbl (BitVec 64) :=
  let w := tgetD t (n / 64) 0 &&& ~~~BitVec.ofNat 64 (2 ^ (n % 64))
  if w = 0 then tdel t (n / 64) else tput t (n / 64) w

/-- The doorbell bit of a ring set, with its summary and top bits; an URGENT ring has its bit in the urgent vector
(04 R91, R92). -/
def markRing (id : Nat) (urgent : Bool) (k : Skein) : Skein :=
  if urgent then (if k.urgent.contains id then k else { k with urgent := k.urgent ++ [id] })
  else { k with leaf := setBit k.leaf id, summary := setBit k.summary (id / 64), top := setBit k.top (id / 4096) }

/-- The bit of a ring cleared; a summary or top bit falls with the last bit below it (04 R91). -/
def unmarkRing (id : Nat) (k : Skein) : Skein :=
  let leaf := clearBit k.leaf id
  let sum := if (tget leaf (id / 64)).isNone then clearBit k.summary (id / 64) else k.summary
  let top := if (tget sum (id / 4096)).isNone then clearBit k.top (id / 4096) else k.top
  { k with urgent := k.urgent.filter (· != id), leaf := leaf, summary := sum, top := top }

/-- A doorbell discarded and counted in CPW_DB_REJECT, with or without a Row Counter event (02 R43, 04 R97). -/
def rejectBell (page off : Nat) (event : Bool) (s : State) : State :=
  let s1 := { s with ports := tmodD s.ports page {} (fun p => { p with dbReject := satAdd 32 p.dbReject 1 }) }
  if event then raiseEvent (portSrc page) kDoorbellReject off s1 else s1

/-- A new tail accepted for a descriptor ring: it replaces an unused one, carries its doorbell's acceptance time, and marks
the ring (04 R92, R98; 05 R139). A draining ring discards it (Table 4-3). -/
def acceptTail (id tail at_ : Nat) (r : Ring) (s : State) : State :=
  if r.draining then s
  else { s with rings := tput s.rings id { r with tail := tail, stamps := r.stamps ++ [(tail, at_)] }
                skein := markRing id r.urgent s.skein }

/-- A new head for a completion ring (04 R100). -/
def acceptHead (page off id head : Nat) (r : Ring) (s : State) : State :=
  let n := 2 ^ r.log2
  if r.draining then s
  else if n ≤ head ∨ (r.tail + n - r.head % n) % n < (head + n - r.head % n) % n then rejectBell page off false s
  else { s with rings := tput s.rings id { r with head := head } }

/-- A direct doorbell write to a slot (04 Table 4-2). -/
def directBell (b : Bell) (s : State) : State :=
  let tail := bits b.data.toNat 0 16
  match tfind s.rings (fun _ r => r.port == b.page && r.slot == some b.slot && !r.isCpl) with
  | none => rejectBell b.page (8 * b.slot) false s
  | some (id, r) =>
    if bits b.data.toNat 16 48 ≠ 0 ∨ 2 ^ r.log2 ≤ tail then rejectBell b.page (8 * b.slot) false s
    else acceptTail id tail b.at_ r s

/-- An indirect doorbell write (04 Table 4-2): KIND 0 a tail, KIND 1 a completion ring's head. -/
def indirectBell (b : Bell) (s : State) : State :=
  let d := b.data.toNat
  let id := bits d 32 20
  let kind := bits d 62 1
  let v := bits d 0 16
  let off := 8 * b.slot
  match tget s.rings id with
  | none => rejectBell b.page off true s
  | some r =>
    if r.port ≠ b.page ∨ r.isCpl ≠ (kind == 1) then rejectBell b.page off true s
    else if bits d 16 16 ≠ 0 ∨ bits d 52 10 ≠ 0 then rejectBell b.page off false s
    else if kind = 1 then acceptHead b.page off id v r s
    else if 2 ^ r.log2 ≤ v then rejectBell b.page off false s
    else acceptTail id v b.at_ r s

/-- A doorbell that reaches Skein (02 R43): the stream ID must be that of the page's open port. -/
def ringBell (b : Bell) (s : State) : State :=
  let p := tgetD s.ports b.page {}
  if !p.isOpen || b.sid != p.sid then rejectBell b.page (8 * b.slot) true s
  else if b.slot = 511 ∧ b.data.getLsbD 63 then indirectBell b s
  else directBell b s

/-- A doorbell write that the control register port has accepted (02 R41, R42; 14 R356, R357): only 64-bit writes count; asleep it
is held in the porch and starts a wake; fail-silent discards it (19 R454). -/
def presentBell (wide : Bool) (b : Bell) (s : State) : State :=
  if !wide || !s.pins.powered || s.pins.coreInReset then s
  else if s.pwr.failSilent then { s with pwr := { s.pwr with fsAccess := true } }
  else if s.pwr.state = .p0 then
    ringBell b { s with pwr := wakePower 0 s.pwr }
  else { s with pwr := { wakePower 0 s.pwr with porch := s.pwr.porch ++ [b] } }

/-- The porch replays its doorbells in acceptance order (14 R357). -/
def replayPorch (s : State) : State :=
  s.pwr.porch.foldl (fun a b => ringBell b a) { s with pwr := { s.pwr with porch := [] } }

/-- Doorbells that the porch held over a reset are replayed once the block runs again (14 R351, R357). -/
def heldBells (s : State) : State := if running s && !s.pwr.porch.isEmpty then replayPorch s else s

end Sys2Proof.Machine
end

