-- ==== Sys2Proof/Machine/Registers.lean ====
section
/-! DEFINITION. The registers as the control register port serves them (02 R41, R42; 00 R8, R9, R11; 19 R450 to R457): which accesses are served, what a
write does to the fields of the half it covers, and what a read returns and clears. -/
namespace Sys2Proof.Machine

/-! ### Lanes of an access -/

/-- The register bits that an access covers (19 R451). -/
def laneMask (l : Lanes) : BitVec 64 :=
  match l with
  | .full => 0xFFFFFFFFFFFFFFFF
  | .low => 0x00000000FFFFFFFF
  | .high => 0xFFFFFFFF00000000

/-- The mask of a field of `w` bits at `lo`. -/
def fieldMask (lo w : Nat) : BitVec 64 := BitVec.ofNat 64 ((2 ^ w - 1) * 2 ^ lo)

/-- An RW field after a write: the bits covered take the data (00 Table 0-4, 19 R451). -/
def setF (old lo w : Nat) (m d : BitVec 64) : Nat :=
  ((BitVec.ofNat 64 (old * 2 ^ lo) &&& ~~~m ||| d &&& m) &&& fieldMask lo w).toNat / 2 ^ lo

/-- An address field kept as a byte address: bits [hi-1:lo] of the register are written in place. -/
def setAddr (old lo w : Nat) (m d : BitVec 64) : Nat := setF (old / 2 ^ lo) lo w m d * 2 ^ lo

/-- A one-bit RW field. -/
def setB (old : Bool) (bit : Nat) (m d : BitVec 64) : Bool := if m.getLsbD bit then d.getLsbD bit else old

/-- A write of 1 to a bit (W1C, W1S, WO). -/
def hit (bit : Nat) (m d : BitVec 64) : Bool := m.getLsbD bit && d.getLsbD bit

/-- A W1C bit after a write. -/
def w1c (old : Bool) (bit : Nat) (m d : BitVec 64) : Bool := old && !hit bit m d

/-- Whether an access covers a whole field. -/
def covers (lo w : Nat) (m : BitVec 64) : Bool := (m &&& fieldMask lo w) == fieldMask lo w

/-- An RC counter after a read (19 R451). -/
def rc (old lo w : Nat) (m : BitVec 64) : Nat := if covers lo w m then 0 else old

/-! ### Which accesses are served (02 R42; 14 R359; 19 R454, R457) -/

/-- Registers that the Cast-on island serves while fail-silent. -/
def mailboxOff (off : Nat) : Bool := (decide (0x1080 ≤ off) && decide (off ≤ 0x1100)) || off == 0x1048

/-- What becomes of an access: served, or not, with the sticky bit that records it. -/
inductive Gate where
  | served
  | dead
  | failSilent
  | asleep
  deriving DecidableEq, Repr

def asleepState (p : Power) : Bool := p.state == .p2 || p.state == .p3r || p.state == .p3

/-- Writes: none before CORE_RST_N is released; in fail-silence only to the mailbox registers; asleep only to GLB; to CMD
from start complete on (log 17). -/
def writeGate (s : State) (off : Nat) : Gate :=
  if !s.pins.powered || s.pins.coreInReset then .dead
  else if s.pwr.failSilent then (if mailboxOff off then .served else .failSilent)
  else if asleepState s.pwr && decide (0x1000 ≤ off) then .asleep
  else if off / 0x1000 = 1 ∧ !started s then .dead
  else if off / 0x1000 = 10 ∧ !s.pins.formL then .dead
  else .served

def readGate (s : State) (off : Nat) : Gate :=
  if !s.pins.powered then .dead
  else if s.pins.coreInReset then (if off < 0x1000 then .served else .dead)
  else if s.pwr.failSilent then
    (if off < 0x1000 ∨ off / 0x1000 = 5 ∨ mailboxOff off ∨ off = 0x1040 then .served else .failSilent)
  else if asleepState s.pwr && decide (0x1000 ≤ off) then .asleep
  else if off / 0x1000 = 1 ∧ !started s then .dead
  else .served

/-! ### Writes -/

/-- Command work created while the block is in P1 (14 R356). -/
def p1Work (work : Bool) (s : State) : State :=
  if work && (s.pwr.state == .p1 || s.pwr.entering.isSome) then { s with pwr := wakePower 4 s.pwr } else s

/-- A GLB_IDOP operation started: it waits as a block-scope command; an undefined OP is refused at once (18 R445). -/
def startIdop (s : State) : State :=
  let i := s.id
  if i.op = 0 ∨ i.op = 7 then
    { s with id := { i with go := false, done := true, status := Status.invalidField.code, outBytes := 0 }, pwr := wakePower 4 s.pwr }
  else
    let b := zeros 16 ++ leBytes 8 i.src ++ leBytes 4 i.srcLen ++ zeros 4 ++ leBytes 8 i.dest ++ leBytes 4 i.destLen
    let e : CmdEntry := { cid := s.cmd.nextCid, via := .idop, bytes := b, opcode := 0x10000 + i.op, port := 0xFFFF }
    { s with id := { i with go := true }, cmd := enqueueEntry s.clk.now e s.cmd
             pwr := wakePower 4 s.pwr }

/-- The resume store's copy of the carve-out registers follows a write that the GLB group serves in P3 (14 R360). -/
def syncResume (s : State) : State := if s.pwr.resume.isSome then { s with pwr := { s.pwr with resume := some (resumeOf s.keys) } } else s

/-- The GLB group (19 Table 19-4; 05, 06, 14, 18). -/
def writeGlb (off : Nat) (m d : BitVec 64) (s : State) : State :=
  match off with
  | 0x0010 => { s with pwr := { s.pwr with aslpAccess := w1c s.pwr.aslpAccess 0 m d, fsAccess := w1c s.pwr.fsAccess 1 m d } }
  | 0x0018 => { s with regs := { s.regs with fabTimeout := setF s.regs.fabTimeout 0 17 m d } }
  | 0x0108 => if hit 0 m d then
      { s with pwr := { wakePower 1 s.pwr with wakeBit := s.pwr.wakeBit || s.pwr.state != .p0 } }
    else s
  | 0x0200 => { s with regs := { s.regs with latNs := setF s.regs.latNs 0 16 m d } }
  | 0x0228 => writeBanks 3 { s with ep := { s.ep with head := setF s.ep.head 0 20 m d } }
  | 0x0238 => { s with ep := { s.ep with mergedFlag := w1c s.ep.mergedFlag 0 m d } }
  | 0x0300 => if s.keys.carveEn then s else syncResume { s with keys := { s.keys with carveBase := setAddr s.keys.carveBase 20 36 m d } }
  | 0x0308 => if s.keys.carveEn then s
    else
      let en := setB s.keys.carveEn 0 m d && openPorts s == 0
      let s1 := syncResume { s with keys := { s.keys with carveLog2 := setF s.keys.carveLog2 8 5 m d, carveEn := en
                                                          carveInit := s.keys.carveInit || en } }
      if en then startTree s1 else s1
  | 0x0320 => if s.keys.carveEn then s
    else syncResume { s with keys := { s.keys with selfSid := BitVec.ofNat 16 (setF s.keys.selfSid.toNat 0 16 m d) } }
  | 0x0540 => if s.id.go then s else { s with id := { s.id with src := setAddr s.id.src 3 53 m d } }
  | 0x0548 => if s.id.go then s else { s with id := { s.id with dest := setAddr s.id.dest 3 53 m d } }
  | 0x0550 => if s.id.go then s
    else
      let s1 := { s with id := { s.id with op := setF s.id.op 0 3 m d, srcLen := setF s.id.srcLen 16 16 m d
                                           destLen := setF s.id.destLen 32 16 m d } }
      if hit 63 m d then startIdop s1 else s1
  | 0x0558 => if s.id.go then s else { s with id := { s.id with done := w1c s.id.done 0 m d } }
  | _ => s

/-- The mailbox bytes of a word after a write. -/
def setMbox (i : Nat) (m d : BitVec 64) (b : Bytes) : Bytes :=
  b.take (8 * i) ++ leBytes 8 (setF (fld b (8 * i) 8) 0 64 m d) ++ b.drop (8 * i + 8)

/-- The CMD group (03 Table 3-1). A write of CMD_ADMIN_CTRL that changes EN and sets RESET: RESET is judged against the EN that the write
leaves (DESIGN CHOICE, log 122: the table does not say which). -/
def writeCmd (off : Nat) (m d : BitVec 64) (s : State) : State :=
  match off with
  | 0x1000 => { s with cmd := { s.cmd with adminBase := setAddr s.cmd.adminBase 12 44 m d } }
  | 0x1008 =>
    let en := setB s.cmd.adminEn 0 m d
    let s1 := { s with cmd := { s.cmd with adminEn := en, adminLog2 := setF s.cmd.adminLog2 8 5 m d } }
    let s2 := if hit 31 m d then adminReset s1 else s1
    adminFetch (p1Work (en && !s.cmd.adminEn && s2.cmd.adminHead != s2.cmd.adminTail) s2)
  | 0x1010 =>
    let t := setF (s.cmd.adminTail / 8) 3 21 m d * 8
    adminFetch (p1Work (s.cmd.adminEn && t != s.cmd.adminTail)
      { s with cmd := { s.cmd with adminTail := t, tailTimes := s.cmd.tailTimes ++ [(t, s.clk.now)] } })
  | 0x1020 => { s with cmd := { s.cmd with replyBase := setAddr s.cmd.replyBase 12 44 m d } }
  | 0x1028 => sendReply { s with cmd := { s.cmd with
      replyEn := setB s.cmd.replyEn 0 m d, replyLog2 := setF s.cmd.replyLog2 8 5 m d, notifyAll := setB s.cmd.notifyAll 16 m d } }
  | 0x1038 => sendReply { s with cmd := { s.cmd with replyHead := setF s.cmd.replyHead 0 24 m d } }
  | 0x1048 => { s with cmd := { s.cmd with
      irqReply := w1c s.cmd.irqReply 0 m d, irqHalt := w1c s.cmd.irqHalt 1 m d, irqMbox := w1c s.cmd.irqMbox 2 m d
      irqReplyLost := w1c s.cmd.irqReplyLost 3 m d } }
  | 0x1100 =>
    let go := hit 0 m d && !s.cmd.mboxGo
    let s1 := { s with cmd := { s.cmd with mboxDone := w1c s.cmd.mboxDone 1 m d, mboxGo := s.cmd.mboxGo || go
                                           mboxAt := if go then s.clk.now else s.cmd.mboxAt } }
    if go then (if s.pwr.failSilent then { s1 with cmd := failSilentMbox s1 } else p1Work true s1) else s1
  | _ => if 0x1080 ≤ off ∧ off ≤ 0x10F8 then { s with cmd := { s.cmd with mbox := setMbox ((off - 0x1080) / 8) m d s.cmd.mbox } } else s

/-- The CPW, ENG and STR groups (04 Table 4-4, 07 to 09, 11 Table 11-3). An unopened port's interrupt registers read 0 and
take no write (log 17). -/
def writeSel (off : Nat) (m d : BitVec 64) (s : State) : State :=
  match off with
  | 0x2000 => { s with regs := { s.regs with cpsel := setF s.regs.cpsel 0 10 m d } }
  | 0x2100 => { s with regs := { s.regs with ringSel := setF s.regs.ringSel 0 20 m d } }
  | 0x2120 => { s with ports := tmod s.ports s.regs.cpsel (fun p => if p.isOpen then { p with irqBase := setAddr p.irqBase 3 53 m d } else p) }
  | 0x2128 =>
    let p := tgetD s.ports s.regs.cpsel {}
    let en := setB p.irqEn 0 m d
    if !p.isOpen then s
    else
      { s with ports := tmod s.ports s.regs.cpsel (fun p => { p with irqEn := en })
               rings := if en && !p.irqEn then tmap s.rings (fun _ r =>
                   if r.isCpl && r.port == s.regs.cpsel then { r with irqLate := irqDue s.clk.now r } else r) else s.rings }
  | 0x3000 => { s with regs := { s.regs with engsel := setF s.regs.engsel 0 10 m d } }
  | 0x4000 => { s with regs := { s.regs with strsel := setF s.regs.strsel 0 6 m d } }
  | 0x4008 => { s with chans := tmod s.chans s.regs.strsel (fun c => if c.isOpen then c else
      { c with dirTag := setB c.dirTag 0 m d, tagLog2 := setF c.tagLog2 8 5 m d }) }
  | 0x4010 => { s with chans := tmod s.chans s.regs.strsel (fun c => if c.isOpen then c else { c with tagBase := setAddr c.tagBase 5 51 m d }) }
  | _ => s

/-- A retrain with the current lane map, at the RATE set; none while the link trains (19 R457, 02 R65). -/
def retrain (now : Nat) (l : Link) : Link :=
  if l.training then l
  else { l with training := true, trainAt := now, step := 1, rateInUse := l.rate, retrains := satAdd 16 l.retrains 1, sentRun := 0, nakRun := 0, replayFrom := none }

/-- The FLT, RNG, FOL, NVM, LANE and DARN groups (10 Table 10-4, 12 Table 12-7, 13 Table 13-9, 15 Table 15-7, 17 Table 17-8,
19 Table 19-5). A write of RNG_ROTATE starts a new period (10 R268). -/
def writeRest (off : Nat) (m d : BitVec 64) (s : State) : State :=
  match off with
  | 0x5030 => { s with flt := { s.flt with irqAddr := setAddr s.flt.irqAddr 3 53 m d } }
  | 0x5038 => { s with flt := { s.flt with irqEn := setB s.flt.irqEn 0 m d } }
  | 0x7008 => { s with rng := { s.rng with underrun := w1c s.rng.underrun 1 m d } }
  | 0x7020 =>
    if m.getLsbD 0 then
      let p := setF s.rng.period 0 8 m d
      { s with rng := { s.rng with period := p, rotateAt := s.clk.now + cyMs (1000 * p) } }
    else s
  | 0x8008 => { s with fol := { s.fol with busyMs := setF s.fol.busyMs 0 14 m d, clkMax := setF s.fol.clkMax 16 8 m d } }
  | 0x9028 => { s with regs := { s.regs with sectorSel := setF s.regs.sectorSel 0 11 m d } }
  | 0xA000 => { s with regs := { s.regs with lanesel := setF s.regs.lanesel 0 6 m d } }
  | 0xA008 =>
    let l := { s.link with rate := setB s.link.rate 0 m d }
    { s with link := if hit 8 m d then retrain s.clk.now l else l }
  | 0xA010 => { s with link := { s.link with errLimit := setF s.link.errLimit 0 16 m d } }
  | 0xB028 => { s with darn := { s.darn with
      floorNib := setF s.darn.floorNib 0 4 m d, floorQuill := setF s.darn.floorQuill 8 4 m d, floorHook := setF s.darn.floorHook 16 4 m d } }
  | 0xB030 => { s with darn := { s.darn with alertUnits := setF s.darn.alertUnits 0 4 m d, alertRows := setF s.darn.alertRows 8 4 m d } }
  | 0xB038 => { s with regs := { s.regs with rowSel := setF s.regs.rowSel 0 9 m d } }
  | _ => s

/-- A served write. -/
def writeServed (off : Nat) (m d : BitVec 64) (s : State) : State :=
  if off < 0x1000 then writeGlb off m d s
  else if off < 0x2000 then writeCmd off m d s
  else if off < 0x5000 then writeSel off m d s
  else writeRest off m d s

/-- A control-window write. -/
def writeReg (off : Nat) (l : Lanes) (d : Word) (s : State) : State :=
  match writeGate s off with
  | .served => writeServed off (laneMask l) d s
  | .dead => s
  | .failSilent => { s with pwr := { s.pwr with fsAccess := true } }
  | .asleep => { s with pwr := { s.pwr with aslpAccess := true } }

/-! ### Reads -/

/-- The RC counters of the selected instances after a read (19 R451 to R453). -/
def clearUnit (off : Nat) (m : BitVec 64) (u : EUnit) : EUnit :=
  match off % 0x100 with
  | 0x18 => { u with mismatchA := rc u.mismatchA 0 32 m, mismatchB := rc u.mismatchB 32 32 m }
  | 0x20 => { u with cured := rc u.cured 0 32 m, failed := rc u.failed 32 32 m }
  | _ => if off / 0x100 = 0x31 then { u with suspends := rc u.suspends 0 32 m }
    else if off / 0x100 = 0x32 then { u with discarded := rc u.discarded 0 32 m, lost := rc u.lost 32 32 m }
    else { u with exhausted := rc u.exhausted 0 32 m }

def clearRead (off : Nat) (m : BitVec 64) (s : State) : State :=
  match off with
  | 0x0020 => { s with fab := { s.fab with ports := tmap s.fab.ports (fun n p => { p with stall := rc p.stall (16 * n) 16 m }) } }
  | 0x0128 => { s with baton := { s.baton with stale := rc s.baton.stale 32 16 m } }
  | 0x2038 => { s with ports := tmod s.ports s.regs.cpsel (fun p => { p with dbReject := rc p.dbReject 0 32 m }) }
  | 0x2218 => { s with ports := tmod s.ports s.regs.cpsel (fun p => { p with late := rc p.late 0 32 m }) }
  | 0x2220 => { s with ports := tmod s.ports s.regs.cpsel (fun p => { p with
      refDeadline := rc p.refDeadline 0 16 m, refQuota := rc p.refQuota 16 16 m, refWindow := rc p.refWindow 32 16 m }) }
  | 0x4030 => { s with chans := tmod s.chans s.regs.strsel (fun c => { c with disabled := rc c.disabled 0 32 m, dropped := rc c.dropped 32 32 m }) }
  | 0x4038 => { s with chans := tmod s.chans s.regs.strsel (fun c => { c with
      trunc := rc c.trunc 0 16 m, poison := rc c.poison 16 16 m, overflow := rc c.overflow 32 16 m }) }
  | 0x5000 => if covers 0 64 m then { s with flt := { s.flt with queue := s.flt.queue.drop 1 } } else s
  | 0x5010 => { s with flt := { s.flt with overflow := rc s.flt.overflow 0 32 m } }
  | 0x6038 => { s with tim := { s.tim with steps := rc s.tim.steps 0 16 m, backsteps := rc s.tim.backsteps 16 16 m
                                           invalid := rc s.tim.invalid 32 16 m, ppsMissing := rc s.tim.ppsMissing 48 16 m } }
  | 0x7000 => { s with rng := { s.rng with data := s.rng.data.drop 1, underrun := s.rng.underrun || s.rng.data.isEmpty } }
  | 0x7018 => { s with rng := { s.rng with rct := rc s.rng.rct 0 32 m, apt := rc s.rng.apt 32 32 m } }
  | 0x7028 => { s with rng := { s.rng with mismatch := rc s.rng.mismatch 32 32 m } }
  | 0x8038 => { s with fol := { s.fol with crc := rc s.fol.crc 0 16 m, retries := rc s.fol.retries 16 16 m, recoveries := rc s.fol.recoveries 32 16 m } }
  | 0x9020 => { s with nvm := { s.nvm with corrected := rc s.nvm.corrected 0 32 m, uncorrectable := rc s.nvm.uncorrectable 32 32 m } }
  | 0xA020 => { s with link := { s.link with
      naksSent := rc s.link.naksSent 0 16 m, naksReceived := rc s.link.naksReceived 16 16 m
      retrains := rc s.link.retrains 32 16 m, substitutions := rc s.link.substitutions 48 16 m } }
  | 0xA108 => { s with link := { s.link with lanes := tmod s.link.lanes s.regs.lanesel (fun l =>
      { l with invalid := rc l.invalid 0 32 m, lockLosses := rc l.lockLosses 32 16 m }) } }
  | 0xB010 => { s with darn := { s.darn with skipped := rc s.darn.skipped 32 16 m, failed := rc s.darn.failed 48 16 m } }
  | _ =>
    if (off / 0x100 = 0x31 ∨ off / 0x100 = 0x32 ∨ off / 0x100 = 0x33)
        ∧ (off % 0x100 = 0x18 ∨ off % 0x100 = 0x20 ∨ off % 0x100 = 0x28)
        ∧ engselValid s.regs.engsel ∧ unitKind s.regs.engsel = off / 0x100 - 0x31 then
      { s with eng := modUnit s.regs.engsel (clearUnit off m) s.eng }
    else s

/-- A read that covers bit 0 of TIM_NOW_SEC captures first (11 R308). -/
def captureRead (off : Nat) (m : BitVec 64) (s : State) : State :=
  if off = 0x6000 ∧ m.getLsbD 0 then { s with tim := captureTime s.tim } else s

/-- A served read: the half addressed in its own lane, then the RC fields that it covers are cleared (02 R41, 19 R451). -/
def readServed (off : Nat) (m : BitVec 64) (s : State) : State :=
  let s0 := captureRead off m s
  let v := BitVec.ofNat 64 ((regWord s0 off).getD 0) &&& m
  let s1 := if off / 0x1000 = 10 ∧ !s.pins.formL then s0 else clearRead off m s0
  { s1 with regs := { s1.regs with rdata := v, rerr := false } }

/-- A control-window read. -/
def readReg (off : Nat) (l : Lanes) (s : State) : State :=
  match readGate s off with
  | .served => readServed off (laneMask l) s
  | .dead => { s with regs := { s.regs with rdata := 0, rerr := false } }
  | .failSilent => { s with regs := { s.regs with rdata := 0, rerr := true }, pwr := { s.pwr with fsAccess := true } }
  | .asleep => { s with regs := { s.regs with rdata := 0, rerr := true }, pwr := { s.pwr with aslpAccess := true } }

end Sys2Proof.Machine
end

