-- ==== Sys2Proof/Machine/Crp.lean ====
section
/-! DEFINITION. The control register port: when an access is accepted, and the rows of its pins (02 R40 to R42, R58; 14 R357). -/
namespace Sys2Proof.Machine

/-! ### Acceptance -/

/-- CRP_READY: low while the porch holds 64 doorbells, until the wake ends (02 R42); a start or fail-silent entry ends it too (DEDUCED,
log 115). -/
def crpReady (s : State) : Bool := decide (s.pwr.porch.length < 64) || s.pwr.failSilent || (s.pwr.state == .p0 && !s.pwr.waking)

/-- An access accepted now: a doorbell's t_db is this instant (02 R40, R42). -/
def crpDo (a : CrpAccess) (s : State) : State :=
  match a with
  | .bell wide b => presentBell wide { b with at_ := s.clk.now } s
  | .write off l d => writeReg off l d s
  | .read off l => readReg off l s
  | .bellRead wide => if aonOn s then { s with regs := { s.regs with rdata := 0, rerr := !wide } } else s

/-- An access presented: accepted at once, or waiting behind those that wait (02 R40, R42). -/
def crpPresent (a : CrpAccess) (s : State) : State :=
  if !aonOn s then s
  else if crpReady s && s.pwr.crpWait.isEmpty then crpDo a s
  else { s with pwr := { s.pwr with crpWait := s.pwr.crpWait ++ [a] } }

/-- The accesses that waited, accepted in order once CRP_READY rises (02 R42, 14 R357). -/
def crpAccept (s : State) : State :=
  if crpReady s then s.pwr.crpWait.foldl (fun a x => crpDo x a) { s with pwr := { s.pwr with crpWait := [] } } else s

/-- Whether the CRP pins are heeded: not while a CFG_FAB_ROUTE bit is 1 in LA-1024/L (02 R58). -/
def crpPins (s : State) : Bool := !(s.pins.formL && s.pins.cfgFabRoute != 0)

/-- An access at the CRP pins. -/
def crpPin (a : CrpAccess) (s : State) : State := if crpPins s then crpPresent a s else s

def pinWrite (off : Nat) (l : Lanes) (d : Word) (s : State) : State := crpPin (.write off l d) s

def pinRead (off : Nat) (l : Lanes) (s : State) : State := crpPin (.read off l) s

/-! ### The rows -/

/-- REGISTER_WRITE. CRP_ADDR is the 64-bit word address; an address above the window names no register (02 R41). -/
def execRegisterWrite (addr : BitVec 19) (lanes : Lanes) (data : Word) (s : State) : Host.Outcome State Fault Refusal :=
  .next (pinWrite (8 * addr.toNat) lanes data s)

/-- RC_COUNTER_READ: a read of the control window, or of the doorbell window where `bells` is set. -/
def execRcCounterRead (addr : ReadAddr) (lanes : Lanes) (s : State) : Host.Outcome State Fault Refusal :=
  .next (if addr.bells then crpPin (.bellRead (lanes == .full)) s else pinRead (8 * addr.addr.toNat) lanes s)

/-- DOORBELL_DIRECT_WRITE. -/
def execDoorbellDirectWrite (page : Fin 1024) (slot : Fin 512) (sid : BitVec 16) (wide : Bool) (data : Word) (s : State) :
    Host.Outcome State Fault Refusal :=
  .next (crpPin (.bell wide { page := page.val, slot := slot.val, sid := sid, data := data, at_ := s.clk.now }) s)

/-- DOORBELL_INDIRECT_TAIL: KIND 0 at page offset 0xFF8 with bit 63 set. -/
def execDoorbellIndirectTail (page : Fin 1024) (sid : BitVec 16) (wide : Bool) (data : Word) (s : State) :
    Host.Outcome State Fault Refusal :=
  .next (crpPin (.bell wide
    { page := page.val, slot := 511, sid := sid, data := (data.setWidth 62).setWidth 64 ||| 0x8000000000000000#64, at_ := s.clk.now }) s)

/-- DOORBELL_INDIRECT_HEAD: KIND 1. -/
def execDoorbellIndirectHead (page : Fin 1024) (sid : BitVec 16) (wide : Bool) (data : Word) (s : State) :
    Host.Outcome State Fault Refusal :=
  .next (crpPin (.bell wide
    { page := page.val, slot := 511, sid := sid, data := (data.setWidth 62).setWidth 64 ||| 0xC000000000000000#64, at_ := s.clk.now }) s)

/-- CMD_ADMIN_TAIL_WRITE (03 R70). -/
def execCmdAdminTailWrite (lanes : Lanes) (data : Word) (s : State) : Host.Outcome State Fault Refusal :=
  .next (pinWrite 0x1010 lanes data s)

/-- CMD_ADMIN_ENABLE_WRITE (03 R69): CMD_ADMIN_CTRL with RESET written as 0. -/
def execCmdAdminEnableWrite (lanes : Lanes) (data : Word) (s : State) : Host.Outcome State Fault Refusal :=
  .next (pinWrite 0x1008 lanes (data &&& ~~~0x80000000) s)

/-- CMD_ADMIN_RESET: CMD_ADMIN_CTRL with RESET written as 1. -/
def execCmdAdminReset (lanes : Lanes) (data : Word) (s : State) : Host.Outcome State Fault Refusal :=
  .next (pinWrite 0x1008 lanes (data ||| 0x80000000) s)

/-- CMD_REPLY_HEAD_WRITE (03 R72). -/
def execCmdReplyHeadWrite (lanes : Lanes) (data : Word) (s : State) : Host.Outcome State Fault Refusal :=
  .next (pinWrite 0x1038 lanes data s)

/-- CMD_REPLY_ENABLE_WRITE (03 R72). -/
def execCmdReplyEnableWrite (lanes : Lanes) (data : Word) (s : State) : Host.Outcome State Fault Refusal :=
  .next (pinWrite 0x1028 lanes data s)

/-- CMD_MBOX_GO (03 R73, R74). -/
def execCmdMboxGo (lanes : Lanes) (data : Word) (s : State) : Host.Outcome State Fault Refusal :=
  .next (pinWrite 0x1100 lanes (data ||| 1) s)

/-- GLB_POWER_WAKE_WRITE (14 R356). -/
def execGlbPowerWakeWrite (lanes : Lanes) (data : Word) (s : State) : Host.Outcome State Fault Refusal :=
  .next (pinWrite 0x0108 lanes data s)

/-- GLB_CARVE_ENABLE_WRITE (06 R177). -/
def execGlbCarveEnableWrite (lanes : Lanes) (data : Word) (s : State) : Host.Outcome State Fault Refusal :=
  .next (pinWrite 0x0308 lanes data s)

/-- GLB_LEDGER_HEAD_WRITE (05 R152). -/
def execGlbLedgerHeadWrite (lanes : Lanes) (data : Word) (s : State) : Host.Outcome State Fault Refusal :=
  .next (pinWrite 0x0228 lanes data s)

/-- CPW_IRQ_ENABLE_WRITE (04 R122). -/
def execCpwIrqEnableWrite (lanes : Lanes) (data : Word) (s : State) : Host.Outcome State Fault Refusal :=
  .next (pinWrite 0x2128 lanes data s)

/-- RNG_ROTATE_WRITE (10 R268). -/
def execRngRotateWrite (lanes : Lanes) (data : Word) (s : State) : Host.Outcome State Fault Refusal :=
  .next (pinWrite 0x7020 lanes data s)

/-- RNG_DATA_READ (10 R280). -/
def execRngDataRead (lanes : Lanes) (s : State) : Host.Outcome State Fault Refusal := .next (pinRead 0x7000 lanes s)

/-- FLT_MSG_READ (12 R317). -/
def execFltMsgRead (lanes : Lanes) (s : State) : Host.Outcome State Fault Refusal := .next (pinRead 0x5000 lanes s)

/-- TIM_NOW_SEC_READ (11 R308). -/
def execTimNowSecRead (lanes : Lanes) (s : State) : Host.Outcome State Fault Refusal := .next (pinRead 0x6000 lanes s)

/-- LANE_RETRAIN (19 R457). -/
def execLaneRetrain (lanes : Lanes) (data : Word) (s : State) : Host.Outcome State Fault Refusal :=
  .next (pinWrite 0xA008 lanes (data ||| 0x100) s)

end Sys2Proof.Machine
end

