-- ==== Sys2Proof/Machine/Objects.lean ====
section
/-! DEFINITION. The end of the objects that commands create: keys, sessions, Quill messages, Hook leases, rings and stream
channels (06 R165, R178; 08 R223, R227; 09 R246; 04 R104; 11 R284). -/
namespace Sys2Proof.Machine

/-! ### Quill messages -/

/-- Every message lost (08 R227: CORE_RST_N, entry to P2, P3R, P3). -/
def loseAllMessages (s : State) : State := s.eng.messages.foldl (fun a e => loseMessage e.1 a) s

/-! ### Keys (06 R165) -/

/-- The Quill contexts of the sessions that use a key handle are zeroed with it (06 R165, 08 R227). Such an open message is not counted in
ENG_QUILL_CTX.LOST (DESIGN CHOICE, log 136). -/
def zeroKeyContexts (h : Nat) (s : State) : State :=
  { s with eng := { s.eng with messages := s.eng.messages.filter (fun e =>
      match tget s.keys.sessions (sessIndex e.2.handle) with
      | some r => r.key != h
      | none => true) } }

/-- The old handle of a slot becomes invalid (the commit of KEY_DESTROY). -/
def retireHandle (n : Nat) (s : State) : State := writeSlot n (nextGen (slotOf s n)) s

/-- The slot rewritten as FREE when the fence completes. -/
def destroyKey (h : Nat) (s : State) : State := freeSlotNow (handleSlot h) (zeroKeyContexts h s)

/-! ### Hook leases (09 R242, R246) -/

def nextWindowGen (g : Nat) : Nat := if g = 127 then 1 else g + 1

/-- The windows of a lease freed: zeroed, with the next GEN. -/
def freeWindows (ws : List Nat) (t : Tbl Nat) : Tbl Nat := ws.foldl (fun a w => tput a w (nextWindowGen (tgetD a w 1))) t

/-- A lease ended. -/
def endLease (ix : Nat) (s : State) : State :=
  match tget s.eng.leases ix with
  | none => s
  | some l => { s with eng := { s.eng with leases := tdel s.eng.leases ix, windowGen := freeWindows l.windows s.eng.windowGen } }

/-- The end of the last zeroing of a released lease on a hook, not before now. -/
def releaseEnd (s : State) (c : Nat) : Nat :=
  s.eng.leases.foldl (fun a l => if l.2.hook = c ∧ l.2.releasing then max a ((l.2.zeroing.map (·.1)).getD 0) else a) s.clk.now

/-- The zeroing of a released lease begins, behind those of other released leases of its hook: 32 HOOK cycles a window (09 R246). An
OPERAND_CLEAR that it overtakes is answered with it (03 R78; log 131). -/
def zeroLease (ix : Nat) (s : State) : State :=
  match tget s.eng.leases ix with
  | none => s
  | some l => match l.releasing, l.zeroing with
    | true, some (_, none) => s
    | _, z =>
      let stop := releaseEnd s l.hook + cyHook (32 * l.windows.length)
      let s1 := match z.bind (·.2) with
        | some cid => setEntry cid (fun x => { x with phase := 9, work := [ix] }) s
        | none => s
      { s1 with eng := { s1.eng with leases := tput s1.eng.leases ix { l with releasing := true, zeroing := some (stop, none) } } }

/-- The leases that satisfy `p`. -/
def leasesWith (p : Lease → Bool) (s : State) : List Nat := (s.eng.leases.filter (fun e => p e.2)).map (·.1)

/-- Every lease that satisfies `p` released. -/
def releaseLeases (p : Lease → Bool) (s : State) : State := (leasesWith p s).foldl (fun a ix => zeroLease ix a) s

/-! ### Sessions (06 R178) -/

/-- A handle of a session index. -/
def sessHandle (ix gen : Nat) : Nat := ix + 2 ^ 22 * gen

/-- GEN of an index; 1,024 marks an index retired until AON_PORST_N. -/
def sessGenAt (s : State) (ix : Nat) : Nat := tgetD s.keys.sessGen ix 1

/-- The commit of SESSION_CLOSE: the index's GEN advances and no handle names the record any more. -/
def retireSession (ix : Nat) (s : State) : State :=
  { s with keys := { s.keys with sessions := tmod s.keys.sessions ix (fun r => { r with gen := 1024 })
                                 sessGen := tput s.keys.sessGen ix (sessGenAt s ix + 1) } }

/-- The record zeroed when the fence completes, also in the carve-out: its leases are released, and its open message and its bindings
end with it (06 R178, 09 R246). -/
def destroySession (h : Nat) (s : State) : State :=
  let s0 := releaseLeases (fun l => l.session == h) s
  let s1 := { s0 with eng := { s0.eng with messages := s0.eng.messages.filter (fun e => e.2.handle != h) } }
  let ix := sessIndex h
  issue (writeReqs s1.keys.selfSid true .lowest .carve (s1.keys.carveBase + sessOff ix) (zeros (recLen (sessOff ix))))
    { s1 with keys := { s1.keys with sessions := tdel s1.keys.sessions ix }
              rings := tmap s1.rings (fun _ r => { r with bound := r.bound.filter (· != h) }) }

/-- A session closed for good because its record fails its check (06 R175). -/
def failSession (ix : Nat) (s : State) : State :=
  match tget s.keys.sessions ix with
  | none => s
  | some r => raiseEvent 0x0B1 kRecordCheck (sessOff ix) (destroySession (sessHandle ix r.gen) (retireSession ix s))

/-! ### Rings and channels -/

/-- Entries of the descriptor reads on their way. -/
def descOut (r : Ring) : Nat := r.reads.foldl (fun a x => a + x.count) 0

/-- Reads of a ring given up: their reservation is returned (04 R116). -/
def dropReads (id : Nat) (keep : List DescRead) (r : Ring) (t : Tbl Ring) : Tbl Ring :=
  let gone := descOut r - descOut { r with reads := keep }
  tmod (tput t id { r with reads := keep }) r.cplRing (fun c => { c with reserved := c.reserved - gone })

/-- A job fetched and not yet admitted. -/
def notAdmitted (j : Job) : Bool :=
  !j.counted && (j.phase == .fetched || j.phase == .checked || j.phase == .deferred || j.phase == .held)

/-- The jobs of a ring or channel that ends, fetched and not yet admitted, fail the new rules (03 R88, 04 R114 step 4); the links of a
chain behind its first complete with CHAIN_ABORTED (04 R112). -/
def refuseLeft (p : Job → Bool) (s : State) : State :=
  s.jobs.foldl (fun a e => if p e.2 && notAdmitted e.2 then refuseJob e.1 (if e.2.link = 0 then .notPermitted else .chainAborted) a else a) s

/-- The jobs whose record has no ring left leave the job table without one (DESIGN CHOICE, log 119). -/
def dropUnposted (id : Nat) (s : State) : State :=
  let gone := fun (j : Job) => j.cpl == id && !j.counted
  { s with merge := s.merge.filter (fun i => match jobOf s i with
             | some j => !gone j
             | none => true)
           jobs := s.jobs.filter (fun e => !gone e.2) }

/-- A ring ABSENT: its reads given up, its slot unbound, its context discarded, its doorbell bit cleared (04 R104). -/
def destroyRing (id : Nat) (s : State) : State :=
  match tget s.rings id with
  | none => s
  | some r =>
    let s1 := if r.isCpl then dropUnposted id s else refuseLeft (fun j => match j.src with
      | .ring x _ => x == id
      | _ => false) { s with rings := dropReads id [] r s.rings }
    { s1 with rings := tdel s1.rings id, skein := unmarkRing id s1.skein }

/-- A channel closed and its FIFO empty: disabled, XOFF at 1 (11 R284, R292; 02 R46). -/
def closeChan (n : Nat) (s0 : State) : State :=
  let s := refuseLeft (fun j => match j.src with
    | .stream x _ => x == n
    | _ => false) s0
  { s with chans := tmod s.chans n (fun c => { c with
      isOpen := false, xoff := true, closing := false, frames := [], session := 0, cpl := 0, owner := 0, reject := false
      win := {} }) }

end Sys2Proof.Machine
end

