-- ==== Sys2Proof/Machine/Skein.lean ====
section
/-! DEFINITION. Skein: the scans over marked rings, the descriptor reads, the ring-context cache and the arrival of
descriptors and lists in the job table (04 R91 to R96, R103, R110, R112, R115, R116). -/
namespace Sys2Proof.Machine

/-! ### The scans (04 R93) -/

/-- The lowest bit of a word from bit `k` on. -/
def lowBit (w : BitVec 64) (k : Nat) : Option Nat := (List.range 64).find? (fun i => decide (k ≤ i) && w.getLsbD i)

/-- The first marked ring at or after `ptr` in the leaf words; a listed word is nonzero, so the summary and top levels lead
to the same ring (04 R91). -/
def nextLeaf (t : Tbl (BitVec 64)) (ptr : Nat) : Option Nat :=
  t.findSome? (fun e => if e.1 < ptr / 64 then none
    else (lowBit e.2 (if e.1 = ptr / 64 then ptr % 64 else 0)).map (fun b => 64 * e.1 + b))

def nextBulk (k : Skein) : Option Nat :=
  match nextLeaf k.leaf k.bulkPtr with
  | some x => some x
  | none => nextLeaf k.leaf 0

/-- The least number of a list at or after a pointer, or else the least. -/
def nextFrom (l : List Nat) (ptr : Nat) : Option Nat :=
  match leastBy id (l.filter (fun x => decide (ptr ≤ x))) with
  | some x => some x
  | none => leastBy id l

/-- The ring of the next visit: with both scans marked, the scans alternate. -/
def nextVisit (k : Skein) : Option (Nat × Bool) :=
  match nextFrom k.urgent k.urgPtr, nextBulk k with
  | none, none => none
  | some u, none => some (u, true)
  | none, some b => some (b, false)
  | some u, some b => if k.lastUrgent then some (b, false) else some (u, true)

/-- The rotation moved past a visited ring. -/
def movePtr (id : Nat) (urgent : Bool) (k : Skein) : Skein :=
  if urgent then { k with urgPtr := (id + 1) % 2 ^ 20, lastUrgent := true } else { k with bulkPtr := (id + 1) % 2 ^ 20, lastUrgent := false }

/-! ### The context cache (04 R96) -/

def cacheUsed (s : State) : Nat := tcount s.rings (fun _ r => r.cached || r.ctxRead)

/-- The least recently used unpinned context. -/
def lruRing (s : State) : Option (Nat × Ring) :=
  leastBy (fun e => e.2.lastUse) (s.rings.filter (fun e => e.2.cached && !e.2.urgent))

/-- A context written back to the carve-out and dropped from the cache. -/
def evictRing (s : State) : State :=
  if cacheUsed s < 4096 then s
  else match lruRing s with
    | none => s
    | some (id, r) => writeRing id { r with cached := false } s

/-- The read of a context that is not cached. -/
def fetchContext (id : Nat) (s : State) : State :=
  match tget s.rings id with
  | none => s
  | some r =>
    if r.cached || r.ctxRead then s
    else
      let s1 := evictRing s
      issue (readReqs s.keys.selfSid true (.by id) (fun _ => .context id) (s.keys.carveBase + ringRecOff id) 128)
        { s1 with rings := tput s1.rings id { r with ctxRead := true } }

/-- The context used now. -/
def touchRing (id : Nat) (s : State) : State :=
  { s with rings := tmod s.rings id (fun r => { r with lastUse := s.skein.useSeq }), skein := { s.skein with useSeq := s.skein.useSeq + 1 } }

/-! ### A visit (04 R95) -/

/-- Entries of outstanding descriptor reads, of all rings or of a port's: each has its place in the job table. -/
def onTheWay (s : State) (p : Ring → Bool) : Nat := s.rings.foldl (fun a e => if p e.2 then a + descOut e.2 else a) 0

def jobsFree (s : State) : Nat := 8192 - s.jobs.length - onTheWay s (fun _ => true)

/-- Room under a port's JOBS_MAX; 0 means no limit (05 R143). -/
def portRoom (s : State) (p : Nat) : Nat :=
  let m := (tgetD s.ports p {}).jobsMax
  if m = 0 then 8192 else m - tcount s.jobs (fun _ j => j.port == p) - onTheWay s (fun r => r.port == p)

/-- Records written and not consumed. -/
def recordsOut (r : Ring) : Nat := (r.tail + 2 ^ r.log2 - r.head % 2 ^ r.log2) % 2 ^ r.log2

/-- Free records of a completion ring: one slot stays empty (04 R100, R116). -/
def cplFree (r : Ring) : Nat := 2 ^ r.log2 - 1 - recordsOut r - r.doneSlots.length - r.reserved

/-- Entries that the visit fetches: up to 512 bytes, to the tail, behind those on their way, and within the limits of 04 R95. -/
def visitCount (s : State) (r cpl : Ring) : Nat :=
  [unfetched r - descOut r, 512 / entrySize r.gen, jobsFree s, portRoom s r.port, cplFree cpl].foldl min 512

/-- The parts in which `n` entries from entry `k` are read: cut at the ring's wrap and at 4 KiB boundaries (04 R95); each with its
first entry and its address and length. -/
def visitParts (r : Ring) (k n : Nat) : List (Nat × Nat × Nat) :=
  let size := entrySize r.gen
  let n1 := min n (2 ^ r.log2 - k)
  (spans (r.base + k * size) (n1 * size)).map (fun p => (k + (p.1 - (r.base + k * size)) / size, p.1, p.2))
  ++ (if n1 < n then spans r.base ((n - n1) * size) else []).map (fun p => ((p.1 - r.base) / size, p.1, p.2))

/-- The reads of a visit: each part has the next read number. -/
def visitReads (r : Ring) (parts : List (Nat × Nat × Nat)) : List DescRead :=
  (List.range parts.length).zipWith (fun i p => { id := r.readSeq + i, first := p.1, count := p.2.2 / entrySize r.gen }) parts

/-- One visit to a ring. -/
def visitRing (id : Nat) (r : Ring) (s : State) : State :=
  match tget s.rings r.cplRing with
  | none => s
  | some cpl =>
    if !r.cached then fetchContext id s
    else if !cpl.cached then fetchContext r.cplRing s
    else if unfetched r = 0 then { s with skein := unmarkRing id s.skein }
    else if r.stopped || r.draining || cpl.stopped || cpl.draining then s
    else
      let n := visitCount s r cpl
      if n = 0 then s
      else
        let parts := visitParts r ((r.head + descOut r) % 2 ^ r.log2) n
        let new := visitReads r parts
        let sid := (tgetD s.ports r.port {}).sid
        let reqs := (new.zipWith (fun x p => readReqs sid false (.by id) (fun _ => .desc id x.id x.count) p.2.1 p.2.2) parts).flatten
        issue reqs (touchRing r.cplRing (touchRing id { s with
          rings := tmod (tput s.rings id { r with reads := r.reads ++ new, readSeq := r.readSeq + parts.length }) r.cplRing
            (fun c => { c with reserved := c.reserved + n }) }))

/-- SKEIN_VISIT. -/
def execSkeinVisit (s : State) : Host.Outcome State Fault Refusal :=
  .next (if running s then
      (match nextVisit s.skein with
       | none => s
       | some (id, u) =>
         let s1 := { s with skein := movePtr id u s.skein }
         match tget s.rings id with
         | none => { s1 with skein := unmarkRing id s1.skein }
         | some r => visitRing id r s1)
    else s)

/-! ### Arrival of descriptors (04 R107, R110, R112, R115; 05 R139) -/

/-- The acceptance time of the doorbell that first made an entry visible (05 R139). -/
def stampOf (r : Ring) (ix now : Nat) : Nat :=
  let n := 2 ^ r.log2
  let d := fun (x : Nat) => (x + n - r.head % n) % n
  ((r.stamps.find? (fun t => decide (d ix < d t.1))).map (·.2)).getD now

/-- Stamps still of use once HEAD has moved by `k`. -/
def keepStamps (r : Ring) (k : Nat) : List (Nat × Nat) :=
  r.stamps.filter (fun t => decide (k < (t.1 + 2 ^ r.log2 - r.head % 2 ^ r.log2) % 2 ^ r.log2))

/-- A list element (04 R110): address, length and whether its reserved bytes are 0. -/
def parseList (n : Nat) (b : Bytes) : List (Nat × Nat) × Bool :=
  ((List.range n).map (fun i => (fld b (16 * i) 8, fld b (16 * i + 8) 4)), (List.range n).all (fun i => fld b (16 * i + 12) 4 == 0))

/-- Whether a list can be read: 1 to 8 elements, aligned, within a page (04 R110). -/
def listReadable (addr n : Nat) : Bool :=
  decide (1 ≤ n) && decide (n ≤ 8) && addr % 16 == 0 && addr / 4096 == (addr + 16 * n - 1) / 4096

/-- BYTES that an OK completion of a link reports, and where those bytes lie (04 R112). -/
def linkBytes (d : Desc) : Nat := if d.op = 0x30 then d.outLen else dataLen d

/-- The first link takes no forwarded input, and a forwarded one follows ENCRYPT, DECRYPT or RANDOM with its own input
fields 0 (04 R112). -/
def fwdBad (prev : Option Job) (d : Desc) : Bool :=
  d.chainFwd && (d.inAddr != 0 || d.inLen != 0 || d.inSgl != 0 || (match prev with
    | none => true
    | some p => !(p.desc.op == 1 || p.desc.op == 2 || p.desc.op == 0x30)))

/-- The input of a CHAIN_FWD link. -/
def fwdDesc (prev : Option Job) (d : Desc) : Desc × List (Nat × Nat) :=
  match prev with
  | some p => if d.chainFwd then ({ d with inAddr := p.desc.outAddr, inLen := linkBytes p.desc }, takeSpan p.outList (linkBytes p.desc)) else (d, [])
  | none => (d, [])

/-- The job before a ring's next entry, if it is a link of the chain still open. -/
def prevLink (s : State) (id : Nat) (r : Ring) : Option Job :=
  match r.chain with
  | none => none
  | some (h, k) => (tfind s.jobs (fun _ j => j.chainHead == some h && j.link + 1 == k && (match j.src with
      | .ring x _ => x == id
      | _ => false))).map (·.2)

/-- One entry put into the job table, with its list reads. -/
def addJob (id ix : Nat) (b : Bytes) (s : State) : State :=
  match tget s.rings id, tfree s.jobs 0 8192 with
  | some r, some i =>
    let d0 := parseDesc r.gen b
    let prev := prevLink s id r
    let q := fwdDesc prev d0
    let linked := r.chain.isSome
    let link := (r.chain.map (·.2)).getD 0
    let seq := s.jobSeq
    let head := match r.chain with
      | some (h, k) => if k ≤ 16 then some h else none
      | none => if d0.chain then some seq else none
    let rIn := d0.gen == 3 && listReadable d0.inAddr d0.inSgl && !d0.chainFwd
    let rOut := d0.gen == 3 && listReadable d0.outAddr d0.outSgl
    let j : Job :=
      { src := .ring id ix, desc := q.1, port := r.port, seq := seq, urgent := r.urgent, tDb := stampOf r ix s.clk.now
        cpl := r.cplRing, phase := if rIn || rOut then .fetched else .checked, inList := q.2, chainHead := head, link := link
        fetchBad := fwdBad prev d0 || decide (17 ≤ link) && linked
        readsLeft := b2n rIn + b2n rOut }
    let chain := if d0.chain then some ((r.chain.map (·.1)).getD seq, link + 1) else none
    let sid := (tgetD s.ports r.port {}).sid
    issue ((if rIn then readReqs sid false (.by id) (fun o => .jobIn seq .listIn o) d0.inAddr (16 * d0.inSgl) else [])
           ++ (if rOut then readReqs sid false (.by id) (fun o => .jobIn seq .listOut o) d0.outAddr (16 * d0.outSgl) else []))
      { s with jobs := tput s.jobs i j, jobSeq := seq + 1, rings := tput s.rings id { r with chain := chain } }
  | _, _ => s

def addJobs (id ix n size : Nat) (b : Bytes) (s : State) : State :=
  match n with
  | 0 => s
  | n + 1 => addJobs id (ix + 1) n size (b.drop size) (addJob id ix (b.take size) s)

/-- The reads at the front that have arrived, taken into the job table one after another: HEAD moves past them (04 R99). -/
def takeReads (fuel id : Nat) (s : State) : State :=
  match fuel with
  | 0 => s
  | f + 1 =>
    match tget s.rings id with
    | none => s
    | some r =>
      match r.reads with
      | [] => s
      | x :: rest =>
        match x.got with
        | none => s
        | some b =>
          let s1 := addJobs id x.first x.count (entrySize r.gen) b s
          takeReads f id { s1 with rings := tmod s1.rings id (fun y => { y with
            reads := rest, head := (x.first + x.count) % 2 ^ y.log2, stamps := keepStamps y x.count }) }

/-- The descriptors of a read have arrived; the leaf bit clears once every entry is fetched (04 R92, R99). A read that its ring no
longer waits for is dropped. -/
def descArrive (id k : Nat) (b : Bytes) (s : State) : State :=
  match tget s.rings id with
  | none => s
  | some r =>
    let s1 := takeReads (r.reads.length + 1) id { s with rings := tput s.rings id { r with
      reads := r.reads.map (fun x => if x.id = k then { x with got := some b } else x) } }
    match tget s1.rings id with
    | some x => if unfetched x = 0 then { s1 with skein := unmarkRing id s1.skein } else s1
    | none => s1

/-- A ring stopped by a failed read (04 R103): an event names the ring on its port's source; a refusal is ACCESS_REFUSED, a timeout
FABRIC_TIMEOUT with the address. The rule speaks of the descriptor ring; where the context of a COMPLETION ring cannot be read, that
completion ring is stopped (DESIGN CHOICE, log 118). -/
def stopRing (id kind addr : Nat) (s : State) : State :=
  match tget s.rings id with
  | none => s
  | some r => raiseEvent (portSrc r.port) kind addr { s with rings := tput s.rings id { r with stopped := true, ctxRead := false } }

/-- A descriptor read has failed: the ring stops, and this read and those behind it are given up, so that HEAD stays at the first entry
not fetched (04 R103). -/
def descFail (id k kind addr : Nat) (s : State) : State :=
  match tget s.rings id with
  | none => s
  | some r =>
    if !r.reads.any (fun x => x.id == k) then s
    else stopRing id kind addr { s with rings := dropReads id (r.reads.takeWhile (fun x => x.id != k)) r s.rings }

/-- A ring context has arrived: it is taken only if its tag and version check (06 R175). -/
def contextArrive (id : Nat) (b : Bytes) (s : State) : State :=
  match tget s.rings id with
  | none => s
  | some r =>
    let s1 := wakeWaiting (ringRecOff id) s
    if b == sealedRecord s (ringRecOff id) r.stored then
      touchRing id { s1 with rings := tput s.rings id { r with cached := true, ctxRead := false } }
    else raiseEvent 0x0B1 kRecordCheck (ringRecOff id) { s1 with rings := tput s.rings id { r with stopped := true, cached := true, ctxRead := false } }

/-- The forwarded input of the next link, once this link's output list is here (04 R112). -/
def forwardTo (j : Job) (s : State) : State :=
  match j.chainHead with
  | none => s
  | some h => { s with jobs := tmap s.jobs (fun _ x =>
      if x.chainHead == some h && x.link == j.link + 1 && x.desc.chainFwd then
        { x with inList := takeSpan j.outList (linkBytes j.desc) } else x) }

/-- The status of a failed access of a job (02 Table 2-4). -/
def Access.jobStatus (a : Access) : Status :=
  match a with
  | .ok => .ok
  | .denied | .decode => .accessFault
  | .poison | .parity => .poisoned
  | .timeout | .isolated => .unitFault

/-- One part of a job's lists has arrived or failed; with the last, the job is ready for its checks, or fails as 04 R110
states, in its turn where it is a link of a chain. -/
def listArrive (q : Nat) (part : JobPart) (a : Access) (b : Bytes) (s : State) : State :=
  match jobBySeq s q with
  | none => s
  | some (i, j) =>
    let n := if part = .listIn then j.desc.inSgl else j.desc.outSgl
    let l := parseList n b
    let left := j.readsLeft - 1
    let j1 : Job := { j with
      readsLeft := left
      inList := if part = .listIn ∧ a = .ok then l.1 else j.inList
      outList := if part = .listOut ∧ a = .ok then l.1 else j.outList
      fetchBad := j.fetchBad || (a == .ok && !l.2)
      listFail := j.listFail || a != .ok
      readFail := match j.readFail with
        | some x => some x
        | none => if a = .ok then none else some a }
    let s1 := forwardTo j1 { s with jobs := tput s.jobs i j1 }
    if left ≠ 0 ∨ j.phase ≠ .fetched then s1
    else match j1.readFail with
      | none => setJob i (fun x => { x with phase := .checked }) s1
      | some f =>
        let scrub := j1.outList.isEmpty && decide (0 < j1.desc.outSgl)
        let s2 := setJob i (fun x => { x with scrubFail := scrub, phase := .checked, status := f.jobStatus }) s1
        if j1.chainHead.isSome then s2 else failJob i f.jobStatus 0 s2

end Sys2Proof.Machine
end

