-- ==== Sys2Proof/Machine/Posting.lean ====
section
/-! DEFINITION. The completion writer: records, chains in their turn, acknowledgements and interrupt messages (04 R112, R116 to
R122; 05 R132). -/
namespace Sys2Proof.Machine

/-- Whether every earlier job of the same ring or channel is posted (04 R119). -/
def turnCome (s : State) (j : Job) : Bool :=
  !s.jobs.any (fun e => sameSource e.2 j && decide (e.2.seq < j.seq) && e.2.phase != .posted)

/-- A number's distance from a rotating pointer. -/
def turnsTo (size ptr x : Nat) : Nat := (x + size - ptr % size) % size

/-- The number by which a job's descriptor ring or channel takes its turn. -/
def srcTurn (j : Job) : Nat :=
  match j.src with
  | .ring id _ => id
  | .stream n _ => 2 ^ 20 + n
  | .block _ => 2 ^ 21 - 1

/-- The order of 04 R119: by the entry into the merge queue, in one cycle round-robin by completion ring, then by descriptor ring. -/
def postOrder (k : Skein) (j : Job) : Nat :=
  j.mergedAt * 2 ^ 41 + turnsTo (2 ^ 20) k.cplPtr j.cpl * 2 ^ 21 + turnsTo (2 ^ 21) k.postPtr (srcTurn j)

/-- The jobs of the merge queue that may be posted now: those whose turn has come, on a completion ring that is not STOPPED. -/
def postable (s : State) (p : Job → Bool) : List (Nat × Job) :=
  s.merge.filterMap (fun i => match jobOf s i with
    | none => none
    | some j => match tget s.rings j.cpl with
      | some r => if p j && turnCome s j && !r.stopped then some (i, j) else none
      | none => none)

/-- The job that the completion writer takes next (04 R119), with its completion ring. -/
def nextPost (s : State) (p : Job → Bool) : Option (Nat × Job × Ring) :=
  match leastBy (fun e => postOrder s.skein e.2) (postable s p) with
  | none => none
  | some (i, j) => (tget s.rings j.cpl).map (fun r => (i, j, r))

/-- The completion record (04 Table 4-9). -/
def recordBytes (j : Job) (phase : Bool) : Bytes :=
  let src := match j.src with
    | .ring id ix => (ix % 65536, id % 2 ^ 20, 0)
    | .stream n _ => (0xFFFF, n % 64, 1)
    | .block _ => (0xFFFF, 0, 0)
  leBytes 2 src.1 ++ leBytes 1 j.status.code
    ++ leBytes 1 (b2n phase + 2 * (j.verdict % 4) + 8 * src.2.2 + 16 * b2n j.scrubFail) ++ leBytes 3 src.2.1 ++ [0]
    ++ leBytes 4 j.bytes ++ leBytes 4 j.desc.cookie

/-- TAIL moved past one slot: PHASE turns at the wrap (04 R118). -/
def advanceTail (r : Ring) : Ring :=
  let wrap := r.tail + 1 = 2 ^ r.log2
  { r with tail := if wrap then 0 else r.tail + 1, phase := if wrap then !r.phase else r.phase }

/-- TAIL moved past the slots whose records stand acknowledged already (04 R103). -/
def skipDone (fuel : Nat) (r : Ring) : Ring :=
  match fuel with
  | 0 => r
  | f + 1 => if r.doneSlots.contains r.tail then skipDone f (advanceTail { r with doneSlots := r.doneSlots.filter (· != r.tail) }) else r

/-- One record taken into the beat: the reservation is released, and TAIL moves (04 R116, R118). -/
def takeRecord (i : Nat) (j : Job) (r : Ring) (s : State) : State :=
  { s with
    merge := s.merge.filter (· != i)
    jobs := tmod s.jobs i (fun j => { j with phase := .posted, slot := r.tail, recPhase := r.phase })
    rings := tput s.rings j.cpl { skipDone r.doneSlots.length (advanceTail r) with reserved := r.reserved - 1 }
    skein := { s.skein with postPtr := (srcTurn j + 1) % 2 ^ 21 } }

/-- The next link of a chain when the record before it is posted (04 R112): it runs, or completes with its own status, or
with CHAIN_ABORTED after any status but OK. -/
def nextLink (j : Job) (s : State) : State :=
  match j.chainHead with
  | none => s
  | some h =>
    match tfind s.jobs (fun _ x => x.chainHead == some h && x.link == j.link + 1 && x.waitPrev) with
    | none => s
    | some (i, x) =>
      let s1 := setJob i (fun y => { y with waitPrev := false }) s
      if j.status ≠ .ok then (if x.counted then failJob i .chainAborted 0 s1 else refuseJob i .chainAborted s1)
      else if x.status ≠ .ok then refuseJob i x.status s1
      else issueInputs i s1

/-- Whether a record for slot `t` joins the beat: the slots of a beat are consecutive and lie within 128 bytes (04 R118). -/
def joinsBeat (acc : List Job) (t : Nat) : Bool :=
  match acc.getLast? with
  | none => true
  | some x => t == x.slot + 1 && t % 8 != 0

/-- Records gathered into one beat: up to 8 of one completion ring (04 R120). -/
def gather (fuel c : Nat) (acc : List Job) (s : State) : List Job × State :=
  match fuel with
  | 0 => (acc, s)
  | f + 1 =>
    match nextPost s (fun j => j.cpl == c) with
    | none => (acc, s)
    | some (i, j, r) =>
      if joinsBeat acc r.tail then gather f c (acc ++ [{ j with slot := r.tail, recPhase := r.phase }]) (nextLink j (takeRecord i j r s))
      else (acc, s)

/-- The beat written (04 R118). -/
def postBeat (c : Nat) (r : Ring) (js : List Job) (s : State) : State :=
  issue (writeReqs (tgetD s.ports r.port {}).sid false (.by c) (.record c (js.map (·.seq))) (r.base + 16 * r.tail)
    (js.map (fun j => recordBytes j j.recPhase)).flatten) s

/-- COMPLETION_POST: one beat; a completion ring whose context is not cached has it read first (04 R96). -/
def execCompletionPost (s : State) : Host.Outcome State Fault Refusal :=
  .next (if running s then
      (match nextPost s (fun _ => true) with
       | none => s
       | some (_, j, r) =>
         if !r.cached then fetchContext j.cpl s
         else
           let q := gather 8 j.cpl [] { s with skein := { s.skein with cplPtr := (j.cpl + 1) % 2 ^ 20 } }
           postBeat j.cpl r q.1 (touchRing j.cpl q.2))
    else s)

/-! ### Interrupts (04 R121, R122) -/

/-- The message, and the count at 0 again. -/
def sendIrq (c : Nat) (r : Ring) (s : State) : State :=
  let p := tgetD s.ports r.port {}
  issue (writeReqs p.sid false (.by c) (.irq c) (p.irqBase + 8 * r.vector) (leBytes 8 (c % 2 ^ 20 + 2 ^ 32 * min r.counted 65535)))
    { s with rings := tput s.rings c { r with counted := 0, irqNow := false, irqLate := false } }

/-- One record acknowledged on a completion ring. -/
def countRecord (c : Nat) (now irq : Bool) (s : State) : State :=
  match tget s.rings c with
  | none => s
  | some r =>
    let v := r.coalNext.getD (r.coalCount, r.coalUs)
    let r1 : Ring := { r with coalCount := v.1, coalUs := v.2, coalNext := none, counted := r.counted + 1, oldest := if r.counted = 0 then s.clk.now else r.oldest
                              irqNow := r.irqNow || irq }
    let s1 := { s with rings := tput s.rings c r1 }
    if now && (tgetD s.ports r.port {}).irqEn && irqDue s.clk.now r1 then sendIrq c r1 s1 else s1

/-- COALESCE_TIMER_EXPIRY. -/
def execCoalesceTimerExpiry (ring : BitVec 20) (s : State) : Host.Outcome State Fault Refusal :=
  .next (match tget s.rings ring.toNat with
    | none => s
    | some r =>
      if working s && r.isCpl && !r.irqLate && r.coalUs != 0 && decide (0 < r.counted) && decide (r.oldest + cyUs r.coalUs ≤ s.clk.now)
          && (tgetD s.ports r.port {}).irqEn then sendIrq ring.toNat r s
      else s)

/-! ### Acknowledged records -/

/-- The frame of a stream job leaves its channel once its last word has come. -/
def endFrame (n f : Nat) (st : Status) (s : State) : State :=
  { s with chans := tmod s.chans n (fun c => { c with
    frames := (c.frames.map (fun x => if x.number = f then
        { x with done := true, discard := true, job := none, drops := x.drops || st == .windowShort } else x)).filter
      (fun x => !(x.done && x.eof)) }) }

/-- Statuses that Table 5-4 counts as done. -/
def countsDone (st : Status) : Bool := st == .ok || st == .lengthTruncated || st == .tagMismatch

/-- A job whose record is acknowledged leaves the job table; its counts move (05 R132, R151). -/
def retireJob (c i : Nat) (j : Job) (s : State) : State :=
  let late := j.counted && j.bound != 0 && decide (j.bound < s.clk.now)
  let s1 := { s with jobs := tdel s.jobs i }
  let s2 := modPort j.port (fun p => { p with
    completed := p.completed + b2n j.counted, late := if late then satAdd 32 p.late 1 else p.late }) s1
  let s3 := if j.counted then ledger j.port (fun l => if countsDone j.status then { l with done := l.done + 1 } else { l with failed := l.failed + 1 }) s2
    else s2
  let s4 := match j.src with
    | .stream n f => endFrame n f j.status s3
    | _ => s3
  countRecord c true j.desc.irqNow s4

def retireAll (c : Nat) (l : List Nat) (s : State) : State :=
  match l with
  | [] => s
  | q :: r => match jobBySeq s q with
    | some (i, j) => retireAll c r (if j.phase = .posted then retireJob c i j s else s)
    | none => retireAll c r s

/-- The jobs of a completion ring whose records are written and not acknowledged, from slot `from_` on, in the order of their slots. -/
def heldFrom (s : State) (c from_ : Nat) (r : Ring) : List (Nat × Job) :=
  let d := turnsTo (2 ^ r.log2) from_
  ((s.jobs.filter (fun e => e.2.phase == .posted && e.2.cpl == c && decide (d e.2.slot < turnsTo (2 ^ r.log2) from_ r.tail))).foldl
    (fun a e => insertByStart (e.1, { e.2 with tStart := d e.2.slot }) a) [])

/-- A record write refused or timed out: the completion ring is STOPPED, and the record and every later one of the ring not yet
acknowledged stay held, to be written from the first such record's slot on; the slots behind it that are acknowledged keep their
records (04 R103; log 19). -/
def holdRecords (c : Nat) (l : List Nat) (kind addr : Nat) (s : State) : State :=
  match tget s.rings c, l.findSome? (jobBySeq s) with
  | some r, some (_, j0) =>
    if j0.phase ≠ .posted then s
    else
      let held := heldFrom s c j0.slot r
      let back := (List.range (turnsTo (2 ^ r.log2) j0.slot r.tail)).map (fun k => (j0.slot + k) % 2 ^ r.log2)
      let acked := back.filter (fun t => !held.any (fun e => e.2.slot == t))
      raiseEvent (portSrc r.port) kind addr
        { s with
          jobs := tmap s.jobs (fun i j => if held.any (fun e => e.1 == i) then { j with phase := .merge } else j)
          merge := held.map (·.1) ++ s.merge
          rings := tput s.rings c { r with stopped := true, tail := j0.slot, phase := j0.recPhase, reserved := r.reserved + held.length
                                           doneSlots := acked ++ r.doneSlots.filter (fun t => !back.contains t) } }
  | _, _ => s

end Sys2Proof.Machine
end

