-- ==== Sys2Proof/Machine/Deliver.lean ====
section
/-! DEFINITION. What becomes of a fabric response, by the owner of its request (02 Table 2-4; 03 R70, R72, R462, R464; 05 R152;
06 R169, R175, R181). -/
namespace Sys2Proof.Machine

/-- The event of a failed access that the table names: a refusal with its number, a timeout with the request's address. -/
def accessEvent (a : Access) (number addr : Nat) : Nat × Nat :=
  if a = .timeout then (kFabricTimeout, addr / 4096) else (kAccessRefused, number)

def noRing : Nat := 0xFFFFF

/-- A read of a source's SRAM that no array of 13 Table 13-4 holds: an injected ECC error is met (12 Table 12-6); its row and word are a
free value. -/
def eccInjected (src : Nat) (s : State) : State :=
  match injectedAt s.flt src 0 with
  | none => s
  | some double =>
    raiseEvent src (if double then kEccUncorrectable else kEccCorrected) (leNat (freeBytes s 6) % 2 ^ 44) (useFree 6 (takeInject src 0 s))

/-! ### Job transfers -/

/-- A transfer of a job that already ends with another status is lost with its port, or times out: the job completes with
UNIT_FAULT (02 Table 2-4). -/
def lostTransfer (i : Nat) (a : Access) (s : State) : State :=
  if a = .timeout ∨ a = .isolated then
    setJob i (fun x => if x.phase = .scrub ∨ x.phase = .merge then { x with status := .unitFault } else x) s
  else s

/-- The cycle in which a started job needs a part of what it reads: its input and its checkpoints as it works through its data, META at its
end (01 R25; log 24). -/
def needOf (j : Job) (r : Session) (part : JobPart) (off : Nat) : Nat :=
  match part with
  | .input => neededAt j off (inBytes r j.desc)
  | .ckptIn => neededAt j ((off / 16 + 1) * ligatureL r.ligature) (dataLen j.desc)
  | _ => engineStop j

/-- One part of a job's input, META or checkpoints is here, perhaps after a stall, or has failed; the first failure ends the job. -/
def inputArrive (q : Nat) (part : JobPart) (off : Nat) (a : Access) (b : Bytes) (s : State) : State :=
  match jobBySeq s q with
  | none => s
  | some (i, j) =>
    let s1 := setJob i (fun x => { x with
      readsLeft := x.readsLeft - 1
      inGot := if part = .input ∧ a = .ok then tput x.inGot off b else x.inGot
      metaGot := if part = .metaIn ∧ a = .ok then tput x.metaGot off b else x.metaGot
      ckptGot := if part = .ckptIn ∧ a = .ok then tput x.ckptGot off b else x.ckptGot }) s
    if a = .ok then (match j.sess with
      | some r => stallJob i (needOf j r part off) s1
      | none => s1)
    else if j.status ≠ .ok then lostTransfer i a s1 else failJob i a.jobStatus 0 s1

/-- A job whose last write is acknowledged enters the merge queue. -/
def mergeWritten (i : Nat) (s : State) : State :=
  match jobOf s i with
  | some j => if j.phase = .writing ∧ j.writesLeft = 0 then toMerge i s else s
  | none => s

/-- An output write of a job is acknowledged or has failed: checkpoint tags that it held up go out, and with the last the job is merged, or
its zero-fill starts (01 R19; 04 R119, R123; 07 R203). -/
def outAck (q : Nat) (a : Access) (s : State) : State :=
  match jobBySeq s q with
  | none => s
  | some (i, j) =>
    let s1 := lostTransfer i a (setJob i (fun x => { x with writesLeft := x.writesLeft - 1 }) s)
    if a ≠ .ok ∧ j.phase ≠ .scrub then failJob i a.jobStatus 0 s1
    else if j.phase = .scrub then (if j.zeroIssued || decide (1 < j.writesLeft) then s1 else startZero i s1)
    else mergeWritten i (issueDue i s1)

/-- Zero-fill writes not yet issued, cancelled when one has failed (04 R124). -/
def cancelZero (q : Nat) (s : State) : State :=
  let mine := fun (r : Req) => r.owner == .jobZero q
  match jobBySeq s q with
  | none => s
  | some (i, _) =>
    { s with fab := { s.fab with waiting := s.fab.waiting.filter (fun r => !mine r) }
             jobs := tmod s.jobs i (fun x => { x with writesLeft := x.writesLeft - (s.fab.waiting.filter mine).length }) }

/-- A zero-fill write is acknowledged, or has stopped the zero-fill (04 R123, R124). -/
def zeroAck (q : Nat) (a : Access) (s : State) : State :=
  match jobBySeq s q with
  | none => s
  | some (i, j) =>
    let s1 := setJob i (fun x => { x with
      writesLeft := x.writesLeft - 1, scrubFail := x.scrubFail || a != .ok, status := if a = .isolated then .unitFault else x.status }) s
    let s2 := if a = .ok then s1 else cancelZero q s1
    match jobOf s2 i with
    | some x => if x.writesLeft = 0 ∧ j.phase = .scrub then toMerge i s2 else s2
    | none => s2

/-! ### The control path -/

/-- Admin-ring bytes (03 R70, R464). -/
def adminArrive (gen addr : Nat) (a : Access) (b : Bytes) (s : State) : State :=
  if gen ≠ s.cmd.adminGen then s
  else if a = .ok then
    adminFetch { s with cmd := { s.cmd with
      readOut := false, landing := s.cmd.landing ++ b, readPtr := (s.cmd.readPtr + b.length) % adminSize s.cmd } }
  else readFailHalt { s with cmd := { s.cmd with readOut := false, readFail := some (accessEvent a noRing addr) } }

/-- One write of the reply in flight; after the last, TAIL moves and the interrupt is raised, or the reply is lost (03 R72,
R464). -/
def replyAck (addr : Nat) (a : Access) (s : State) : State :=
  match s.cmd.replyOut with
  | none => s
  | some h =>
    let bad := s.cmd.replyBad || a != .ok
    let left := s.cmd.replyParts - 1
    let ev := accessEvent a noRing addr
    let s0 := if a ≠ .ok ∧ !s.cmd.replyBad then raiseEvent 0x0A3 ev.1 ev.2 s else s
    let s1 := { s0 with cmd := { s0.cmd with replyParts := left, replyBad := bad } }
    if left ≠ 0 then s1
    else
      let c := { s1.cmd with
        replyOut := none, replyBad := false
        replyTail := if bad then s1.cmd.replyTail else (s1.cmd.replyTail + (replyBytes h.reply).length) % ringBytes s1.cmd.replyLog2
        irqReply := s1.cmd.irqReply || (h.notify && !bad), irqReplyLost := s1.cmd.irqReplyLost || bad }
      let s2 := sendReply { s1 with cmd := answeredAt c h }
      { s2 with cmd := startAll s2.clk.now s2.cmd }

/-- Bytes read for a command (03 R462). -/
def cmdArrive (cid off : Nat) (a : Access) (b : Bytes) (s : State) : State :=
  setEntry cid (fun e => { e with
    readLeft := e.readLeft - 1, landed := if a = .ok then tput e.landed off b else e.landed
    failure := match e.failure with
      | some x => some x
      | none => if a = .ok then none else some a.cmdStatus }) s

/-- The reply of a command whose write failed: no payload, DETAIL 0 (03 R462, R77). -/
def failedReply (a : Access) (r : Reply) : Reply :=
  if a = .ok ∨ r.status ≠ .ok then r else { r with status := a.cmdStatus, payload := [], detail := 0 }

/-- A write made for a command is acknowledged; the reply follows the last (03 R462). -/
def cmdAck (cid : Nat) (a : Access) (s : State) : State :=
  let s1 := setEntry cid (fun e => { e with acks := e.acks - 1, reply := e.reply.map (failedReply a) }) s
  match entryOf s1 cid with
  | none => s1
  | some e => match e.reply with
    | some r => if e.acks = 0 ∧ e.fence.isNone ∧ e.opcode ≠ 0x0206 then finish e r s1 else s1
    | none => s1

/-! ### Sessions and keys in the carve-out (06 R169, R175, R181) -/

/-- The row of a session index. -/
def jobsOfSession (s : State) (ix : Nat) : List Nat :=
  (s.jobs.filter (fun e => e.2.phase == .checked && sessIndex e.2.desc.handle == ix)).map (·.1)

def failJobs (l : List Nat) (st : Status) (s : State) : State := l.foldl (fun a i => failJob i st 0 a) s

/-- The event of a failed carve-out access: a refusal on 0x0B1; a timeout is raised on the fabric port (02 Table 2-4). -/
def carveEvent (a : Access) (s : State) : State :=
  if a = .timeout then s else raiseEvent 0x0B1 kAccessRefused noRing s

/-- The session as its record says: the cached counter values were written back, or they are lost and it resumes at the stored ceiling (06
R182). -/
def resumeSession (r : Session) : Session :=
  if r.lost then { r with next := r.storedCeil, ceiling := r.storedCeil, lost := false } else r

/-- A session record is here: the one that host memory returns must check (06 R175). After a loss of the cache a new reservation follows
(R182). -/
def sessArrive (ix : Nat) (a : Access) (b : Bytes) (s : State) : State :=
  match tget s.keys.sessions ix with
  | none => s
  | some r =>
    let s1 := modSession ix (fun x => { x with reading := false }) s
    if a ≠ .ok then carveEvent a (failWaiting (sessOff ix) a (failJobs (jobsOfSession s1 ix) a.jobStatus s1))
    else match sessRecord s ix r b with
      | none => failSession ix s1
      | some x =>
        let s2 := modSession ix (fun _ => { resumeSession x with cached := true, reading := false, lastUse := s.skein.useSeq }) s1
        let s3 := { s2 with skein := { s2.skein with useSeq := s2.skein.useSeq + 1 } }
        if r.lost then raiseCeiling ix s3 else s3

/-- A raised ceiling is usable once its record and the entry of the version tree are acknowledged; after a failed write the jobs held for it
end (06 R181). -/
def ceilingAck (ix c : Nat) (a : Access) (s : State) : State :=
  match tget s.keys.sessions ix with
  | none => s
  | some r =>
    if !r.raising then s
    else if a ≠ .ok then
      let s1 := modSession ix (fun x => { x with raising := false }) s
      let held := (s.jobs.filter (fun e => sessIndex e.2.desc.handle == ix && beyondCeiling s r e.2
        && (e.2.phase == .checked || (e.2.phase == .held && decide (e.2.tTok ≤ s.clk.now))))).map (·.1)
      carveEvent a (failJobs held a.jobStatus s1)
    else if ownerOpen s.fab (.ceiling ix c) then s
    else modSession ix (fun x => { recordStored x with raising := false, ceiling := c }) s

/-- A session record written back; one whose write fails is lost with the values that it kept (06 R182). -/
def storeAck (ix : Nat) (a : Access) (s : State) : State :=
  if a ≠ .ok then carveEvent a (modSession ix (fun x => { x with lost := !x.cached }) s)
  else if ownerOpen s.fab (.sessStore ix) then s
  else modSession ix recordStored s

/-- The first record of a session: the reply of SESSION_CREATE follows its acknowledgement (06 R181). -/
def createAck (ix : Nat) (a : Access) (s : State) : State :=
  let s1 := if a = .ok then s else carveEvent a s
  match s1.cmd.exec.find? (fun e => e.opcode == 0x0206 && e.work == [ix]) with
  | none => s1
  | some e =>
    if a ≠ .ok then answer e a.cmdStatus [] { s1 with keys := { s1.keys with sessions := tdel s1.keys.sessions ix } }
    else if ownerOpen s.fab (.sessWrite ix) then s1
    else finish e (e.reply.getD (replyTo s1 e .ok 0 [] false)) (modSession ix recordStored s1)

/-- A part of the version tree is written: the next one follows; one that failed is written again (06 R177; log 129). -/
def treeAck (a : Access) (s : State) : State :=
  if a ≠ .ok then carveEvent a (issue (treeReqs s (treeParts - s.keys.treeLeft)) s)
  else if ownerOpen s.fab .treeInit ∨ s.keys.treeLeft = 0 then s
  else
    let left := s.keys.treeLeft - 1
    let s1 := { s with keys := { s.keys with treeLeft := left } }
    if left = 0 then s1 else issue (treeReqs s1 (treeParts - left)) s1

/-- A spilled slot as its carve-out record holds it (06 R169). -/
def spillBody (n : Nat) (sl : Slot) : Bytes :=
  slotRow sl ++ leBytes 1 sl.keyType ++ [1] ++ leBytes 2 sl.usage.toNat ++ leBytes 2 sl.owner ++ leBytes 1 sl.matLen ++ [0]
    ++ leBytes 4 sl.gen ++ leBytes 4 sl.validUntil ++ leBytes 2 n

/-- The jobs that wait for the record of a spilled slot: those not evaluated, and those admitted and not started (06 R169). -/
def jobsOfSlot (s : State) (n : Nat) : List Nat :=
  (s.jobs.filter (fun e => (e.2.phase == .checked || (onUnit e.2 && !e.2.begun)) && (match jobSession s e.2 with
    | some r => r.key != 0 && handleSlot r.key == n
    | none => false))).map (·.1)

def spillArrive (n : Nat) (a : Access) (b : Bytes) (s : State) : State :=
  let sl := slotOf s n
  if a ≠ .ok then
    carveEvent a (failWaiting (spillOff n) a (failJobs (jobsOfSlot s n) a.jobStatus (writeSlot n { sl with reading := false } s)))
  else if b == sealedRecord s (spillOff n) (spillBody n sl) then writeSlot n { sl with reading := false, spilled := false } s
  else raiseEvent 0x0B1 kRecordCheck (spillOff n) (writeSlot n { sl with reading := false, spilled := false, state := .stale } s)

/-- An extended key record has arrived for a job, or for a command where `q` is none; one that fails its check makes the
slot STALE (06 R175; 09 R248). -/
def extArrive (n : Nat) (q : Option Nat) (a : Access) (b : Bytes) (s : State) : State :=
  let sl := slotOf s n
  let off := extOff (sl.ext.getD 0)
  let good := b == sealedRecord s off sl.material
  let s1 := if a ≠ .ok then carveEvent a s
    else if good then s
    else raiseEvent 0x0B1 kRecordCheck off (writeSlot n { sl with state := .stale } s)
  match q with
  | none => if a ≠ .ok then failWaiting off a s1 else wakeWaiting off s1
  | some q => match jobBySeq s1 q with
    | none => s1
    | some (i, j) =>
      let s2 := setJob i (fun x => { x with readsLeft := x.readsLeft - 1 }) s1
      if j.status ≠ .ok ∨ (a = .ok ∧ good) then s2 else failJob i (if a = .ok then .keyStale else a.jobStatus) 0 s2

/-! ### Ledgers (05 R152) -/

/-- Whether the record at an index of the ledger ring is still to be acknowledged. -/
def ledgerOpen (f : Fab) (k : Nat) : Bool :=
  f.waiting.any (fun r => r.owner == .ledger k) || f.ports.any (fun p => p.2.txns.any (fun t => t.req.owner == .ledger k))

/-- TAIL up to the first record not acknowledged. -/
def ledgerTail (fuel : Nat) (f : Fab) (size issued tail : Nat) : Nat :=
  match fuel with
  | 0 => tail
  | n + 1 => if tail = issued ∨ ledgerOpen f tail then tail else ledgerTail n f size issued ((tail + 1) % size)

def ledgerAck (s : State) : State :=
  { s with ep := { s.ep with tail := ledgerTail (ledgerSize s.ep) s.fab (ledgerSize s.ep) s.ep.issued s.ep.tail } }

/-! ### Delivery -/

/-- Whether a timeout of this owner raises FABRIC_TIMEOUT on the fabric port; the others raise it on their own source. -/
def portTimeout (o : Owner) : Bool :=
  match o with
  | .desc _ _ _ | .context _ | .record _ _ | .admin _ | .reply => false
  | _ => true

/-- A carve-out record read: the carve-out's own memory, which holds its version, is read with it (06 R174; 12 Table 12-6). -/
def recordRead (o : Owner) : Bool :=
  match o with
  | .context _ | .sessRead _ | .spill _ | .ext _ _ => true
  | _ => false

/-- The outcome of a request given to its owner. -/
def deliver (r : Req) (a : Access) (b : Bytes) (s0 : State) : State :=
  let s := if a = .ok && recordRead r.owner then eccInjected 0x0B1 s0 else s0
  match r.owner with
  | .desc ring k _ =>
    if a = .ok then descArrive ring k b s else let e := accessEvent a ring r.addr; descFail ring k e.1 e.2 s
  | .context ring =>
    if a = .ok then contextArrive ring b s
    else let e := accessEvent a ring r.addr; stopRing ring e.1 e.2 (failWaiting (ringRecOff ring) a s)
  | .jobIn q .listIn _ => listArrive q .listIn a b s
  | .jobIn q .listOut _ => listArrive q .listOut a b s
  | .jobIn q part off => startDue (inputArrive q part off a b s)
  | .jobOut q => outAck q a s
  | .jobZero q => zeroAck q a s
  | .record ring js => if a = .ok then retireAll ring js s else let e := accessEvent a ring r.addr; holdRecords ring js e.1 e.2 s
  | .irq _ | .fltIrq => s
  | .admin gen => adminArrive gen r.addr a b s
  | .reply => replyAck r.addr a s
  | .cmdRead cid off => cmdArrive cid off a b s
  | .cmdWrite cid => cmdAck cid a s
  | .sessRead ix => sessArrive ix a b s
  | .sessWrite ix => createAck ix a s
  | .sessStore ix => storeAck ix a s
  | .treeInit => treeAck a s
  | .spill n => startDue (spillArrive n a b s)
  | .ext n q => startDue (extArrive n q a b s)
  | .ceiling ix c => ceilingAck ix c a s
  | .carve => if a = .ok then s else carveEvent a s
  | .ledger _ => ledgerAck s

end Sys2Proof.Machine
end

