-- ==== Sys2Proof/Machine/Fabric.lean ====
section
/-! DEFINITION. The fabric ports: responses, timeouts, credits, protocol errors and port reset (02 R31 to R39, R53, Table 2-4;
05 R129). -/
namespace Sys2Proof.Machine

/-- The source of a fabric port (12 Table 12-3). -/
def fabSrc (n : Nat) : Nat := 0x060 + n

def modFab (n : Nat) (f : FabPort → FabPort) (s : State) : State := { s with fab := { s.fab with ports := tmod s.fab.ports n f } }

/-- Owners whose outstanding access is issued again on another port after an isolation (02 Table 2-4; log 20). -/
def reissued (o : Owner) : Bool :=
  match o with
  | .jobIn _ _ _ | .jobOut _ | .jobZero _ | .cmdRead _ _ | .cmdWrite _ => false
  | _ => true

/-- A port isolated: what was outstanding on it is issued again or fails, and the event is raised (02 Table 2-4). -/
def isolatePort (n tag : Nat) (s : State) : State :=
  let p := portN s n
  if p.isolated then s
  else
    let again := (p.txns.filter (fun t => reissued t.req.owner)).map (·.req)
    let lost := p.txns.filter (fun t => !reissued t.req.owner)
    let s1 := modFab n (fun q => { q with isolated := true, txns := [], quarantine := [] }) s
    let s2 := { s1 with fab := { s1.fab with waiting := again ++ s1.fab.waiting } }
    let s3 := lost.foldl (fun a t => deliver t.req .isolated [] a) s2
    pumpState (raiseEvent (fabSrc n) kFabricProtocol tag s3)

/-- A response arrives at a port that is reset, not enabled or isolated: it is discarded. -/
def portDeaf (s : State) (n : Nat) : Bool :=
  let p := portN s n
  !s.pins.powered || s.pins.coreInReset || !s.pins.cfgFabEn.getLsbD n || p.isolated || p.rstLow

def rspAccess (x : RspStatus) : Access :=
  match x with
  | .ok => .ok
  | .accessDenied => .denied
  | .decodeErr => .decode
  | .poison => .poison

/-- A latency above LAT_NS is a stall (01 R25, 05 R128). -/
def countStall (now lat : Nat) (t : Txn) (p : FabPort) : FabPort :=
  if t.issuedAt + lat < now then { p with stall := satAdd 16 p.stall 1 } else p

def latCycles (s : State) : Nat := cyNs (if 100 ≤ s.regs.latNs ∧ s.regs.latNs ≤ 4000 then s.regs.latNs else 4000)

def dropTxn (tag : Nat) (p : FabPort) : FabPort := { p with txns := p.txns.filter (fun t => t.tag != tag) }

/-- A transaction that has its whole response: the tag is free and the owner is told. -/
def complete (n : Nat) (t : Txn) (a : Access) (b : Bytes) (s : State) : State :=
  pumpState (deliver t.req a b (modFab n (fun p => countStall s.clk.now (latCycles s) t (dropTxn t.tag p)) s))

/-- A read data beat arrives on a port. -/
def readBeat (n k : Nat) (status : RspStatus) (parityOk last : Bool) (data : Bytes) (s : State) : State :=
  let p := portN s n
  if portDeaf s n then s
  else if p.quarantine.contains k then
    (if last then pumpState (modFab n (fun q => { q with quarantine := q.quarantine.filter (· != k) }) s) else s)
  else match p.txns.find? (fun t => t.tag == k) with
    | none => isolatePort n k s
    | some t =>
      let beats := t.beats + 1
      let want := beatsOf t.req.addr t.req.len
      if t.req.kind ≠ .rd ∨ want < beats ∨ (last ∧ beats ≠ want) ∨ (!last ∧ beats = want) then isolatePort n k s
      else
        let hit := (injectedAt s.flt (fabSrc n) 1).isSome
        let s0 := if hit then takeInject (fabSrc n) 1 s else s
        let good := parityOk && !hit
        let mine : Access := if status ≠ .ok then rspAccess status else if good then .ok else .parity
        let worst := if t.worst = .ok then mine else t.worst
        let s1 := if good then s0 else raiseEvent (fabSrc n) kParity (t.req.addr / 4096) s0
        let t1 := { t with beats := beats, got := t.got ++ data, worst := worst }
        if last then complete n t1 worst (slice t1.got (t.req.addr % 128) t.req.len) s1
        else modFab n (fun q => { q with txns := q.txns.map (fun x => if x.tag = k then t1 else x) }) s1

/-- Whether the FAB_n pins of a port are in use: not where CFG_FAB_ROUTE carries it over the lanes (02 R58); FAB_n_RST_N still acts,
since a port returns to service by it alone (DEDUCED, log 116). -/
def fabPins (s : State) (n : Nat) : Bool := !(s.pins.formL && s.pins.cfgFabRoute.getLsbD n)

/-- FAB_READ_DATA. -/
def execFabReadData (port : Fin 4) (tag : BitVec 11) (status : RspStatus) (parityOk last : Bool) (data : Bytes) (s : State) :
    Host.Outcome State Fault Refusal :=
  if data.length ≠ 128 then .fault .malformed
  else .next (if fabPins s port.val then readBeat port.val tag.toNat status parityOk last data s else s)

/-- A write acknowledgement arrives on a port. -/
def writeAck (n k : Nat) (status : RspStatus) (s : State) : State :=
  let p := portN s n
  if portDeaf s n then s
  else if p.quarantine.contains k then pumpState (modFab n (fun q => { q with quarantine := q.quarantine.filter (· != k) }) s)
  else match p.txns.find? (fun t => t.tag == k) with
    | none => isolatePort n k s
    | some t =>
      if t.req.kind = .rd ∨ status = .poison ∨ 0 < t.beats then isolatePort n k s
      else complete n t (rspAccess status) [] s

/-- FAB_WRITE_ACK. -/
def execFabWriteAck (port : Fin 4) (tag : BitVec 11) (status : RspStatus) (s : State) : Host.Outcome State Fault Refusal :=
  .next (if fabPins s port.val then writeAck port.val tag.toNat status s else s)

/-- FABRIC_TIMEOUT: the tag is quarantined and the owner's access has failed (02 R38). -/
def execFabricTimeout (port : Fin 4) (tag : BitVec 11) (s : State) : Host.Outcome State Fault Refusal :=
  let n := port.val
  let k := tag.toNat
  .next (if portDeaf s n then s
    else match (portN s n).txns.find? (fun t => t.tag == k) with
      | none => s
      | some t =>
        if s.clk.now < t.dueAt then s
        else
          let s1 := modFab n (fun p => { dropTxn k p with quarantine := p.quarantine ++ [k] }) s
          let s2 := if portTimeout t.req.owner then raiseEvent (fabSrc n) kFabricTimeout (t.req.addr / 4096) s1 else s1
          pumpState (deliver t.req .timeout [] s2))

/-- Credits taken into the counters, with the time each took to return (02 R36, 05 R129). -/
def takeCredits (now req wdat : Nat) (p : FabPort) : FabPort :=
  let back := p.useTimes.take req ++ p.wUses.take wdat
  let rq := p.reqCred + req
  let wd := p.wdatCred + wdat
  { p with reqCred := rq, wdatCred := wd, maxReq := max p.maxReq rq, maxWdat := max p.maxWdat wd
           useTimes := p.useTimes.drop req, wUses := p.wUses.drop wdat
           retSum := back.foldl (fun a t => a + (now - t)) p.retSum, retCount := p.retCount + back.length }

/-- Credits returned on a port: more than 1,023 of a kind is a protocol error. -/
def creditReturn (n req wdat : Nat) (s : State) : State :=
  let p := portN s n
  if portDeaf s n then s
  else if 1023 < p.reqCred + req ∨ 1023 < p.wdatCred + wdat then isolatePort n 0 s
  else pumpState (modFab n (takeCredits s.clk.now req wdat) s)

/-- FAB_CREDIT_RETURN. -/
def execFabCreditReturn (port : Fin 4) (req : Bool) (wdat : BitVec 2) (s : State) : Host.Outcome State Fault Refusal :=
  .next (if fabPins s port.val then creditReturn port.val (b2n req) wdat.toNat s else s)

/-- FAB_PORT_RESET_ASSERT: a port not isolated is isolated; the credit counters are 0 while the reset is low (02 R36). -/
def execFabPortResetAssert (port : Fin 4) (s : State) : Host.Outcome State Fault Refusal :=
  let n := port.val
  let s1 := if portDeaf s n then s else isolatePort n 0 s
  .next (modFab n (fun p => { p with rstLow := true, reqCred := 0, wdatCred := 0, maxReq := 0, maxWdat := 0, useTimes := [], wUses := [] }) s1)

/-- FAB_PORT_RESET_RELEASE: the port is in service again, with no credits yet; a start that waits for a port ends (02 R39). -/
def execFabPortResetRelease (port : Fin 4) (s : State) : Host.Outcome State Fault Refusal :=
  .next (startComplete (pumpState (modFab port.val (fun p => { p with rstLow := false, isolated := false, clkLost := false, quarantine := [] }) s)))

/-- FAB_CLOCK_LOST (02 R53): a protocol error. -/
def execFabClockLost (port : Fin 4) (s : State) : Host.Outcome State Fault Refusal :=
  let n := port.val
  .next (if portDeaf s n || !fabPins s n then s else modFab n (fun p => { p with clkLost := true }) (isolatePort n 0 s))

/-- The rate that a number of credits permits, in GB/s as a fraction, for a mean return time of `sum` / `count` cycles; a cycle is 2/3 ns (05
R129). -/
def creditRate (cReq cWdat sum count : Nat) : Nat × Nat :=
  if sum = 0 ∧ cReq ≠ 0 ∧ cWdat ≠ 0 then fullRate else (min (cReq * 4096) (cWdat * 128) * 3 * count, 2 * max 1 sum)

/-- One port measured: with credits in use and none returned, the rate is 0. -/
def measurePort (p : FabPort) : FabPort :=
  let stuck := p.retCount == 0 && !(p.useTimes.isEmpty && p.wUses.isEmpty)
  let ret := if p.retCount = 0 then p.tRet else (p.retSum, p.retCount)
  { p with rate := some (if stuck then (0, 1) else creditRate p.maxReq p.maxWdat ret.1 ret.2), tRet := ret
           maxReq := p.reqCred, maxWdat := p.wdatCred, retSum := 0, retCount := 0 }

/-- CREDIT_RATE_MEASURE: every 10 µs. -/
def execCreditRateMeasure (s : State) : Host.Outcome State Fault Refusal :=
  .next (if running s && decide (s.fab.measureAt ≤ s.clk.now) then
      { s with fab := { s.fab with ports := tmap s.fab.ports (fun _ p => measurePort p), measureAt := s.clk.now + 15000 } }
    else s)

end Sys2Proof.Machine
end

