-- ==== Sys2Proof/Machine/Carve.lean ====
section
/-! DEFINITION. Records fetched from the carve-out at their first use, and the fences' after-effects (06 R165, R169, R179, R182;
03 R88). -/
namespace Sys2Proof.Machine

/-- A spilled slot's record is read, unless it is being read (06 R169). -/
def fetchSpill (n : Nat) (s : State) : State :=
  let sl := slotOf s n
  if sl.spilled && !sl.reading then carveRead (.spill n) (spillOff n) (writeSlot n { sl with reading := true } s) else s

def sessionsCached (s : State) : Nat := tcount s.keys.sessions (fun _ r => r.cached || r.reading)

/-- The session cache holds 8,192 records: the least recently fetched one is written back when another is needed
(06 R179, R182; log 21). -/
def evictSession (s : State) : State :=
  if sessionsCached s < 8192 then s
  else match leastBy (fun e => e.2.lastUse) (s.keys.sessions.filter (fun e => e.2.cached && !e.2.raising)) with
    | none => s
    | some (ix, r) => writeSession (.sessStore ix) ix r.ceiling (modSession ix (fun x => { x with cached := false }) s)

/-- A session record that is not cached is read, after a write-back of it that is on its way. -/
def fetchSession (ix : Nat) (s : State) : State :=
  match tget s.keys.sessions ix with
  | none => s
  | some r =>
    if r.cached || r.reading || ownerOpen s.fab (.sessStore ix) then s
    else carveRead (.sessRead ix) (sessOff ix) (modSession ix (fun x => { x with reading := true }) (evictSession s))

/-- A command that needs the slot `n`: it waits for the slot's record while the slot is spilled. -/
def withSlot (e : CmdEntry) (n : Nat) (f : State → State) (s : State) : State :=
  if (slotOf s n).spilled then
    fetchSpill n (setEntry e.cid (fun x => { x with phase := 1, work := [spillOff n] }) s)
  else f s

/-- A command that needs the key in slot `n` itself: for an RSA key it reads the extended record first. -/
def withKey (e : CmdEntry) (n : Nat) (f : State → State) (s : State) : State :=
  withSlot e n (fun s1 =>
    match (slotOf s1 n).ext with
    | none => f s1
    | some x =>
      if e.phase = 2 then f s1
      else if e.phase = 1 ∧ e.work.head? = some (extOff x) then s1
      else carveRead (.ext n none) (extOff x) (setEntry e.cid (fun y => { y with phase := 1, work := [extOff x] }) s1)) s

/-! ### What follows a fence (03 R88, R90) -/

/-- Every key of a port destroyed (06 R172). -/
def destroyPortKeys (p : Nat) (s : State) : State :=
  s.keys.slots.foldl (fun a e =>
    if e.2.owner = p ∧ (e.2.state = .valid ∨ e.2.state = .stale) then
      freeSlotNow e.1 (retireHandle e.1 (zeroKeyContexts (handleOf e.1 e.2) a))
    else a) s

/-- Every session of a port closed. -/
def destroyPortSessions (p : Nat) (s : State) : State :=
  s.keys.sessions.foldl (fun a e =>
    if e.2.owner = p then destroySession (sessHandle e.1 e.2.gen) (if e.2.gen ≤ 1023 then retireSession e.1 a else a) else a) s

def destroyPortRings (p : Nat) (s : State) : State := s.rings.foldl (fun a e => if e.2.port = p then destroyRing e.1 a else a) s

def closePortChans (p : Nat) (s : State) : State :=
  s.chans.foldl (fun a e => if e.2.isOpen ∧ e.2.owner = p then closeChan e.1 a else a) s

/-- CP_CLOSE after its fence: keys, sessions, rings, channels and leases, in that order (06 R172). -/
def closePort (p : Nat) (s : State) : State :=
  releaseLeases (fun l => l.port == p) (closePortChans p (destroyPortRings p (destroyPortSessions p (destroyPortKeys p s))))

/-- The reply of a command that ends with its fence, or with the last zeroing of the leases that it releases (09 R246); a closed port has no
stream ID and no window (06 R172). -/
def endFenced (e : CmdEntry) (s : State) : State :=
  finish e (e.reply.getD (replyTo s e .ok 0 [] true))
    (if e.opcode = 0x0101 then modPort e.port (fun q => { q with sid := 0, winBase := 0, winLen := 0 }) s else s)

/-- A command whose leases are being zeroed waits for them; with none, it ends. -/
def awaitLeases (e : CmdEntry) (p : Lease → Bool) (s : State) : State :=
  let ls := leasesWith p s
  if ls.isEmpty then endFenced e s
  else setEntry e.cid (fun x => { x with fence := none, committed := true, phase := 9, work := ls }) s

/-- A lease has ended: the commands that waited for it and for no other end. -/
def leaseEnded (ix : Nat) (s : State) : State :=
  let waits := s.cmd.exec.filter (fun e => e.phase == 9 && e.work.contains ix)
  waits.foldl (fun a e =>
    let w := e.work.filter (· != ix)
    if w.isEmpty then endFenced e a else setEntry e.cid (fun x => { x with work := w }) a) s

/-- What a fencing command does once its jobs are out of the job table, up to its reply. -/
def afterFence (e : CmdEntry) (f : Fence) (s : State) : State :=
  match f.obj with
  | .port p => if e.opcode = 0x0101 then awaitLeases e (fun l => l.port == p) (closePort p s) else endFenced e s
  | .key h => endFenced e (destroyKey h s)
  | .session h => awaitLeases e (fun l => l.session == h) (destroySession h s)
  | .binding _ _ => endFenced e s
  | .ring id => endFenced e (destroyRing id s)
  | .channel n => endFenced e (closeChan n s)
  | .lease w =>
    let mine := fun (l : Lease) => l.windows.head? == some (w % 512)
    awaitLeases e mine (releaseLeases mine s)

/-- A fence set; one that waits for no job, with no earlier fence of its key waiting, is complete at once. -/
def fence (e : CmdEntry) (obj : FenceObj) (payload : Bytes) (s : State) : State :=
  let s1 := setFence e obj payload s
  match drained s1 with
  | some (x, f) => if x.cid = e.cid then afterFence x f s1 else s1
  | none => s1

/-- FENCE_DRAIN_COMPLETE: the oldest fence whose last record is acknowledged. -/
def execFenceDrainComplete (s : State) : Host.Outcome State Fault Refusal :=
  .next (if running s then
      (match drained s with
       | some (e, f) => afterFence e f s
       | none => s)
    else s)

end Sys2Proof.Machine
end

