-- ==== Sys2Proof/Machine/Block.lean ====
section
/-! DEFINITION. The block group of commands: NOP, GET_INFO, STATUS_SNAPSHOT, SET_POWER_POLICY, SCRIBE_HANDOVER (03 Table 3-5, R87;
14 R354, R367). -/
namespace Sys2Proof.Machine

/-- The contents of a register as a u64. -/
def reg8 (s : State) (off : Nat) : Bytes := leBytes 8 ((regWord s off).getD 0)

/-- NOP. -/
def execNop (s : State) : Host.Outcome State Fault Refusal :=
  .next (onCommand 0x0000 (fun e s => answer e .ok [] s) s)

/-- The payload of GET_INFO (03 Table 3-5, 14 R370). -/
def infoPayload (s : State) : Bytes :=
  leBytes 4 0x0100 ++ leBytes 4 s.fw.runVersion ++ leBytes 4 (counterOf s.nvm cntRollback) ++ leBytes 1 s.fuse.lifecycle
  ++ leBytes 1 s.pwr.state.code ++ leBytes 1 (if batonOwner s = 3 then 0xFF else batonOwner s) ++ [0]
  ++ leBytes 8 (batonEpoch s % 2 ^ 48) ++ reg8 s 0x0008

/-- GET_INFO. -/
def execGetInfo (s : State) : Host.Outcome State Fault Refusal :=
  .next (onCommand 0x0001 (fun e s => answer e .ok (infoPayload s) s) s)

/-! ### STATUS_SNAPSHOT (03 R87) -/

/-- The registers of section [0] that the chapters name, in offset order (log 22). -/
def blockRegs : List Nat :=
  [0x0100, 0x0108, 0x0110, 0x0118, 0x0120, 0x0128, 0x0130, 0x0310, 0x0400, 0x0408, 0x0410, 0x0418, 0x0420, 0x0428, 0x0430, 0x0438
  , 0x0500, 0x0560, 0x7008, 0x7010, 0x7018, 0x7030, 0x8000, 0x8030, 0x8038, 0x9000, 0x9010, 0x9018, 0x9020]

/-- The 80 bytes of a port in section [1] (05 R154). -/
def gaugeEntry (s : State) (p : Nat) : Bytes :=
  let c := tgetD s.ports p {}
  let b : Bank := { s.ep.cur with last := s.ep.acct.number, endNs := eNs s }
  ledgerRecord b p (tgetD s.ep.cur.ports p {}) false false false
  ++ leBytes 8 (signed 64 (lvlBytesNow s c)) ++ leBytes 4 (signed 32 (lvlHookNow s c)) ++ leBytes 4 (portHeld s p)

/-- One engine in section [2]: STAT, JOBS, BUSY and ARRAY (07, 08, 09). -/
def engineEntry (s : State) (c stat array : Nat) : Bytes :=
  leBytes 8 stat ++ leBytes 8 (unitOf s c).jobs ++ leBytes 8 (unitOf s c).busy ++ leBytes 8 array

def engineSection (s : State) : Bytes :=
  ((List.range 20).map (fun i => engineEntry s i (nibStat s i) (nibArray s))).flatten
  ++ ((List.range 14).map (fun i => engineEntry s (0x100 + i) (quillStat s (0x100 + i)) (quillArray s))).flatten
  ++ ((List.range 9).map (fun i => engineEntry s (0x200 + i) (hookStat s (0x200 + i)) (hookArray s))).flatten
  ++ reg8 s 0xB008 ++ reg8 s 0xB010 ++ reg8 s 0xB020

/-- One source in section [3] (12 R331). -/
def sourceEntry (s : State) (n : Nat) : Bytes :=
  let r := srcOf s.flt n
  leBytes 8 (pack [(r.count, 0), (b2n r.sticky, 16), (b2n r.severe, 17), (b2n r.acked, 18), (b2n (causePresent s n), 19)
                   , (b2n (!r.inject.isEmpty), 20), (r.latestMs % 2 ^ 32, 32)])

def faultSection (s : State) : Bytes :=
  reg8 s 0x5008 ++ reg8 s 0x5010 ++ reg8 s 0x5018 ++ reg8 s 0x5028 ++ zeros 32
  ++ ((List.range 4096).map (sourceEntry s)).flatten

/-- One channel in section [4] (11). -/
def channelEntry (s : State) (n : Nat) : Bytes :=
  let c := tgetD s.chans n {}
  leBytes 8 (strStatAt s n) ++ leBytes 8 (c.hwm + 2 ^ 32 * c.lwm) ++ leBytes 8 c.count ++ leBytes 8 (c.disabled + 2 ^ 32 * c.dropped)

/-- One cached ring in section [5], 32 bytes (log 22). -/
def ringEntry (s : State) (id : Nat) (r : Ring) : Bytes :=
  leBytes 8 id ++ leBytes 4 r.head ++ leBytes 4 r.tail ++ leBytes 8 (ringStat s r.port id) ++ leBytes 8 r.base

/-- A section for a scope: a port, or the block at 0xFFFF. Section [1] has the 80 bytes of each port (05 R154), then CPW_KEYS of each (06
R188; their places are a DESIGN CHOICE, log 22). -/
def section_ (s : State) (port k : Nat) : Bytes :=
  let block := port = 0xFFFF
  match k with
  | 0 => if block then (blockRegs.map (reg8 s)).flatten else []
  | 1 =>
    let ps := if block then List.range 1024 else [port]
    ps.flatMap (gaugeEntry s) ++ ps.flatMap (fun p => leBytes 8 (cpwKeys s p))
  | 2 => engineSection s
  | 3 => faultSection s
  | 4 => ((List.range 64).filter (fun n => block || ((tgetD s.chans n {}).isOpen && (tgetD s.chans n {}).owner == port))).flatMap
      (channelEntry s)
  | _ => (s.rings.filter (fun e => e.2.cached && (block || e.2.port == port))).flatMap (fun e => ringEntry s e.1 e.2)

/-- The 64-byte header and the selected sections in bit order. -/
def snapshot (s : State) (port sections : Nat) : Bytes :=
  padTo 64 (leBytes 8 s.clk.now ++ leBytes 8 (eNs s) ++ leBytes 4 sections ++ zeros 4 ++ leBytes 8 (batonEpoch s))
  ++ ((List.range 6).filter (fun k => sections.testBit k)).flatMap (section_ s port)

/-- STATUS_SNAPSHOT. -/
def execStatusSnapshot (s : State) : Host.Outcome State Fault Refusal :=
  .next (onCommand 0x0002 (fun e s =>
    let b := snapshot s e.port (par e 12 4)
    if par e 8 4 < b.length then refuseAt e .invalidField 24 s
    else if !cmdSpanOk s e (par e 0 8) (par e 8 4) then refuseAt e .notPermitted 0 s
    else cmdWrite e (par e 0 8) b (replyTo s e .ok 0 (leBytes 8 s.clk.now ++ leBytes 8 (eNs s) ++ leBytes 4 b.length ++ zeros 4) false)
      s) s)

/-- SET_POWER_POLICY (14 R354). -/
def execSetPowerPolicy (s : State) : Host.Outcome State Fault Refusal :=
  .next (onCommand 0x0003 (fun e s =>
    if 3 ≤ par e 0 1 ∧ s.pins.formL ∧ s.pins.cfgFabRoute ≠ 0 then refuseAt e .notPermitted 0 s
    else answer e .ok [] (logCommit e { s with pwr := { s.pwr with deepest := par e 0 1, idleUs := par e 4 4 } })) s)

/-- SCRIBE_HANDOVER needs a READY standby (14 R367). -/
def handoverFault (s : State) : Option (Status × Nat) :=
  if 2 ≤ batonOwner s ∨ scribeState s.baton (1 - batonOwner s) ≠ .ready then some (.notPermitted, 0) else none

/-- SCRIBE_HANDOVER (14 R367): the award once the other commands in execution are done; the reply carries the new epoch. -/
def execScribeHandover (s : State) : Host.Outcome State Fault Refusal :=
  .next (onCommand 0x0004 (fun e s =>
    let old := batonOwner s
    let k := 1 - old
    match handoverFault s with
    | some f => refuseAt e f.1 f.2 s
    | none =>
    if s.cmd.exec.any (fun x => x.started && x.cid != e.cid) then s
    else answer e .ok [] (logCommit e { s with baton := setScribe old .ready (award s.clk.now k s.baton) })) s)

end Sys2Proof.Machine
end

