-- ==== Sys2Proof/Machine/Faults.lean ====
section
/-! DEFINITION. The fault commands and ERR_N (12 R312, R318 to R320, R325 to R328; 02 R52). -/
namespace Sys2Proof.Machine

def modSrc (n : Nat) (f : Src → Src) (s : State) : State := { s with flt := { s.flt with sources := tmod s.flt.sources n f } }

/-- FLT_SET_CLASS (12 R312). -/
def execFltSetClass (s : State) : Host.Outcome State Fault Refusal :=
  .next (onCommand 0x0500 (fun e s =>
    answer e .ok [] (logCommit e { s with flt := { s.flt with classes := tput s.flt.classes (par e 0 2) (par e 2 2, par e 4 4) } })) s)

/-- FLT_SET_TIMERS (12 R318, R321). -/
def execFltSetTimers (s : State) : Host.Outcome State Fault Refusal :=
  .next (onCommand 0x0501 (fun e s =>
    answer e .ok [] (logCommit e { s with flt := { s.flt with errpwUs := par e 0 4, reactMs := par e 4 4 } })) s)

/-- FLT_ACK (12 R320). -/
def execFltAck (s : State) : Host.Outcome State Fault Refusal :=
  .next (onCommand 0x0502 (fun e s =>
    let r := srcOf s.flt (par e 0 2)
    answer e .ok [] (logCommit e (if r.severe && !r.acked then modSrc (par e 0 2) (fun r => { r with acked := true, timer := none }) s else s))) s)

/-- A source cleared (12 R325): what is recorded of it goes, an armed injection stays. -/
def clearSrc (r : Src) : Src := { r with sticky := false, count := 0, winStart := 0, severe := false, acked := false, timer := none, escalated := false }

/-- An OFFLINE Scribe restarts as SYNCING once its source is cleared (14 R368). -/
def restartScribe (n : Nat) (b : Baton) : Baton :=
  if (n = 0x0A0 ∨ n = 0x0A1) ∧ scribeState b (n - 0x0A0) = .offline then setScribe (n - 0x0A0) .syncing b else b

/-- FLT_CLEAR (12 R325). -/
def execFltClear (s : State) : Host.Outcome State Fault Refusal :=
  .next (onCommand 0x0503 (fun e s =>
    let n := par e 0 2
    if causePresent s n then
      refuseAt e .causePresent n { s with flt := { s.flt with clearRefused := satAdd 16 s.flt.clearRefused 1 } }
    else answer e .ok [] (logCommit e (modSrc n clearSrc { s with baton := restartScribe n s.baton }))) s)

/-- FLT_RELEASE_ERR (12 R318, R319). -/
def execFltReleaseErr (s : State) : Host.Outcome State Fault Refusal :=
  .next (onCommand 0x0504 (fun e s =>
    if unacked s.flt ≠ 0 then refuseAt e .notPermitted 0 s
    else answer e .ok [] (logCommit e { s with flt :=
      if s.flt.widthRunning then { s.flt with relWait := s.flt.err } else { s.flt with err := false } })) s)

/-- The checkers of a source (12 Table 12-6). -/
def checkerListed (src checker : Nat) : Bool :=
  match checker with
  | 0 => srcClass src == some 0 || srcClass src == some 1 || srcClass src == some 2 || srcClass src == some 9 || srcClass src == some 13
  | 1 => (decide (0x060 ≤ src) && decide (src ≤ 0x063)) || srcClass src == some 11
  | 2 => srcClass src == some 0 || srcClass src == some 1 || srcClass src == some 4
  | 3 => srcClass src == some 2
  | _ => srcClass src == some 3

/-- An injection armed, or with COUNT 0 disarmed (12 R326). -/
def armInject (src checker count : Nat) (double : Bool) (f : Flt) : Flt :=
  { f with sources := tmodD f.sources src {} (fun r =>
      let rest := r.inject.filter (fun i => i.checker != checker)
      { r with inject := if count = 0 then rest else rest ++ [{ checker := checker, left := count, double := double }] }) }

/-- The checks of FLT_INJECT (12 R326). -/
def injectFault (e : CmdEntry) (_ : State) : Option (Status × Nat) :=
  let src := par e 0 2
  if !checkerListed src (par e 2 1) then some (.invalidField, 18)
  else if 2 ^ 31 ≤ par e 4 4 ∧ (par e 2 1 ≠ 0 ∨ src = 0x0B0) then some (.invalidField, 20)
  else none

/-- FLT_INJECT (12 R326 to R328; 10 R270: ignored on a FAILED cell). -/
def execFltInject (s : State) : Host.Outcome State Fault Refusal :=
  .next (onCommand 0x0505 (fun e s =>
    let src := par e 0 2
    let ck := par e 2 1
    let n := par e 4 4
    let failedCell : Bool := ck == 4 && (tgetD s.rng.cells (src - 0x040) {}).state == .failed
    match injectFault e s with
    | some f => refuseAt e f.1 f.2 s
    | none => answer e .ok [] (logCommit e (if failedCell then s
      else { s with flt := armInject src ck (n % 2 ^ 31) (decide (2 ^ 31 ≤ n)) s.flt }))) s)

/-- ERRPW_EXPIRY (12 R318). -/
def execErrpwExpiry (s : State) : Host.Outcome State Fault Refusal :=
  .next (if aonOn s && s.flt.widthRunning && decide (s.flt.errSince + cyUs s.flt.errpwUs ≤ s.clk.now) then
      { s with flt := { s.flt with widthRunning := false, err := s.flt.err && !(s.flt.relWait && !s.pwr.failSilent), relWait := false } }
    else s)

/-- ERR_N_READBACK_MISMATCH: one event per episode (02 R52); `level` is the pad's, which disagrees when it is high under an
assertion or low without one. -/
def execErrNReadbackMismatch (level : Bool) (s : State) : Host.Outcome State Fault Refusal :=
  .next (if aonOn s && !s.pins.rbMismatch && level == s.flt.err then
      raiseEvent 0x0D4 kReadback (b2n s.flt.err) { s with pins := { s.pins with rbMismatch := true, errRb := level } }
    else s)

/-- ERR_N_READBACK_AGREE: the episode ends (02 R52). -/
def execErrNReadbackAgree (s : State) : Host.Outcome State Fault Refusal :=
  .next (if aonOn s && s.pins.rbMismatch then
      { s with pins := { s.pins with rbMismatch := false, errRb := !s.flt.err } }
    else s)

end Sys2Proof.Machine
end

