-- ==== Sys2Proof/Machine/Ports.lean ====
section
/-! DEFINITION. Client ports and keys: CP_OPEN to CP_QUERY, KEY_IMPORT to KEY_LOAD_NVM (03 Tables 3-6, 3-7, R465, R466; 05 R143,
R145; 06 R157 to R173, R186, R187). -/
namespace Sys2Proof.Machine

/-! ### Client ports -/

/-- The refusals of 06 R170 with the offending offset. -/
def openFault (s : State) (port sid base len : Nat) : Option Nat :=
  if sid = s.keys.selfSid.toNat ∨ s.ports.any (fun q => q.1 != port && q.2.isOpen && q.2.sid.toNat == sid) then some 16
  else if base % 4096 ≠ 0 then some 24
  else if len % 4096 ≠ 0 ∨ len = 0 ∨ 2 ^ 56 < base + len then some 32
  else none

/-- A port opened (06 R170; 03 R466; 05 R143): quotas stay as they were, buckets start full (log 23). -/
def openPort (now sid flags base len : Nat) (p : CPort) : CPort :=
  { p with
    isOpen := true, gen := p.gen + 1, sid := BitVec.ofNat 16 sid, winBase := base, winLen := len
    algMask := algMaskDefined, pflags := BitVec.ofNat 32 flags
    lvlBytes := ((depthBytes p * bucketUnit : Nat) : Int), lvlHook := ((depthHook p * bucketUnit : Nat) : Int), lvlAt := now
    irqBase := 0, irqEn := false }

/-- CP_OPEN. -/
def execCpOpen (s : State) : Host.Outcome State Fault Refusal :=
  .next (onCommand 0x0100 (fun e s =>
    let p := tgetD s.ports e.port {}
    match openFault s e.port (par e 0 2) (par e 8 8) (par e 16 8) with
    | some d => refuseAt e .invalidField d s
    | none =>
      if p.isOpen || !s.keys.carveEn || !s.keys.carveReady then refuseAt e .notPermitted 0 s
      else
        let q := openPort s.clk.now (par e 0 2) (par e 4 4) (par e 8 8) (par e 16 8) p
        answer e .ok (leBytes 4 q.gen) (logCommit e (ledger e.port id { s with ports := tput s.ports e.port q }))) s)

/-- CP_CLOSE: the port's policy generation moves and nothing more is admitted; the rest follows the fence (06 R172). -/
def execCpClose (s : State) : Host.Outcome State Fault Refusal :=
  .next (onCommand 0x0101 (fun e s =>
    fence e (.port e.port) [] (modPort e.port (fun p => { p with isOpen := false, gen := p.gen + 1 }) s)) s)

/-- CP_SET_POLICY (03 R465, R466, R88). -/
def execCpSetPolicy (s : State) : Host.Outcome State Fault Refusal :=
  .next (onCommand 0x0102 (fun e s =>
    let s1 := modPort e.port (fun p => { p with algMask := BitVec.ofNat 64 (par e 0 8), pflags := BitVec.ofNat 32 (par e 8 4), gen := p.gen + 1 }) s
    fence e (.port e.port) (leBytes 4 (tgetD s1.ports e.port {}).gen) s1) s)

/-- A bucket after CP_SET_QUOTA (05 R143, R145). -/
def newLevel (old rate depth : Nat) (lvl : Int) : Int :=
  let full : Int := ((depth * bucketUnit : Nat) : Int)
  if old ≠ 0 then min lvl full else if rate ≠ 0 then full else lvl

def setQuota (now : Nat) (e : CmdEntry) (p : CPort) : CPort :=
  let b := bucketsAt now p
  let q : CPort := { b with jobsMax := par e 0 4, sessMax := par e 4 4, bytesPerS := par e 8 8, burstKib := par e 16 4
                            hookPerS := par e 20 4, ringsMax := par e 24 4, winMax := par e 28 4 }
  { q with lvlBytes := newLevel p.bytesPerS q.bytesPerS (depthBytes q) b.lvlBytes
           lvlHook := newLevel p.hookPerS q.hookPerS (depthHook q) b.lvlHook }

/-- CP_SET_QUOTA: no fence; held jobs keep their t_tok. -/
def execCpSetQuota (s : State) : Host.Outcome State Fault Refusal :=
  .next (onCommand 0x0103 (fun e s => answer e .ok [] (logCommit e (modPort e.port (setQuota s.clk.now e) s))) s)

/-- CP_QUERY. -/
def execCpQuery (s : State) : Host.Outcome State Fault Refusal :=
  .next (onCommand 0x0104 (fun e s =>
    let p := tgetD s.ports e.port {}
    answer e .ok (leBytes 4 p.gen ++ leBytes 4 (p.admitted - p.completed) ++ leBytes 4 (portSessions s e.port)
      ++ leBytes 4 (portRings s e.port) ++ leBytes 4 (portWindows s e.port)) s) s)

/-! ### Key blobs (06 R158 to R160) -/

/-- BLOB_LEN of a key of `m` bytes. -/
def blobLen (m : Nat) : Nat := 16 + 8 * cdiv (16 + m) 8 + 8

/-- The header of a blob (06 Table 6-2). -/
def blobHead (keyType usage owner matLen validUntil : Nat) : Bytes :=
  leBytes 4 0x4B424C31 ++ [1] ++ leBytes 1 keyType ++ leBytes 2 usage ++ leBytes 2 owner ++ leBytes 2 matLen ++ leBytes 4 validUntil

/-- A blob under K_CPW of its owner. -/
def blobOf (keyType usage owner validUntil : Nat) (material : Bytes) : Bytes :=
  let h := blobHead keyType usage owner material.length validUntil
  h ++ padTo (8 * cdiv (16 + material.length) 8 + 8) (Config.kwpWrap (kCpw owner) (h ++ material))

/-- The encodings of a blob's header that are reserved (06 R159, R186, R200). -/
def blobFieldsOk (b : Bytes) : Bool :=
  let t := fld b 5 1
  let u := fld b 6 2
  fld b 0 4 == 0x4B424C31 && fld b 4 1 == 1 && keyTypeKnown t && decide (u < 512)
    && !(isRsa t && u.testBit 7) && !(u.testBit 8 && !(decide (1 ≤ t) && decide (t ≤ 3)))

/-- The key material of a blob that passes the checks of 06 R159. -/
def openBlob (port : Nat) (b : Bytes) : Option Bytes :=
  match Config.kwpUnwrap (kCpw port) (b.drop 16) with
  | none => none
  | some x =>
    if x.take 16 ≠ b.take 16 ∨ fld b 8 2 ≠ port ∨ !matLenOk (fld b 5 1) (fld b 10 2) ∨ x.length ≠ 16 + fld b 10 2 then none
    else some (x.drop 16)

/-- The key epoch has closed that a validity names (06 R159, R166). -/
def validityOver (s : State) (v : Nat) : Bool := v != 0 && s.ep.key.running && decide (v < s.ep.key.number)

/-- A key put into a free slot, an RSA key into a free extended record too: the state and the handle; none where a slot or a
record is missing (06 R167). -/
def installKey (port keyType usage validUntil : Nat) (material : Bytes) (s : State) : Option (State × Nat) :=
  match slotFor s port with
  | none => none
  | some n =>
    if isRsa keyType then
      match extFor s with
      | none => none
      | some x =>
        let sl := fillSlot s n keyType usage port 0 validUntil material (some x)
        let s1 := { s with keys := { s.keys with extUsed := s.keys.extUsed ++ [x] } }
        some (carveWrite .lowest .carve (extOff x) material (writeSlot n sl s1), handleOf n sl)
    else
      let sl := fillSlot s n keyType usage port material.length validUntil material none
      some (writeSlot n sl s, handleOf n sl)

/-- KEY_IMPORT (06 R159); the unwrap engine's memory is read with the unwrap (12 Table 12-6). -/
def execKeyImport (s : State) : Host.Outcome State Fault Refusal :=
  .next (onCommand 0x0200 (fun e s0 =>
    let len := par e 8 4
    let b := landed e
    let s := if e.readIssued && blobFieldsOk b then eccInjected 0x0B2 s0 else s0
    if !e.readIssued then
      (if len < 40 ∨ 2048 < len ∨ len % 8 ≠ 0 then refuseAt e .invalidField 24 s
       else if !cmdSpanOk s e (par e 0 8) len then refuseAt e .notPermitted 0 s
       else cmdRead e (par e 0 8) len s)
    else
      if !blobFieldsOk b then refuseAt e .invalidField 16 s
      else match openBlob e.port b with
        | none => refuseAt e .blobInvalid 0 s
        | some m =>
          if validityOver s (fld b 12 4) then refuseAt e .keyRevoked 0 s
          else match installKey e.port (fld b 5 1) (fld b 6 2) (fld b 12 4) m s with
            | none => refuseAt e .quotaExceeded 0 s
            | some q => answer e .ok (leBytes 4 q.2) (logCommit e q.1)) s)

/-- Material length of a generated key (06 R160). -/
def genLen (t : Nat) : Nat := if t = 0x07 then 64 else (keyTypeLen t).getD 0

/-- The refusals of KEY_GENERATE before any effect, in order (06 R160, R200; 10 R278). -/
def generateFault (s : State) (e : CmdEntry) : Option (Status × Nat) :=
  let t := par e 0 2
  let u := par e 2 2
  let dest := par e 8 8
  if !keyTypeKnown t || isRsa t then some (.invalidField, 16)
  else if 512 ≤ u ∨ (u.testBit 8 ∧ 3 < t) then some (.invalidField, 18)
  else if dest ≠ 0 ∧ par e 16 4 < blobLen (genLen t) then some (.invalidField, 32)
  else if dest ≠ 0 ∧ (!u.testBit 6 ∨ !cmdSpanOk s e dest (blobLen (genLen t))) then some (.notPermitted, 0)
  else if !feedReady s 7 then some (.rngUnavailable, 0)
  else none

/-- One request counted on a Feed instance (10 R275, R276). -/
def feedDraw (i : Nat) (s : State) : State :=
  { s with rng := { s.rng with feeds := tmod s.rng.feeds i (fun f => { f with requests := f.requests + 1 }) } }

/-- KEY_GENERATE: the material is drawn from Feed, a free value (log 5). A DEST_LEN below the blob is refused with INVALID_FIELD (DESIGN
CHOICE, log 134). -/
def execKeyGenerate (s : State) : Host.Outcome State Fault Refusal :=
  .next (onCommand 0x0201 (fun e s =>
    match generateFault s e with
    | some f => refuseAt e f.1 f.2 s
    | none =>
      let t := par e 0 2
      let m := freeBytes s (genLen t)
      match installKey e.port t (par e 2 2) 0 m s with
      | none => refuseAt e .quotaExceeded 0 s
      | some q =>
        let s1 := logCommit e (feedDraw 7 (useFree (genLen t) q.1))
        if par e 8 8 = 0 then answer e .ok (leBytes 4 q.2 ++ leBytes 4 0) s1
        else cmdWrite e (par e 8 8) (blobOf t (par e 2 2) e.port 0 m)
          (replyTo s1 e .ok 0 (leBytes 4 q.2 ++ leBytes 4 (blobLen (genLen t))) false) s1) s)

/-- KEY_EXPORT (06 R160). A DEST_LEN below the blob is refused with INVALID_FIELD, which the rule does not say (DESIGN CHOICE, log 134). -/
def execKeyExport (s : State) : Host.Outcome State Fault Refusal :=
  .next (onCommand 0x0202 (fun e s0 =>
    let h := par e 0 4
    let s := slotUsed e.port h s0
    let st := keyStatus s e.port h
    if st ≠ .ok then refuseAt e st 0 s
    else if !usageHas (keyOf s h) 6 then refuseAt e .notPermitted 0 s
    else withKey e (handleSlot h) (fun s =>
      let sl := keyOf s h
      let n := blobLen (keyBytes sl).length
      if par e 4 4 < n then refuseAt e .invalidField 20 s
      else if !cmdSpanOk s e (par e 8 8) n then refuseAt e .notPermitted 0 s
      else cmdWrite e (par e 8 8) (blobOf sl.keyType sl.usage.toNat e.port sl.validUntil (keyBytes sl))
        (replyTo s e .ok 0 (leBytes 4 n) false) s) s) s)

/-- KEY_DESTROY: the handle is invalid from the commit on; a STALE slot is destroyed too (06 R165, R168). -/
def execKeyDestroy (s : State) : Host.Outcome State Fault Refusal :=
  .next (onCommand 0x0203 (fun e s =>
    let h := par e 0 4
    let st := keyStatus s e.port h
    if st = .ok ∨ st = .keyStale then fence e (.key h) [] (retireHandle (handleSlot h) s) else refuseAt e st 0 s) s)

/-! ### Keys in the NVM (06 R186, R187) -/

def keyRecsOf (n : Nvm) (id : Nat) : List KeyRec := n.keys.filter (fun r => r.id == id)

/-- The complete record with the highest VERSION. -/
def bestKeyRec (n : Nvm) (id : Nat) : Option KeyRec :=
  (keyRecsOf n id).foldl (fun a r => if !r.complete then a else match a with
    | none => some r
    | some x => if x.version < r.version then some r else some x) none

/-- VERSION of the next record: 1 more than the highest present, complete or not. -/
def nextKeyVersion (n : Nvm) (id : Nat) : Nat := (keyRecsOf n id).foldl (fun a r => max a r.version) 0 + 1

/-- The checks of KEY_STORE_NVM (06 R186). -/
def keyStoreFault (e : CmdEntry) (s : State) : Option (Status × Nat) :=
  let h := par e 0 4
  let st := keyStatus s e.port h
  if st ≠ .ok then some (st, 0)
  else if !usageHas (keyOf s h) 7 || (keyRecsOf s.nvm (par e 4 2)).any (fun r => r.complete && r.slot.owner != e.port) then some (.notPermitted, 0)
  else none

/-- KEY_STORE_NVM: the record, then its marker; the reply follows the marker (06 R186). -/
def execKeyStoreNvm (s : State) : Host.Outcome State Fault Refusal :=
  .next (onCommand 0x0204 (fun e s0 =>
    let h := par e 0 4
    let s := slotUsed e.port h s0
    let id := par e 4 2
    match keyStoreFault e s with
    | some f => refuseAt e f.1 f.2 s
    | none => withSlot e (handleSlot h) (fun s =>
      let v := nextKeyVersion s.nvm id
      let r := archiveRec id v (keyOf s h)
      setEntry e.cid (fun x => { x with committed := true, reply := some (replyTo s e .ok 0 (leBytes 4 v) false) })
        (logCommit e (nvmQueue { work := .keyProgram r, cid := some e.cid } s))) s) s)

/-- KEY_LOAD_NVM (06 R187). -/
def execKeyLoadNvm (s : State) : Host.Outcome State Fault Refusal :=
  .next (onCommand 0x0205 (fun e s =>
    match bestKeyRec s.nvm (par e 0 2) with
    | none => refuseAt e .invalidField 16 s
    | some r =>
      if r.slot.owner ≠ e.port then refuseAt e .notPermitted 0 s
      else if validityOver s r.slot.validUntil then refuseAt e .keyRevoked 0 s
      else match installKey e.port r.slot.keyType r.slot.usage.toNat r.slot.validUntil (keyBytes r.slot) s with
        | none => refuseAt e .quotaExceeded 0 s
        | some q => answer e .ok (leBytes 4 q.2 ++ leBytes 4 r.version) (logCommit e q.1)) s)

end Sys2Proof.Machine
end

