-- ==== Sys2Proof/Machine/Sessions.lean ====
section
/-! DEFINITION. Sessions: SESSION_CREATE to SESSION_QUERY (03 Table 3-7; 06 R178 to R183; 07 R194 to R196, R201, R212; 08 R220;
09 R249, R250; 10 R281). -/
namespace Sys2Proof.Machine

/-- The session record that a SESSION_CREATE packet asks for, before its counter values. -/
def askedSession (e : CmdEntry) : Session :=
  { owner := e.port, key := par e 0 4, alg := par e 4 2, mode := par e 6 1, policy := par e 7 1, ligature := par e 8 4
    spanOff := par e 12 2, spanLen := par e 14 2, sflags := par e 16 4, salt := par e 20 4, next := 0, ceiling := 0, limit := 0, gen := 0 }

/-- LIGATURE_L (07 R201): 0, a power of two from 2^10 to 2^20, or video lines within 1,024 to 1,048,576 bytes. -/
def ligatureOk (v : Nat) : Bool :=
  if v = 0 then true
  else if v < 2 ^ 31 then decide (10 ≤ v) && decide (v ≤ 20)
  else decide (1 ≤ bits v 0 16) && decide (1 ≤ bits v 16 15) && decide (1024 ≤ ligatureL v) && decide (ligatureL v ≤ 1048576)

/-- TAG_LEN of a mode (07 Table 7-1); 0 stands for 16. -/
def tagOk (mode t : Nat) : Bool :=
  match mode with
  | 4 | 5 => t == 0 || decide (12 ≤ t)
  | 6 => t == 0 || (decide (4 ≤ t) && t % 2 == 0)
  | 7 => t == 0 || decide (8 ≤ t)
  | _ => t == 0

/-- The lowest offending offset of a Nib session's parameters (07 R193 to R195, R201, R212). -/
def nibCreateFault (r : Session) : Option Nat :=
  let noIv := r.mode == 1 || r.mode == 7 || r.mode == 8
  if r.key = 0 then some 16
  else if (r.alg = 0x10 ∧ (r.mode = 0 ∨ 8 < r.mode)) ∨ (r.alg = 0x11 ∧ r.mode ≠ 9) then some 22
  else if 2 < r.policy ∨ (noIv ∧ r.policy ≠ 0) then some 23
  else if !ligatureOk r.ligature then some 24
  else if r.spanLen ≠ 0 ∧ (r.mode = 1 ∨ r.mode = 2 ∨ r.mode = 3 ∨ r.mode = 8) then some 30
  else if 2 ≤ r.sflags % 4 ∨ bits r.sflags 2 6 ≠ 0 ∨ 2 ^ 12 ≤ r.sflags ∨ !tagOk r.mode (bits r.sflags 8 4) then some 32
  else none

/-- Of a Quill session's (08 R220, Table 8-2). -/
def quillCreateFault (r : Session) : Option Nat :=
  let shake := r.alg == 0x25 || r.alg == 0x26
  let out := bits r.sflags 8 12
  if (r.mode = 0 ∧ r.key ≠ 0) ∨ (r.mode = 1 ∧ r.key = 0) then some 16
  else if 1 < r.mode ∨ (r.mode = 1 ∧ shake) then some 22
  else if r.policy ≠ 0 then some 23
  else if r.ligature ≠ 0 then some 24
  else if r.spanOff ≠ 0 then some 28
  else if r.spanLen ≠ 0 then some 30
  else if r.sflags % 256 ≠ 0 ∨ 2 ^ 20 ≤ r.sflags ∨ (!shake ∧ out ≠ 0 ∧ (r.mode = 0 ∨ out < 16 ∨ quillFull r.alg < out)) then some 32
  else if r.salt ≠ 0 then some 36
  else none

/-- Of a Hook session's (09 R249, R250), and of a RANDOM session's, whose parameters are all 0 (10 R281). -/
def plainCreateFault (r : Session) : Option Nat :=
  let rnd := isRandom r.alg
  if rnd ∧ r.key ≠ 0 then some 16
  else if r.mode ≠ 0 then some 22
  else if r.policy ≠ 0 then some 23
  else if r.ligature ≠ 0 then some 24
  else if r.spanOff ≠ 0 then some 28
  else if r.spanLen ≠ 0 then some 30
  else if (rnd ∧ r.sflags ≠ 0) ∨ 256 ≤ r.sflags then some 32
  else if r.salt ≠ 0 then some 36
  else none

def createFieldFault (r : Session) : Option Nat :=
  if isNib r.alg then nibCreateFault r
  else if isQuill r.alg then quillCreateFault r
  else if isHook r.alg || isRandom r.alg then plainCreateFault r
  else some 20

/-- The KEY_TYPEs of a session (07 Table 7-1, 08 R220, 09 Table 9-1). -/
def keyTypeFits (alg mode t : Nat) : Bool :=
  if alg = 0x10 then (if mode = 8 then t == 4 || t == 5 else decide (1 ≤ t) && decide (t ≤ 3))
  else if alg = 0x11 then t == 6
  else if isQuill alg then t == 7
  else match alg with
    | 0x31 => t == 0x10 | 0x32 => t == 0x11 | 0x33 => t == 0x12 | 0x34 => t == 0x13 | 0x35 => t == 0x14 | 0x36 => t == 0x20
    | 0x37 => t == 0x21 | 0x38 => t == 0x22 | 0x39 => t == 0x18 | 0x3A => t == 0x19 | 0x3B => t == 0x1A | 0x3C => t == 0x1B
    | _ => false

/-- USAGE allows at least one operation of the session (06 R162); a HOST_IV session neither encrypts nor makes a MAC (07 R195), and every keyed
Hook session has an operation that needs no USAGE bit (09 Table 9-4). -/
def usageSome (sl : Slot) (r : Session) : Bool :=
  let makes := !(r.policy == 2 && usesIv r)
  if isNib r.alg then
    (if r.mode = 5 ∨ r.mode = 7 then (makes && usageHas sl 2) || usageHas sl 3 else (makes && usageHas sl 0) || usageHas sl 1)
  else if isQuill r.alg then usageHas sl 2 || usageHas sl 3 else true

/-- A session draws its salt and its counter start (07 R195, R196). -/
def drawsSalt (r : Session) : Bool := usesIv r && r.policy == 0
def drawsStart (r : Session) : Bool := usesIv r && r.policy != 2

/-- SESSIONS_MAX, 0 for no limit (05 R143). -/
def overMax (limit have_ want : Nat) : Bool := limit != 0 && decide (limit < have_ + want)

/-- The lowest free session index (06 R178): no record, and its GEN not past 1,023. -/
def lowestSession (fuel k : Nat) (s : State) : Option Nat :=
  match fuel with
  | 0 => none
  | f + 1 => if (tget s.keys.sessions k).isNone && decide (sessGenAt s k ≤ 1023) then some k else lowestSession f (k + 1) s

def freeSession (s : State) : Option Nat :=
  match lowestSession (s.keys.sessions.length + s.keys.sessGen.length + 1) 0 s with
  | some k => if k < 2 ^ log2Sessions s.keys then some k else none
  | none => none

/-- The refusals of SESSION_CREATE in order: encodings, the key, what the key and the port permit, limits, entropy. -/
def createFault (s : State) (e : CmdEntry) : Option (Status × Nat) :=
  let r := askedSession e
  let p := tgetD s.ports e.port {}
  let sl := keyOf s r.key
  match createFieldFault r with
  | some d => some (.invalidField, d)
  | none =>
    let ks := if r.key = 0 then .ok else keyStatus s e.port r.key
    if ks ≠ .ok then some (ks, 0)
    else if (r.key != 0 && (!keyTypeFits r.alg r.mode sl.keyType || !usageSome sl r))
        || (r.ligature != 0 && (r.mode != 4 || tagLen r != 16 || !usageHas sl 8))
        || (isHook r.alg && !p.pflags.getLsbD 2) || !maskAllows p.algMask (algBits r.alg r.mode r.ligature) then some (.notPermitted, 0)
    else if overMax p.sessMax (portSessions s e.port) 1 || (freeSession s).isNone then some (.quotaExceeded, 0)
    else if (drawsSalt r || drawsStart r) && !feedReady s 7 then some (.rngUnavailable, 0)
    else none

/-- COUNTER_BITS as a power (07 Table 7-2). -/
def counterSpan (r : Session) : Nat := if isNib r.alg ∧ r.sflags % 4 = 1 then 2 ^ 48 else 2 ^ 40

/-- The record of a new session: its salt, its counter start with the low bits at 0, its first reservation (06 R181,
07 R196). -/
def newSession (s : State) (r : Session) (ix : Nat) : Session :=
  let span := counterSpan r
  let start := if drawsStart r then leNat (freeBytes { s with clk := { s.clk with free := s.clk.free + 4 } } 8) / span * span else 0
  let salt := if drawsSalt r then leNat (freeBytes s 4) else if usesIv r ∧ r.policy = 1 then r.salt else 0
  { r with salt := salt, next := start, ceiling := min (start + 2 ^ 20) (start + span), limit := start + span, gen := sessGenAt s ix }

/-- The session made in its free index, cached, with its first record on its way to the carve-out (06 R179, R181). -/
def makeSession (e : CmdEntry) (ix : Nat) (s0 : State) : State :=
  let s := evictSession s0
  let r := newSession s (askedSession e) ix
  let s1 := if drawsSalt r || drawsStart r then feedDraw 7 (useFree 12 s) else s
  let s2 := { s1 with keys := { s1.keys with sessions := tput s1.keys.sessions ix r, sessGen := tput s1.keys.sessGen ix r.gen } }
  let rep := replyTo s e .ok 0 (leBytes 4 (sessHandle ix r.gen) ++ leBytes 4 r.salt ++ leBytes 8 r.next) false
  writeSession (.sessWrite ix) ix r.ceiling
    (setEntry e.cid (fun x => { x with committed := true, work := [ix], reply := some rep }) (logCommit e s2))

/-- SESSION_CREATE: the record is written to the carve-out, and the reply follows its acknowledgement (06 R181); a key that P3 spilled is
read first (R169). -/
def execSessionCreate (s : State) : Host.Outcome State Fault Refusal :=
  .next (onCommand 0x0206 (fun e s0 =>
    let key := (askedSession e).key
    let s := slotUsed e.port key s0
    match createFault s e, freeSession s with
    | some f, _ => refuseAt e f.1 f.2 s
    | none, none => refuseAt e .quotaExceeded 0 s
    | none, some ix => if key = 0 then makeSession e ix s else withSlot e (handleSlot key) (makeSession e ix) s) s)

/-- SESSION_BIND_RING (06 R180). -/
def execSessionBindRing (s : State) : Host.Outcome State Fault Refusal :=
  .next (onCommand 0x0207 (fun e s =>
    let h := par e 0 4
    let id := par e 4 4
    match sessionOf s e.port h, tget s.rings id with
    | none, _ => refuseAt e .sessionClosed 0 s
    | some _, none => refuseAt e .notPermitted 0 s
    | some r, some g =>
      if g.port ≠ e.port ∨ g.isCpl then refuseAt e .notPermitted 0 s
      else if (par e 8 1 = 1) = g.bound.contains h then answer e .ok [] (logCommit e s)
      else if par e 8 1 = 1 then
        (if g.gen = 1 ∧ !(r.alg == 0x10 && decide (r.mode ≤ 3)) then refuseAt e .notPermitted 0 s
         else if 8 ≤ g.bound.length then refuseAt e .quotaExceeded 0 s
         else answer e .ok [] (logCommit e { s with rings := tput s.rings id { g with bound := g.bound ++ [h] } }))
      else fence e (.binding h id) []
        { s with rings := tput s.rings id { g with bound := g.bound.filter (· != h), ringGen := g.ringGen + 1 } }) s)

/-- SESSION_CLOSE (06 R178). -/
def execSessionClose (s : State) : Host.Outcome State Fault Refusal :=
  .next (onCommand 0x0208 (fun e s =>
    let h := par e 0 4
    match sessionOf s e.port h with
    | none => refuseAt e .sessionClosed 0 s
    | some _ => fence e (.session h) [] (retireSession (sessIndex h) s)) s)

/-- STATE of a session (06, after R180). -/
def sessionState (s : State) (port : Nat) (r : Session) : Nat :=
  if r.key ≠ 0 ∧ keyStatus s port r.key ≠ .ok then 3 else if r.exhausted then 2 else 1

/-- SESSION_QUERY: a record that is not cached is read first. -/
def execSessionQuery (s : State) : Host.Outcome State Fault Refusal :=
  .next (onCommand 0x0209 (fun e s =>
    let h := par e 0 4
    match sessionOf s e.port h with
    | none => refuseAt e .sessionClosed 0 s
    | some r =>
      if !r.cached then
        fetchSession (sessIndex h) (setEntry e.cid (fun x => { x with phase := 1, work := [sessOff (sessIndex h)] }) s)
      else answer e .ok (leBytes 8 r.next ++ leBytes 8 r.ceiling ++ leBytes 4 r.gen ++ leBytes 4 (sessionState s e.port r)) s) s)

end Sys2Proof.Machine
end

