-- ==== Sys2Proof/Machine/Rings.lean ====
section
/-! DEFINITION. Rings: RING_CREATE to RING_QUERY (03 Table 3-8; 04 R101 to R104, R121, R122; 05 R143). -/
namespace Sys2Proof.Machine

/-- The lowest direct slot of a port's page that no ring holds (04 R101). -/
def freeSlotOf (s : State) (p : Nat) : Option Nat :=
  (List.range 512).find? (fun k => !s.rings.any (fun e => e.2.port == p && e.2.slot == some k))

def urgentRings (s : State) : Nat := tcount s.rings (fun _ r => r.urgent)

/-- RINGS_MAX reached (04 R101, 05 R143). -/
def ringsFull (s : State) (p : Nat) : Bool := overMax (tgetD s.ports p {}).ringsMax (portRings s p) 1

/-- A new ring joins the context cache; another context leaves it when it is full (04 R96). -/
def addRing (id : Nat) (r : Ring) (s : State) : State :=
  let s1 := evictRing s
  touchRing id { s1 with rings := tput s1.rings id r }

/-- RING_CREATE; the ring lies in the port's window (06 Table 6-6). -/
def execRingCreate (s : State) : Host.Outcome State Fault Refusal :=
  .next (onCommand 0x0300 (fun e s =>
    let id := par e 0 4
    let urgent : Bool := par e 6 1 == 1
    let cpl := par e 16 4
    let p := tgetD s.ports e.port {}
    let cplOk : Bool := match tget s.rings cpl with
      | some c => c.isCpl && c.port == e.port
      | none => false
    if (tget s.rings id).isSome then refuseAt e .invalidField 16 s
    else if !cplOk || (urgent && !p.pflags.getLsbD 0) || !inWindow p (par e 8 8) (entrySize (par e 4 1) * 2 ^ par e 5 1) then refuseAt e .notPermitted 0 s
    else if ringsFull s e.port || (urgent && decide (512 ≤ urgentRings s)) then refuseAt e .quotaExceeded 0 s
    else
      let slot := freeSlotOf s e.port
      let r : Ring := { isCpl := false, port := e.port, log2 := par e 5 1, base := par e 8 8, gen := par e 4 1, urgent := urgent
                        cplRing := cpl, slot := slot }
      answer e .ok (leBytes 2 (slot.getD 0xFFFF)) (logCommit e (addRing id r s))) s)

/-- CPL_RING_CREATE. -/
def execCplRingCreate (s : State) : Host.Outcome State Fault Refusal :=
  .next (onCommand 0x0301 (fun e s =>
    let id := par e 0 4
    if (tget s.rings id).isSome then refuseAt e .invalidField 16 s
    else if !inWindow (tgetD s.ports e.port {}) (par e 8 8) (16 * 2 ^ par e 4 1) then refuseAt e .notPermitted 0 s
    else if ringsFull s e.port then refuseAt e .quotaExceeded 0 s
    else
      let r : Ring := { isCpl := true, port := e.port, log2 := par e 4 1, base := par e 8 8, coalCount := par e 16 2
                        coalUs := par e 18 2, vector := par e 20 2 }
      answer e .ok [] (logCommit e (addRing id r s))) s)

/-- A ring of the port. -/
def ownRing (s : State) (e : CmdEntry) : Option Ring :=
  match tget s.rings (par e 0 4) with
  | some r => if r.port = e.port then some r else none
  | none => none

/-- Whether a completion ring is still named (04 R104). -/
def ringNamed (s : State) (id : Nat) : Bool :=
  s.rings.any (fun e => !e.2.isCpl && e.2.cplRing == id) || s.chans.any (fun e => e.2.isOpen && e.2.cpl == id)

/-- RING_DESTROY: DRAINING from the commit on (04 R104). -/
def execRingDestroy (s : State) : Host.Outcome State Fault Refusal :=
  .next (onCommand 0x0302 (fun e s =>
    let id := par e 0 4
    match ownRing s e with
    | none => refuseAt e .notPermitted 0 s
    | some r =>
      if r.isCpl && ringNamed s id then refuseAt e .notPermitted 0 s
      else fence e (.ring id) []
        { s with rings := tput s.rings id { r with draining := true, ringGen := r.ringGen + 1 }, skein := unmarkRing id s.skein }) s)

/-- The rings marked again whose visits were held by a ring that was STOPPED: the ring itself, or those that feed it. -/
def remark (id : Nat) (r : Ring) (s : State) : State :=
  if r.isCpl then s.rings.foldl (fun a e => if !e.2.isCpl && e.2.cplRing == id && decide (unfetched e.2 ≠ 0) then
      { a with skein := markRing e.1 e.2.urgent a.skein } else a) s
  else if unfetched r ≠ 0 then { s with skein := markRing id r.urgent s.skein } else s

/-- RING_RESTART (04 R103): a descriptor ring fetches from NEW_HEAD on, and a read still on its way is given up; a chain left open goes on
with the entry at NEW_HEAD (DESIGN CHOICE, log 120). -/
def execRingRestart (s : State) : Host.Outcome State Fault Refusal :=
  .next (onCommand 0x0303 (fun e s =>
    let id := par e 0 4
    let h := par e 4 4
    match ownRing s e with
    | none => refuseAt e .notPermitted 0 s
    | some r =>
      if (r.isCpl ∧ h ≠ 0) ∨ (!r.isCpl ∧ 2 ^ r.log2 ≤ h) then refuseAt e .invalidField 20 s
      else if !r.stopped then refuseAt e .notPermitted 0 s
      else
        if r.isCpl then answer e .ok [] (logCommit e (remark id r { s with rings := tput s.rings id { r with stopped := false } }))
        else
          let r1 : Ring := { r with stopped := false, head := h, reads := [] }
          answer e .ok [] (logCommit e (remark id r1 { s with rings := dropReads id [] r1 (dropReads id [] r s.rings) }))) s)

/-- RING_SET_COALESCE (04 R121). -/
def execRingSetCoalesce (s : State) : Host.Outcome State Fault Refusal :=
  .next (onCommand 0x0304 (fun e s =>
    match ownRing s e with
    | none => refuseAt e .notPermitted 0 s
    | some r =>
      if !r.isCpl then refuseAt e .invalidField 16 s
      else answer e .ok [] (logCommit e { s with rings := tput s.rings (par e 0 4) { r with coalNext := some (par e 4 2, par e 6 2) } })) s)

/-- RING_QUERY: a ring that the port does not own reads ABSENT with zeros (04 Table 4-3); a context that is not cached is read first (04
R106). -/
def execRingQuery (s : State) : Host.Outcome State Fault Refusal :=
  .next (onCommand 0x0305 (fun e s =>
    let id := par e 0 4
    let q := match ownRing s e with
      | none => (0, 0, 0, 0)
      | some r => (r.head, r.tail, ringState s e.port id, ringCount s id r)
    if (ownRing s e).any (fun r => !r.cached) && e.phase != 2 then
      fetchContext id (setEntry e.cid (fun x => { x with phase := 1, work := [ringRecOff id] }) s)
    else answer e .ok (leBytes 4 q.1 ++ leBytes 4 q.2.1 ++ leBytes 4 q.2.2.1 ++ leBytes 4 q.2.2.2) s) s)

end Sys2Proof.Machine
end

