-- ==== Sys2Proof/Machine/Windows.lean ====
section
/-! DEFINITION. Hook windows: WINDOW_LEASE, WINDOW_RELEASE, OPERAND_CLEAR, WINDOW_QUERY and the end of a zeroing (03 Table 3-14;
09 R242 to R247, R262). -/
namespace Sys2Proof.Machine

/-- Free windows of a hook: 64 physical windows each, those counted that are still to be copied to it (09 R242, R245). -/
def hookFree (s : State) (c : Nat) : Nat :=
  64 - s.eng.leases.foldl (fun a l => if effUnit s l.2.hook = c then a + l.2.windows.length else a) 0

/-- Hooks in service, one that replaces a withdrawn hook in its place, by their numbers. -/
def leaseHooks (s : State) : List Nat :=
  let l := (placeable s 2).map (effUnit s)
  ((List.range 9).map (fun k => 0x200 + k)).filter l.contains

/-- The hook with the most free windows, the lowest number on a tie (09 R243). -/
def leaseHook (s : State) : Option Nat := leastBy (fun c => 64 - hookFree s c) (leaseHooks s)

/-- The logical windows that no lease holds. -/
def freeLogical (s : State) : List Nat := (List.range 512).filter (fun w => !s.eng.leases.any (fun l => l.2.windows.contains w))

/-- WINDOW_ID of a logical window (09 R242). -/
def windowId (s : State) (w : Nat) : Nat := w + 512 * tgetD s.eng.windowGen w 1

/-- WINDOW_LEASE. -/
def execWindowLease (s : State) : Host.Outcome State Fault Refusal :=
  .next (onCommand 0x0900 (fun e s =>
    let p := tgetD s.ports e.port {}
    let h := par e 0 4
    let n := par e 4 1
    let hookSession : Bool := match sessionOf s e.port h with
      | some r => isHook r.alg
      | none => false
    if !p.pflags.getLsbD 2 || !hookSession then refuseAt e .notPermitted 0 s
    else if overMax p.winMax (portWindows s e.port) n then refuseAt e .quotaExceeded 0 s
    else match leaseHook s with
      | none => refuseAt e .quotaExceeded 0 s
      | some c =>
        let ws := (freeLogical s).take n
        if hookFree s c < n ∨ ws.length < n then refuseAt e .quotaExceeded 0 s
        else
          let l : Lease := { session := h, port := e.port, hook := c, windows := ws }
          answer e .ok ((ws.map (fun w => leBytes 2 (windowId s w))).flatten)
            (logCommit e { s with eng := { s.eng with leases := tput s.eng.leases (ws.headD 0) l } })) s)

/-- The lease of a port that holds a window: its number and whether the window is its first. -/
def leaseHolding (s : State) (port wid : Nat) : Option (Nat × Lease) :=
  if tgetD s.eng.windowGen (wid % 512) 1 = wid / 512 then
    tfind s.eng.leases (fun _ l => l.port == port && l.windows.contains (wid % 512))
  else none

/-- The lease of a command's port named by its first window, or the refusal (06 Table 6-6, 09 R246, R262). -/
def onLease (e : CmdEntry) (f : Nat → Lease → State → State) (s : State) : State :=
  let wid := par e 0 2
  match leaseHolding s e.port wid with
  | none => refuseAt e .notPermitted 0 s
  | some (ix, l) => if ix ≠ wid % 512 then refuseAt e .invalidField 16 s else f ix l s

/-- WINDOW_RELEASE (09 R246). -/
def execWindowRelease (s : State) : Host.Outcome State Fault Refusal :=
  .next (onCommand 0x0901 (fun e s => onLease e (fun ix l s =>
    fence e (.lease (par e 0 2)) [] { s with eng := { s.eng with leases := tput s.eng.leases ix { l with releasing := true } } }) s) s)

/-- Admitted jobs of a lease that have not ended, by fetch number. -/
def leaseJobs (s : State) (wid : Nat) : List Nat :=
  (s.jobs.filter (fun e => e.2.counted && e.2.desc.op == 0x20 && e.2.desc.aux == wid && e.2.phase == .queued)).map (fun e => e.2.seq)

/-- OPERAND_CLEAR: it takes its place in the hook's queue behind every job admitted on the lease (09 R262). -/
def execOperandClear (s : State) : Host.Outcome State Fault Refusal :=
  .next (onCommand 0x0902 (fun e s => onLease e (fun ix l s =>
    let start := candFree s (l.hook, none)
    let stop := start + cyHook (32 * l.windows.length)
    let s1 := { s with eng := { s.eng with leases := tput s.eng.leases ix { l with zeroing := some (stop, some e.cid) } } }
    setEntry e.cid (fun x => { x with committed := true, work := leaseJobs s (par e 0 2), reply := some (replyTo s e .ok 0 [] false) })
      (logCommit e s1)) s) s)

/-- STATE of WINDOW_QUERY (09 R247). -/
def leaseState (l : Lease) : Nat :=
  pack [(if l.releasing then 2 else 1, 0), (b2n l.contentsLost, 8), (l.windows.length % 16, 12), (l.hook % 16, 16)]

/-- WINDOW_QUERY. -/
def execWindowQuery (s : State) : Host.Outcome State Fault Refusal :=
  .next (onCommand 0x0903 (fun e s =>
    let q := match leaseHolding s e.port (par e 0 2) with
      | none => (0, 0)
      | some x => (x.2.session, leaseState x.2)
    answer e .ok (leBytes 4 q.1 ++ leBytes 4 q.2) s) s)

/-- OPERAND_CLEAR done: the lease reads zero, and its command is answered (09 R247, R262). -/
def clearEnded (cid ix : Nat) (l : Lease) (s : State) : State :=
  let s1 := { s with eng := { s.eng with leases := tput s.eng.leases ix { l with data := [], contentsLost := false, zeroing := none } } }
  match entryOf s cid with
  | some e => finish e (e.reply.getD (replyTo s e .ok 0 [] false)) s1
  | none => s1

/-- LEASE_ZEROING_COMPLETE: the lease that holds the window is zeroed; a released one ends (09 R246, R262). -/
def execLeaseZeroingComplete (window : BitVec 9) (s : State) : Host.Outcome State Fault Refusal :=
  .next (if running s then
      (match tfind s.eng.leases (fun _ l => l.windows.contains window.toNat) with
       | none => s
       | some (ix, l) =>
         match l.zeroing with
         | none => s
         | some (t, cid) =>
           if s.clk.now < t || s.jobs.any (fun x => onUnit x.2 && (clearJobs s cid).contains x.2.seq) then s
           else startDue (match cid with
             | none => leaseEnded ix (endLease ix s)
             | some c => clearEnded c ix l s))
    else s)

end Sys2Proof.Machine
end

