-- ==== Sys2Proof/Machine/Engines.lean ====
section
/-! DEFINITION. The ends of engine times: the comparison, its retries, and what each operation releases (01 R19, R20; 07 R203,
R204, R210, R213 to R217; 08 R223, R230 to R236; 09 R252, R257, R261; 10 R281). -/
namespace Sys2Proof.Machine

/-! ### When an engine time ends -/

/-- The job of an index that has started and whose engine time, idle cycles included, has ended with all its input here (01 R21, R25; log
24). -/
def readyEnd (s : State) (i : Nat) (p : Job → Bool) : Option Job :=
  match jobOf s i with
  | some j =>
    if running s && p j && j.phase == .queued && j.counted && j.begun && j.readsLeft == 0 && j.status == .ok
        && decide (engineStop j ≤ s.clk.now) then some j else none
  | none => none

def fromRing (j : Job) : Bool :=
  match j.src with
  | .ring _ _ => true
  | _ => false

/-- The checker that compares a job's results (12 Table 12-6). -/
def checkerOf (r : Session) : Nat := if isHook r.alg then 3 else 2

/-- The end of a run on its units: the contexts zeroed, nothing left to suspend, and a job that it stood before resumes (07 R192, R210). -/
def endRun (i : Nat) (j : Job) (us : List Nat) (s : State) : State :=
  let e := modUnits us (fun u => if u.suspended == some i then { u with suspended := none, suspendEnd := none } else u) (dropCtx j.seq s.eng)
  resumeUnder i j { s with eng := e }

/-- The end of a run with its job and cycle counts; a run to be tried again completes no job on its units (DEDUCED, log 47). -/
def countEnd (i : Nat) (j : Job) (r : Session) (us : List Nat) (done : Bool) (s : State) : State :=
  let cyc := engineOwn r j ((unitOf s j.unit).role == .inverse)
  endRun i j us { s with eng := modUnits us (fun u => { u with jobs := (u.jobs + b2n done) % 2 ^ 64, busy := (u.busy + cyc) % 2 ^ 64 }) s.eng }

/-! ### A disagreement (07 R214, R216; 08 R236; 09 R257) -/

/-- A place for a retry: unit and lane, a delay before it starts, and whether a Hook retry runs ahead of the queue. -/
structure Retry where
  unit : Nat
  lane : Option Nat
  delay : Nat := 0
  pair : Option Nat := none
  ahead : Bool := false

/-- Two idle spare nibs, of the half first asked for, then of the other. -/
def sparePair (us : Tbl EUnit) (half : Nat) : Option (Nat × Nat) :=
  let l := freeSpares us 0
  let two := fun (m : List Nat) => match m with
    | a :: b :: _ => some (a, b)
    | _ => none
  match two (l.filter (fun c => nibHalf c == half)) with
  | some p => some p
  | none => two (l.filter (fun c => nibHalf c != half))

/-- Idle: nothing is queued on the unit. -/
def unitIdle (s : State) (c : Nat) : Bool := (unitQueue s c none).isEmpty

/-- Units other than the one that disagreed; that one where no other can take the job (01 R20). -/
def others (u : Nat) (cs : List (Nat × Option Nat)) : List (Nat × Option Nat) :=
  let l := cs.filter (fun c => c.1 != u)
  if l.isEmpty then cs else l

/-- Where a Nib job is tried again (07 R214, R216). -/
def nibRetry (s : State) (r : Session) (j : Job) : Retry :=
  let half := nibHalf j.unit
  let lane := if isNarrow r j.desc.op then some 0 else none
  let cs := candidates s r j
  let best := fun (l : List (Nat × Option Nat)) => leastBy (candFree s) l
  if (unitOf s j.unit).role = .inverse then
    let other := cs.filter (fun c => nibHalf c.1 != half && (unitOf s c.1).role == .active)
    match other.find? (fun c => unitIdle s c.1), best other with
    | some c, _ => { unit := c.1, lane := c.2 }
    | none, some c => { unit := c.1, lane := c.2 }
    | none, none => { unit := j.unit, lane := j.lane }
  else match sparePair s.eng.units half with
    | some (a, b) => { unit := min a b, lane := lane, pair := some (max a b) }
    | none => match best (others j.unit cs) with
      | some c => { unit := c.1, lane := c.2 }
      | none => { unit := j.unit, lane := j.lane }

/-- Where a Quill job is tried again: a message's context is copied to another quill in service in 24 QUILL cycles, and a one-shot job has
none (08 R223, R226, R236). -/
def quillRetry (s : State) (r : Session) (j : Job) : Retry :=
  match (freeSpares s.eng.units 1).find? (unitIdle s) with
  | some c => { unit := c, lane := none }
  | none => match leastBy (candFree s) (others j.unit ((placeable s 1).map (fun u => (effUnit s u, none)))) with
    | some c => { unit := c.1, lane := none, delay := if c.1 = j.unit ∨ !quillPart r j.desc then 0 else cyQuill 24 }
    | none => { unit := j.unit, lane := none }

/-- Where a Hook job is tried again (09 R257). -/
def hookRetry (s : State) (j : Job) : Retry :=
  match (freeSpares s.eng.units 2).find? (unitIdle s), leaseAt s j.desc.aux with
  | some c, some (_, l) => { unit := c, lane := none, delay := cyHook (32 * l.windows.length) }
  | _, _ => { unit := j.unit, lane := none, ahead := true }

def retryOf (s : State) (r : Session) (j : Job) : Retry :=
  if isNib r.alg then nibRetry s r j else if isQuill r.alg then quillRetry s r j else hookRetry s j

/-- The message's context goes with a Quill retry to a quill in service, and the later parts with it (08 R224, R226, R236). -/
def moveContext (j : Job) (unit : Nat) (s : State) : State :=
  match messageOf s j with
  | some (k, m) =>
    if (unitOf s unit).role = .spare then s
    else { s with eng := { s.eng with messages := tput s.eng.messages k { m with quill := unit, configGen := s.eng.configGen.toNat } }
                  jobs := tmap s.jobs (fun _ x => if earlierPart j x then { x with unit := unit } else x) }
  | none => s

/-- Later parts of the message, or later jobs on the lease, start no earlier than the retry ends (08 R236, 09 R244). -/
def holdLater (j : Job) (stop : Nat) (s : State) : State :=
  { s with jobs := tmap s.jobs (fun _ x =>
      if onUnit x && earlierPart j x && !x.begun && decide (x.tStart < stop) then { x with tStart := stop, tEnd := stop + (x.tEnd - x.tStart) } else x) }

/-- The job runs again from its first block on the place found, with fresh masks or blinding and its stored prediction; one that runs ahead
of its queue moves the jobs behind it (01 R20; 05 R132; 07 R215; 09 R257). -/
def startRetry (i : Nat) (j : Job) (r : Session) (p : Retry) (s : State) : State :=
  let e := engineCycles r j ((unitOf s p.unit).role == .inverse) fullRate
  let start := (if p.ahead then engineStop j else candFree s (p.unit, p.lane)) + p.delay
  let behind : List Move := if p.ahead then
      ((unitQueue s p.unit none).filter (fun x => x.1 != i)).map (fun x => { job := x.1, pred := 0, time := e, started := x.2.begun })
    else []
  let s1 := { s with jobs := moveJobs behind s.jobs }
  let e1 := match p.pair with
    | some b => modUnit b (fun u => { u with partner := some p.unit }) (modUnit p.unit (fun u => { u with partner := some b }) s1.eng)
    | none => s1.eng
  let n := if isQuill r.alg then 0 else drawBytes r j.desc
  let s2 := setJob i (fun x => { x with
    unit := p.unit, lane := p.lane, tStart := start, span := e, idle := 0, tEnd := start + e, begun := false, under := none
    draw := freeBytes s n, retried := true, chunks := 0, ckpts := 0 }) (useFree n { s1 with eng := e1 })
  let s3 := if isQuill r.alg then moveContext j p.unit s2 else drawFrom s2 r
  if isNib r.alg then s3 else holdLater j (start + e) s3

/-- A disagreement: an event on the unit, of a pair on its lower nib (DESIGN CHOICE, log 132), its counts, and a retry, or after a retry
COMPUTE_MISMATCH. -/
def disagree (i : Nat) (j : Job) (r : Session) (us : List Nat) (s : State) : State :=
  let inverse := (unitOf s j.unit).role == .inverse
  let e := modUnits us (fun u => { u with
    passedSince := false
    mismatchA := if inverse then u.mismatchA else satAdd 32 u.mismatchA 1
    mismatchB := if inverse then satAdd 32 u.mismatchB 1 else u.mismatchB
    failed := if j.retried then satAdd 32 u.failed 1 else u.failed }) s.eng
  let src := unitSrc j.unit
  let s1 := { s with eng := e }
  if j.retried then failJob i .computeMismatch 0 (raiseEvent src kCompareRepeated i s1)
  else
    let s2 := cancelWrites i (raiseEvent src (if isHook r.alg then kHookRepeat else kTwinCompare) i s1)
    startRetry i j r (retryOf s2 r j) s2

/-- The end of an engine time: the comparison, with an armed injection inverting it (12 R326), then what the job yields, and what starts
after it. -/
def engineEnd (i : Nat) (p : Job → Bool) (agree : Bool) (yield : Nat → Job → Session → State → State) (s : State) : State :=
  match readyEnd s i p with
  | none => s
  | some j => match j.sess with
    | none => s
    | some r =>
      let us := members s.eng.units j.unit
      let ck := checkerOf r
      let hit := us.filter (fun c => (injectedAt s.flt (unitSrc c) ck).isSome)
      let s1 := hit.foldl (fun a c => takeInject (unitSrc c) ck a) s
      let s2 := countEnd i j r us (j.retried || (agree && hit.isEmpty)) s1
      if agree && hit.isEmpty then
        let e := releaseSpare j s2.eng
        startDue (yield i j r { s2 with eng := if j.retried then modUnits us (fun u => { u with cured := satAdd 32 u.cured 1 }) e else e })
      else
        let q := disagree i j r us s2
        startDue { q with eng := releaseSpare j q.eng }

/-! ### Release of results -/

/-- The writes of `data` to the job's output from byte `off` of it. -/
def outReqs (s : State) (r : Session) (j : Job) (off : Nat) (data : Bytes) : List Req :=
  let go := fun (acc : Nat × List Req) (e : Nat × Nat) =>
    (acc.1 + e.2, acc.2 ++ writeReqs (jobSid s j) false (jobRoute j) (.jobOut j.seq) e.1 (slice data acc.1 e.2))
  ((takeSpan (dropSpan (outSpans r j) off) data.length).foldl go (0, [])).2

def metaReqs (s : State) (j : Job) (data : Bytes) : List Req :=
  writeReqs (jobSid s j) false (jobRoute j) (.jobOut j.seq) j.desc.metaAddr data

/-- The job's last writes, with the checkpoint tags that are due; its keys, seeds and draws are zeroed, and with nothing to write and nothing
outstanding it is merged (07 R192, R203; 09 R248). -/
def release (i : Nat) (reqs : List Req) (f : Job → Job) (s : State) : State :=
  mergeWritten i (issueDue i (issue reqs (setJob i (fun x => { wipe (f x) with phase := .writing, writesLeft := x.writesLeft + reqs.length }) s)))

/-! ### Nibs -/

/-- Output bytes that may leave before the end: up to the first checkpoint that differs (07 R204). -/
def openBytes (r : Session) (j : Job) (o : NibOut) : Nat :=
  let want := joinParts j.ckptGot
  match (List.range (ckptCount r j.desc)).find? (fun k => slice o.tags (16 * k) 16 != slice want (16 * k) 16) with
  | some k => if j.desc.op = 2 then (k + 1) * ligatureL r.ligature else o.out.length
  | none => o.out.length

/-- Whether the next 4 KiB of a running job have passed their comparison: every block of them is issued on both nibs, at the earliest in the
cycle that its dummy slots leave it (01 R19; 07 R206, R207, R213); in inverse-check mode a slot takes two cycles (07 R216). -/
def chunkDone (s : State) (r : Session) (j : Job) : Bool :=
  let per := if (unitOf s j.unit).role = .inverse then 2 else 1
  decide (per * issuedBy r j (256 * (j.chunks + 1) - 1) ≤ 7 * (s.clk.now - j.tStart - j.idle) / 6)

/-- OUTPUT_CHUNK_RELEASE: the next 4 KiB chunk of a running cipher job (01 R19), once all its input is here (log 24). -/
def execOutputChunkRelease (job : BitVec 13) (s : State) : Host.Outcome State Fault Refusal :=
  .next (match jobOf s job.toNat with
    | none => s
    | some j => match j.sess with
      | none => s
      | some r =>
        if running s && fromRing j && isNib r.alg && writesOut j.desc && j.phase == .queued && j.counted && j.begun
            && j.readsLeft == 0 && j.status == .ok && chunkDone s r j then
          let o := nibCompute r j
          let off := 4096 * j.chunks
          if off + 4096 ≤ openBytes r j o then
            let reqs := outReqs s r j off (slice o.out off 4096)
            issueDue job.toNat (issue reqs (setJob job.toNat (fun x => { x with
              chunks := x.chunks + 1, result := o.tags, writesLeft := x.writesLeft + reqs.length }) s))
          else s
        else s)

/-- What a Nib job releases at its end (07 R197, R199, R203, R204). -/
def nibYield (i : Nat) (j : Job) (r : Session) (s : State) : State :=
  let o := nibCompute r j
  let off := 4096 * j.chunks
  if o.good = some false then failJob i .tagMismatch 1 s
  else
    release i (outReqs s r j off (o.out.drop off) ++ (if writesMeta j.desc then metaReqs s j o.meta_ else []))
      (fun x => { x with
        result := o.tags, verdict := if o.good = some true then 2 else 0
        bytes := if j.desc.op = 3 then o.meta_.length else if j.desc.op = 4 then 0 else dataLen j.desc }) s

def opIs (op : Nat) (j : Job) : Bool := fromRing j && j.desc.op == op

/-- ENCRYPT. -/
def execEncrypt (job : BitVec 13) (agree : Bool) (s : State) : Host.Outcome State Fault Refusal :=
  .next (engineEnd job.toNat (opIs 1) agree nibYield s)

/-- DECRYPT. -/
def execDecrypt (job : BitVec 13) (agree : Bool) (s : State) : Host.Outcome State Fault Refusal :=
  .next (engineEnd job.toNat (opIs 2) agree nibYield s)

/-- MAC_GEN. -/
def execMacGen (job : BitVec 13) (agree : Bool) (s : State) : Host.Outcome State Fault Refusal :=
  .next (engineEnd job.toNat (opIs 3) agree nibYield s)

/-- MAC_VERIFY. -/
def execMacVerify (job : BitVec 13) (agree : Bool) (s : State) : Host.Outcome State Fault Refusal :=
  .next (engineEnd job.toNat (opIs 4) agree nibYield s)

/-- The contexts of a pair with the running job's saved into entry 9, as it stood 24 NIB cycles before the end of the suspend (07 R210). -/
def saveCtx (r : Session) (j : Job) (stop : Nat) (u : EUnit) : EUnit :=
  match tget u.ctx 0 with
  | some c => { u with ctx := tput (tdel u.ctx 0) 9 (savedCtx r j c (stop - cyNib 24 - j.tStart - j.idle)) }
  | none => u

/-- The suspend of a running BULK job is complete: its context stands in entry 9 of both nibs, and the URGENT job starts (01 R23, 07 R210). -/
def suspendNow (x c t : Nat) (j : Job) (r : Session) (s : State) : State :=
  startDue (setJob x (fun y => { y with phase := .suspended })
    { s with eng := modUnits (members s.eng.units c) (fun u => { saveCtx r j t u with suspends := satAdd 32 u.suspends 1, suspendEnd := none }) s.eng })

/-- URGENT_SUSPEND_COMPLETE. -/
def execUrgentSuspendComplete (nib : Fin 20) (s : State) : Host.Outcome State Fault Refusal :=
  let c := leadOf s.eng.units nib.val
  let u := unitOf s c
  .next (match u.suspended, u.suspendEnd with
    | some x, some t =>
      (match jobOf s x with
       | none => s
       | some j => match j.sess with
         | none => s
         | some r => if running s && j.begun && j.phase == .queued && decide (t ≤ s.clk.now) then suspendNow x c t j r s else s)
    | _, _ => s)

/-! ### Quills -/

/-- A part absorbed into its context; LENGTH_TRUNCATED where IN_LEN exceeds what the blocks take (08 R223, R230). -/
def quillStatus (r : Session) (j : Job) : Status :=
  if qBlocks r j.desc j.aAbs * quillB r.alg < j.desc.inLen then .lengthTruncated else .ok

/-- A final job: padding, then the result to META or the comparison with the expected result (08 R231, R234, R235). -/
def quillEnd (i : Nat) (j : Job) (r : Session) (padded : Bytes) (s : State) : State :=
  match quillFinal r j.keyMat padded (qLength j.desc) with
  | none =>
    failJob i .padMismatch 0 { s with eng := modUnit j.unit (fun u => { u with mismatchB := satAdd 32 u.mismatchB 1 }) s.eng }
  | some res =>
    if j.desc.op = 0x11 ∨ j.desc.op = 0x13 then
      (if res = joinParts j.metaGot then toMerge i (setJob i (fun x => { x with verdict := 2 }) s) else failJob i .tagMismatch 1 s)
    else release i (metaReqs s j res) (fun x => { x with status := quillStatus r j, bytes := quillOut r }) s

/-- What a Quill job yields. -/
def quillYield (i : Nat) (j : Job) (r : Session) (s : State) : State :=
  let input := joinParts j.inGot
  if qOpen j.desc && j.desc.final then quillEnd i j r input s
  else match messageOf s j with
    | none => failJob i .contextLost 0 s
    | some (k, m) =>
      let all := m.absorbed ++ input
      if j.desc.final then
        let q := quillEnd i j r all s
        { q with eng := { q.eng with messages := tdel q.eng.messages k } }
      else
        dropDead (toMerge i (setJob i (fun x => { x with status := quillStatus r j, bytes := 0 })
          { s with eng := { s.eng with messages := tput s.eng.messages k { m with absorbed := all } } }))

/-- DIGEST. -/
def execDigest (job : BitVec 13) (agree : Bool) (s : State) : Host.Outcome State Fault Refusal :=
  .next (engineEnd job.toNat (opIs 0x10) agree quillYield s)

/-- DIGEST_VERIFY. -/
def execDigestVerify (job : BitVec 13) (agree : Bool) (s : State) : Host.Outcome State Fault Refusal :=
  .next (engineEnd job.toNat (opIs 0x11) agree quillYield s)

/-- HMAC_GEN. -/
def execHmacGen (job : BitVec 13) (agree : Bool) (s : State) : Host.Outcome State Fault Refusal :=
  .next (engineEnd job.toNat (opIs 0x12) agree quillYield s)

/-- HMAC_VERIFY. -/
def execHmacVerify (job : BitVec 13) (agree : Bool) (s : State) : Host.Outcome State Fault Refusal :=
  .next (engineEnd job.toNat (opIs 0x13) agree quillYield s)

/-! ### Hooks -/

/-- META of a Hook job: its slot result and the blob of its secret (09 R250, R254). -/
def hookMetaBytes (j : Job) (r : Session) (slot : Bytes) (secret : Option Bytes) : Bytes :=
  (if r.alg = 0x30 ∧ !hStore j.desc then [] else slot)
  ++ (match secret with
      | some x => blobOf 7 (r.sflags % 65536) j.port 0 x
      | none => [])

/-- A failed Hook operation is counted on its hook (09 Table 9-11). -/
def countHookFail (st : Status) (u : EUnit) : EUnit :=
  { u with mismatchB := if st = .pointInvalid ∨ st = .operandRange then satAdd 32 u.mismatchB 1 else u.mismatchB
           exhausted := if st = .sampleExhausted then satAdd 32 u.exhausted 1 else u.exhausted }

/-- What a Hook job yields: SLOT_D, META, a verdict, or a failure that leaves SLOT_D as it was (09 R261). -/
def hookYield (i : Nat) (j : Job) (r : Session) (s : State) : State :=
  match leaseAt s j.desc.aux with
  | none => s
  | some (ix, l) =>
    match hookCompute r j l.data with
    | .failed st => failJob i st 0 { s with eng := modUnit j.unit (countHookFail st) s.eng }
    | .verified good => if good then toMerge i (setJob i (fun x => { x with verdict := 2 }) s) else failJob i .tagMismatch 1 s
    | .ok slot secret =>
      let m := hookMetaBytes j r slot secret
      let l' : Lease := { l with data := Memory.writeBytes l.data (512 * hD j.desc) slot }
      release i (metaReqs s j m) (fun x => { x with bytes := m.length }) { s with eng := { s.eng with leases := tput s.eng.leases ix l' } }

/-- HOOK_OP. -/
def execHookOp (job : BitVec 13) (agree : Bool) (s : State) : Host.Outcome State Fault Refusal :=
  .next (engineEnd job.toNat (opIs 0x20) agree hookYield s)

/-! ### FEED_6 -/

/-- RANDOM: OUT_LEN bytes of FEED_6 (10 R281). -/
def execRandom (job : BitVec 13) (s : State) : Host.Outcome State Fault Refusal :=
  .next (match readyEnd s job.toNat (opIs 0x30) with
    | none => s
    | some j => match j.sess with
      | none => s
      | some r => startDue (release job.toNat (outReqs s r j 0 j.draw) (fun x => { x with bytes := j.desc.outLen }) s))

end Sys2Proof.Machine
end

