-- ==== Sys2Proof/Machine/Rows.lean ====
section
/-! DEFINITION. SRAM rows: copies to spare rows, remaps, and the counts that make the Darning unit repair a row by itself (13 R342
to R346, R348). -/
namespace Sys2Proof.Machine

/-- The private array of a unit (13 Table 13-4). -/
def privateArray (c : Nat) : Nat := if c < 0x100 then 136 + c else if c < 0x200 then 156 + (c - 0x100) else 170 + (c - 0x200)

/-- A repair takes effect: counted, posted, and queued for its record (13 R344, R345). -/
def rowRepaired (a row : Nat) (s : State) : State :=
  let d := { s.darn with
    arrays := tmodD s.darn.arrays a {} (fun x => { x with runtime := x.runtime ++ [row] })
    repairs := wrapInc 32 s.darn.repairs, unrecorded := s.darn.unrecorded + 1 }
  let s1 := raiseEvent 0x0D6 kRowRepaired (a + 2 ^ 32 * row) (nvmQueue { work := .repairRecord a row } { s with darn := d })
  if sparesLeft s1 a ≤ s.darn.alertRows then raiseEvent 0x0D6 kSparesLow (2 ^ 43 + a) s1 else s1

/-- A row number that the spec does not give: a free value below the rows of the array. -/
def freeRow (a : Nat) (s : State) : Nat := leNat (freeBytes s 2) % max 1 (Config.arrayRows a)

/-- The fault source of an array: an array private to a unit reports on the unit's source (13 R342). -/
def arraySrc (a : Nat) : Nat :=
  if 136 ≤ a ∧ a < 156 then a - 136 else if 156 ≤ a ∧ a < 170 then 0x020 + (a - 156) else if 170 ≤ a ∧ a < 179 then 0x030 + (a - 170)
  else 0x600 + a

/-- The array behind a fault source. -/
def srcArray (n : Nat) : Option Nat :=
  if n < 0x014 then some (136 + n) else if 0x020 ≤ n ∧ n < 0x02E then some (156 + (n - 0x020))
  else if 0x030 ≤ n ∧ n < 0x039 then some (170 + (n - 0x030)) else if 0x600 ≤ n ∧ n < 0x6B5 then some (n - 0x600) else none

/-- The 65,536 cycles of a row copy, of the array's clock (13 R344), in SKEIN cycles. -/
def copyCycles (a : Nat) : Nat :=
  if a < 4 then cyCtrl 65536 else if 136 ≤ a ∧ a < 156 then cyNib 65536 else if 156 ≤ a ∧ a < 170 then cyQuill 65536
  else if 170 ≤ a ∧ a < 179 then cyHook 65536 else 65536

/-- A row copy, after those that run in the array (13 R344, Table 13-5). -/
def startCopy (a row : Nat) (cid esc : Option Nat) (s : State) : State :=
  { s with darn := { s.darn with arrays := tmodD s.darn.arrays a {} (fun x =>
      let from_ := x.copies.foldl (fun t c => max t c.until_) s.clk.now
      { x with copies := x.copies ++ [{ row := row, until_ := from_ + copyCycles a, cid := cid, esc := esc }] }) } }

/-- Whether a row is repaired, or being repaired. -/
def rowDone (s : State) (a row : Nat) : Bool := (arrayOf s a).runtime.contains row
def rowCopying (s : State) (a row : Nat) : Bool := (arrayOf s a).copies.any (fun c => c.row == row)

/-- A repair that the Darning unit starts by itself, as far as a spare row remains (13 R344). -/
def autoRepair (a row : Nat) (s : State) : State :=
  if rowDone s a row || rowCopying s a row || sparesLeft s a == 0 then s else startCopy a row none none s

/-- A corrected event of a row; the fourth since the last start repairs it. -/
def countCorrected (a row : Nat) (s : State) : State :=
  let n := tgetD (arrayOf s a).corrected row 0 + 1
  let s1 := { s with darn := { s.darn with arrays := tmodD s.darn.arrays a {} (fun x => { x with corrected := tput x.corrected row n }) } }
  if 4 ≤ n then autoRepair a row s1 else s1

/-- A parity failure of a row; the second repairs it. -/
def countParity (a row : Nat) (s : State) : State :=
  let n := tgetD (arrayOf s a).parity row 0 + 1
  let s1 := { s with darn := { s.darn with arrays := tmodD s.darn.arrays a {} (fun x => { x with parity := tput x.parity row n }) } }
  if 2 ≤ n then autoRepair a row s1 else s1

end Sys2Proof.Machine
end

