-- ==== Sys2Proof/Machine/Needle.lean ====
section
/-! DEFINITION. Needle's rows: the jobs of stream frames, NEEDLE_ADMISSION, HELD_JOB_RELEASE and WINDOW_OPENING (05 R126, R134,
R135, R141; 06 R169, R182; 11 R286, R288, R291). -/
namespace Sys2Proof.Machine

/-! ### The job of a stream frame -/

/-- Bytes of a VERIFY frame's trailer (11 R286). -/
def trailerLen (r : Session) : Nat := (if r.mode = 5 then 12 else 0) + tagLen r

/-- Message bytes of a frame. -/
def messageLen (c : Chan) (r : Session) (len : Nat) : Nat := if c.dirTag then len else len - trailerLen r

/-- The job that a frame becomes: MAC_VERIFY or MAC_GEN over its message, STM_LEN in OUT_LEN, the frame number as COOKIE
(11 R286 to R288). -/
def frameDesc (c : Chan) (r : Session) (x : Frame) : Desc :=
  let m := messageLen c r x.len
  { gen := 2, op := if c.dirTag then 3 else 4, dflags := 2, aux := 0, handle := c.session, inAddr := 0, outAddr := 0, metaAddr := 0
    inLen := m, aadLen := if r.mode = 5 then m else 0, outLen := x.len, metaLen := 0, param := 0, deadline := 0
    cookie := x.number % 2 ^ 32, ckptAddr := 0, ckptLen := 0, inSgl := 0, outSgl := 0, xflags := 0, resZero := true }

def modFrame (n f : Nat) (g : Frame → Frame) (s : State) : State :=
  { s with chans := tmod s.chans n (fun c => { c with frames := c.frames.map (fun x => if x.number = f then g x else x) }) }

/-- A frame's job put into the job table with a record reserved, if there is room; a frame without a message is refused, one
already truncated fails (11 R286, R290; log 26). -/
def openFrame (n : Nat) (x : Frame) (s : State) : State :=
  let c := tgetD s.chans n {}
  let r := (sessionOf s c.owner c.session).getD noSession
  match tfree s.jobs 0 8192, tget s.rings c.cpl with
  | some i, some cr =>
    if jobsFree s = 0 ∨ cplFree cr = 0 then s
    else
      let j : Job := { src := .stream n x.number, desc := frameDesc c r x, port := c.owner, seq := s.jobSeq, urgent := true
                       tDb := s.clk.now, phase := .checked, cpl := c.cpl }
      let s1 := modFrame n x.number (fun y => { y with job := some s.jobSeq })
        { s with jobs := tput s.jobs i j, jobSeq := s.jobSeq + 1
                 rings := tmod s.rings c.cpl (fun q => { q with reserved := q.reserved + 1 }) }
      match x.ended with
      | some st => failJob i st 0 s1
      | none => if j.desc.inLen = 0 then refuseJob i .invalidField s1 else s1
  | _, _ => s

/-- The frames of a channel that have no job yet, in order, up to the first that finds no room. -/
def openFrames (n : Nat) (l : List Frame) (s : State) : State :=
  match l with
  | [] => s
  | x :: r =>
    if x.job.isSome || x.done then openFrames n r s
    else
      let s1 := openFrame n x s
      if s1.jobSeq = s.jobSeq then s else openFrames n r s1

def openAllFrames (s : State) : State := s.chans.foldl (fun a e => openFrames e.1 e.2.frames a) s

/-- The key slot of a job that reaches the key check is used (04 R114 step 5, 06 R168). -/
def useJobKey (i : Nat) (s : State) : State :=
  match jobOf s i with
  | none => s
  | some j => match sessionOf s j.port j.desc.handle with
    | some r => if r.key ≠ 0 ∧ descStatus s j = .ok then slotUsed j.port r.key s else s
    | none => s

/-- A deferred stream frame evaluated at an opening (05 R141). -/
def evalStream (i : Nat) (s : State) : State :=
  match jobOf s i with
  | some j => if streamTurn s j && evaluable s (i, j) then (admitJob i s.clk.now false (useJobKey i s)).1 else s
  | none => s

/-! ### Admission -/

/-- The records that jobs need and that are not at hand: sessions outside the cache and spilled key slots are read, and a ceiling that a
job's counter value reaches is raised (06 R169, R181, R182). -/
def fetchNeeded (j : Job) (s : State) : State :=
  if j.phase = .checked ∨ (j.phase = .held ∧ j.tTok ≤ s.clk.now) then
    let s1 := if recordHere s j then s else fetchSession (sessIndex j.desc.handle) s
    match sessionOf s1 j.port j.desc.handle with
    | none => s1
    | some r =>
      let s2 := if r.key ≠ 0 ∧ (keyOf s1 r.key).spilled then fetchSpill (handleSlot r.key) s1 else s1
      if r.cached ∧ beyondCeiling s2 r j then raiseCeiling (sessIndex j.desc.handle) s2 else s2
  else s

/-- Lookups before the evaluations of a cycle. -/
def fetchAll (s : State) : State := s.jobs.foldl (fun a e => fetchNeeded e.2 a) (openAllFrames s)

/-- The key slots of the jobs evaluated next are used. -/
def useNextKey (s : State) : State :=
  match if s.fw.pauseAt.isSome then none else nextFetched s with
  | none => s
  | some e => match e.2.chainHead with
    | some h => (chainLinks s h).foldl (fun a x => useJobKey x.1 a) s
    | none => useJobKey e.1 s

/-- NEEDLE_ADMISSION: up to 2 evaluations (05 R126). -/
def execNeedleAdmission (s : State) : Host.Outcome State Fault Refusal :=
  .next (if running s then startDue (needleOne (useNextKey (needleOne (useNextKey (fetchAll s))))) else s)

/-- The second placement of a held job whose evaluation need not wait, with its tokens debited and its message taken at the first (05
R135). -/
def placeHeld (i : Nat) (r : Session) (j : Job) (s : State) : State :=
  let st := drawCheck s r j
  if st ≠ .ok then refuseJob i st (markExhausted j st s)
  else if noUnit s r j then refuseJob i .unitFault s
  else match place s r j (linkStart s j) with
    | none => s
    | some p => match fits s r j (predict s r j p).2 with
      | .ok b => commitJob i r p j.waitPrev (setJob i (fun x => { x with bound := b }) s)
      | .miss x => refuseJob i x s
      | .defer => s

/-- A held job at its t_tok: the rules in force then apply to it as to any job not yet admitted (05 R135; 03 R88; log 27). -/
def releaseHeld (i : Nat) (j : Job) (s : State) : State :=
  let d := descStatus s j
  if d ≠ .ok then refuseJob i d s
  else match sessionOf s j.port j.desc.handle with
  | none => refuseJob i .sessionClosed s
  | some r => if mustWait s r j then fetchNeeded j s else placeHeld i r j s

/-- HELD_JOB_RELEASE: the earliest held job whose t_tok has come, behind no held job of its port fetched ahead of it (05 R126). -/
def execHeldJobRelease (s : State) : Host.Outcome State Fault Refusal :=
  .next (if running s && s.fw.pauseAt.isNone then
      (match leastBy (fun e => e.2.seq) (s.jobs.filter (fun e =>
          e.2.phase == .held && decide (e.2.tTok ≤ s.clk.now) && (heldAhead s e.2).isEmpty)) with
       | none => s
       | some (i, j) => startDue (releaseHeld i j s))
    else s)

/-- Whether a window is open now (05 R140). -/
def windowOpen (w : Window) (g : Nat) : Bool :=
  let base := w.phaseS * 1000000000 + w.openNs
  w.lenNs != 0 && decide (base ≤ g) && decide ((g - base) % w.cycleNs < w.lenNs)

/-- The deferred head frame of a channel. -/
def deferredJob (s : State) (n : Nat) : Option (Nat × Job) :=
  leastBy (fun e => e.2.seq) (s.jobs.filter (fun e => e.2.phase == .deferred && (match e.2.src with
    | .stream m _ => m == n
    | _ => false)))

/-- WINDOW_OPENING: the deferred head frame is evaluated with the window now open assigned (05 R141). -/
def execWindowOpening (channel : Fin 64) (s : State) : Host.Outcome State Fault Refusal :=
  .next (if running s && s.fw.pauseAt.isNone then
      (match deferredJob s channel.val with
       | none => s
       | some (i, j) => match windowed s j with
         | some w => if windowOpen w.1 (gNs s) then startDue (evalStream i (setJob i (fun x => { x with phase := .checked }) s)) else s
         | none => s)
    else s)

end Sys2Proof.Machine
end

