-- ==== Sys2Proof/Machine/Streams.lean ====
section
/-! DEFINITION. Stream channels: words, frame ends, and the STREAM commands (02 R45, R46; 05 R140; 11 R284 to R299). -/
namespace Sys2Proof.Machine

def chanOf (s : State) (n : Nat) : Chan := tgetD s.chans n {}

def modChan (n : Nat) (f : Chan → Chan) (s : State) : State := { s with chans := tmod s.chans n f }

/-- The fault source of a channel (12 Table 12-3). -/
def chanSrc (n : Nat) : Nat := 0x100 + n

/-! ### Frames that end badly -/

/-- The job of a frame, by its index. -/
def frameJob (s : State) (x : Frame) : Option (Nat × Job) := x.job.bind (jobBySeq s)

/-- Whether the block still works for the frame: its words are taken in. -/
def frameAlive (s : State) (x : Frame) : Bool :=
  !x.discard && !x.done && (match x.job with
    | none => true
    | some _ => match frameJob s x with
      | some (_, j) => j.phase == .checked || j.phase == .deferred || j.phase == .held || j.phase == .queued
      | none => false)

/-- A frame given up with a status: its words are discarded, and its job stops (11 R290, R296, R297, R298). -/
def dropFrame (n : Nat) (x : Frame) (st : Status) (drops : Bool) (s : State) : State :=
  let s1 := modFrame n x.number (fun y => { y with discard := true, words := 0, drops := y.drops || drops, ended := some st }) s
  match frameJob s1 x with
  | some (i, _) => failJob i st 0 s1
  | none => s1

/-- TRUNCATED_FRAME, counted (11 R290, 02 R45). -/
def truncFrame (n : Nat) (x : Frame) (s : State) : State :=
  dropFrame n x .truncatedFrame false (modChan n (fun c => { c with trunc := satAdd 16 c.trunc 1 }) s)

/-- The frame still open on a channel. -/
def openFrameOf (c : Chan) : Option Frame := c.frames.find? (fun x => !x.eof)

/-- The end of a frame seen; one whose record is acknowledged already leaves the channel. -/
def closeFrame (n f : Nat) (s : State) : State :=
  modChan n (fun c => { c with
    frames := (c.frames.map (fun x => if x.number = f then { x with eof := true } else x)).filter (fun x => !(x.done && x.eof)) }) s

/-! ### STREAM_WORD -/

/-- Words of a discarded frame that STR_DISCARD.DROPPED counts (11 Table 11-3). -/
def dropCounts (s : State) (x : Frame) : Bool :=
  x.drops || (match frameJob s x with
    | some (_, j) => j.status == .windowShort
    | none => false)

def countDropped (n k : Nat) (s : State) : State := modChan n (fun c => { c with dropped := satAdd 32 c.dropped k }) s

/-- One word of an open frame (11 R290, R293, R297): words past STM_LEN are discarded, a full FIFO discards the frame, and a word that a nib has waited for
costs idle cycles (01 R25). -/
def takeWord (n : Nat) (x : Frame) (b : StreamBeat) (s : State) : State :=
  let held := chanWords s (chanOf s n)
  let k := if b.eof && b.validBytes != 0 then b.validBytes.toNat else 32
  if !frameAlive s x then (if dropCounts s x then countDropped n 1 s else s)
  else if x.len ≤ x.got.length then modFrame n x.number (fun y => { y with long := true }) s
  else if 2048 ≤ held then
    let s1 := modChan n (fun c => { c with overflow := satAdd 16 c.overflow 1, dropped := satAdd 32 c.dropped (1 + frameWords s x) }) s
    raiseEvent (chanSrc n) kStreamOverflow x.number (dropFrame n x .streamOverflow true s1)
  else
    let s1 := modFrame n x.number (fun y => { y with words := y.words + 1, got := y.got ++ b.data.take k }) s
    match frameJob s x with
    | some (i, j) => stallJob i (neededAt j x.got.length x.len) s1
    | none => s1

/-- The last word of a frame (02 R45, 11 R290). -/
def endOfFrame (n f : Nat) (trunc : Bool) (s : State) : State :=
  let s1 := match (chanOf s n).frames.find? (fun x => x.number == f) with
    | some x => if frameAlive s x && (trunc || x.long || x.got.length != x.len) then truncFrame n x s else s
    | none => s
  closeFrame n f s1

/-- A frame begins: it takes the next number and the channel's windows, and its job is made for Needle from STM_LEN (11 R288, R291; 05
R126, R140). -/
def beginFrame (n len : Nat) (s : State) : State :=
  let c := chanOf s n
  let x : Frame := { number := c.count, len := len, win := c.win }
  let s1 := modChan n (fun y => { y with frames := y.frames ++ [x], count := y.count + 1 }) s
  openFrames n (chanOf s1 n).frames s1

/-- A word on a channel (02 R45, R46). -/
def streamBeat (b : StreamBeat) (s : State) : State :=
  let n := b.channel.val
  let c := chanOf s n
  if !c.isOpen || c.closing || !(tgetD s.ports c.owner {}).isOpen then modChan n (fun y => { y with disabled := satAdd 32 y.disabled 1 }) s
  else
    let s1 := if b.sof then
        beginFrame n b.len.toNat (match openFrameOf c with
          | some x => closeFrame n x.number (if frameAlive s x then truncFrame n x s else s)
          | none => s)
      else s
    match openFrameOf (chanOf s1 n) with
    | none => s1
    | some x =>
      let s2 := takeWord n x b s1
      if b.eof then endOfFrame n x.number b.trunc s2 else s2

/-- STREAM_WORD. -/
def execStreamWord (beat : StreamBeat) (s : State) : Host.Outcome State Fault Refusal :=
  if beat.data.length ≠ 32 then .fault .malformed
  else .next (if s.pins.powered && !s.pins.coreInReset then startDue (refreshXoff (streamBeat beat s)) else s)

/-! ### Frame ends (11 R286, R287, R296) -/

/-- The frame of a stream job. -/
def frameOf (s : State) (j : Job) : Option (Nat × Frame) :=
  match j.src with
  | .stream n f => ((chanOf s n).frames.find? (fun x => x.number == f)).map (fun x => (n, x))
  | _ => none

/-- Whether the job is one of a frame that has arrived whole. -/
def frameReady (s : State) (op : Nat) (j : Job) : Bool :=
  j.desc.op == op && (match frameOf s j with
    | some (_, x) => x.eof && !x.discard && x.got.length == x.len
    | none => false)

/-- The tag of a VERIFY frame checked against its trailer (11 R286). -/
def frameGood (r : Session) (j : Job) (b : Bytes) : Bool :=
  let m := spanZero r (b.take j.desc.inLen)
  let t := b.drop j.desc.inLen
  if r.mode = 5 then macTag r j.keyMat (t.take 12) m == slice t 12 (tagLen r) else macTag r j.keyMat [] m == t.take (tagLen r)

/-- What a frame's job yields: a verdict, or its tag-area entry (11 R286, R287). -/
def frameYield (i : Nat) (j : Job) (r : Session) (s : State) : State :=
  match frameOf s j with
  | none => s
  | some (n, x) =>
    if j.desc.op = 4 then
      (if frameGood r j x.got then toMerge i (setJob i (fun y => { y with verdict := 2 }) s) else failJob i .tagMismatch 1 s)
    else
      let m := macMeta r j (spanZero r x.got)
      let c := chanOf s n
      release i (writeReqs (jobSid s j) false (jobRoute j) (.jobOut j.seq) (c.tagBase + 32 * (x.number % 2 ^ c.tagLog2)) (padTo 32 m))
        (fun y => { y with bytes := m.length }) s

/-- A word of the frame fails its parity: the frame completes with POISONED (11 R296); which word of the FIFO it was is a free
value, and a row holds 64 words (13 R344). -/
def poisonFrame (i n : Nat) (x : Frame) (s : State) : State :=
  let s1 := modChan n (fun c => { c with poison := satAdd 16 c.poison 1 }) s
  let s2 := modFrame n x.number (fun y => { y with discard := true, words := 0, drops := true }) s1
  let word := leNat (freeBytes s 2) % 2048
  countParity (36 + n) (word / 64) (failJob i .poisoned 0 (raiseEvent (chanSrc n) kParity word (useFree 2 s2)))

/-- The end of a frame's engine time, with the parity of its words, an armed injection included (12 R326). -/
def frameEnd (i op : Nat) (agree parityOk : Bool) (s : State) : State :=
  match readyEnd s i (frameReady s op) with
  | none => s
  | some j => match frameOf s j with
    | none => s
    | some (n, x) =>
      let hit := (injectedAt s.flt (chanSrc n) 1).isSome
      let s1 := if hit then takeInject (chanSrc n) 1 s else s
      startDue (refreshXoff (if parityOk && !hit then engineEnd i (frameReady s1 op) agree frameYield s1 else poisonFrame i n x s1))

/-- STREAM_FRAME_VERIFY. -/
def execStreamFrameVerify (job : BitVec 13) (agree parityOk : Bool) (s : State) : Host.Outcome State Fault Refusal :=
  .next (frameEnd job.toNat 4 agree parityOk s)

/-- STREAM_FRAME_TAG. -/
def execStreamFrameTag (job : BitVec 13) (agree parityOk : Bool) (s : State) : Host.Outcome State Fault Refusal :=
  .next (frameEnd job.toNat 3 agree parityOk s)

/-! ### Commands -/

/-- The checks of STREAM_OPEN (11 R285) after those of the parameters' ranges, LWM < HWM ≤ 65,536 among them (03 Table 3-9, R463): DETAIL of
the lowest field in error, or 0xFFFFFFFF for TAG_LOG2. -/
def streamOpenFault (s : State) (e : CmdEntry) (c : Chan) : Option (Status × Nat) :=
  let p := tgetD s.ports e.port {}
  let hwm := par e 8 4
  let lwm := par e 12 4
  let bad : Bool := match sessionOf s e.port (par e 4 4) with
    | none => true
    | some r => !(r.alg == 0x10 && (r.mode == 5 || r.mode == 7)) || (c.dirTag && r.mode == 5 && r.policy == 2)
  let ring : Bool := match tget s.rings (par e 16 4) with
    | some r => r.isCpl && r.port == e.port && !r.draining
    | none => false
  if c.isOpen || bad || !ring || (c.dirTag && !inWindow p c.tagBase (32 * 2 ^ c.tagLog2)) then some (.notPermitted, 0)
  else if hwm % 32 ≠ 0 then some (.invalidField, 24)
  else if lwm % 32 ≠ 0 then some (.invalidField, 28)
  else if c.tagLog2 < 4 ∨ 16 < c.tagLog2 then some (.invalidField, 2 ^ 32 - 1)
  else none

/-- STREAM_OPEN. -/
def execStreamOpen (s : State) : Host.Outcome State Fault Refusal :=
  .next (onCommand 0x0400 (fun e s =>
    let n := par e 0 1
    match streamOpenFault s e (chanOf s n) with
    | some f => refuseAt e f.1 f.2 s
    | none => answer e .ok [] (logCommit e (refreshXoff (modChan n (fun c => { c with
        isOpen := true, owner := e.port, session := par e 4 4, reject := decide (par e 1 1 = 1), hwm := par e 8 4, lwm := par e 12 4
        cpl := par e 16 4, gen := c.gen + 1, count := 0, frames := [], closing := false, win := {} }) s)))) s)

/-- Whether a channel is open and belongs to the command's port. -/
def ownChan (s : State) (e : CmdEntry) : Bool := let c := chanOf s (par e 0 1); c.isOpen && !c.closing && c.owner == e.port

/-- The jobs of a channel that are not admitted, refused when it closes (11 R299). -/
def refuseWaiting (n : Nat) (s : State) : State :=
  s.jobs.foldl (fun a e => match e.2.src with
    | .stream m _ => if m = n ∧ (e.2.phase = .checked ∨ e.2.phase = .deferred ∨ e.2.phase = .held) then refuseJob e.1 .notPermitted a else a
    | _ => a) s

/-- Frames that have no job yet, and those that a closing channel has only in part: their other words are discarded, so an admitted one completes with NOT_PERMITTED as those
that wait do (11 R299; DEDUCED, log 141); a REVOKE stops it instead (03 R89). -/
def refusePartial (revoke : Bool) (n : Nat) (s : State) : State :=
  ((chanOf s n).frames.filter (fun x => frameAlive s x && (x.job.isNone || (!revoke && !x.eof)))).foldl
    (fun a x => dropFrame n x .notPermitted false a) s

/-- STREAM_CLOSE (11 R299). -/
def execStreamClose (s : State) : Host.Outcome State Fault Refusal :=
  .next (onCommand 0x0401 (fun e s =>
    let n := par e 0 1
    if !ownChan s e then refuseAt e .notPermitted 0 s
    else
      let s1 := refuseWaiting n (modChan n (fun c => { c with closing := true, xoff := true, gen := c.gen + 1 }) s)
      fence e (.channel n) [] (refusePartial (isRevoke e) n s1)) s)

/-- The channel's current frame: the oldest with words in the FIFO or words yet to arrive (11 R298). -/
def currentFrame (s : State) (c : Chan) : Option Frame := c.frames.find? (fun x => !x.eof || decide (0 < frameWords s x))

/-- STREAM_DROP_REST (11 R298). -/
def execStreamDropRest (s : State) : Host.Outcome State Fault Refusal :=
  .next (onCommand 0x0402 (fun e s =>
    let n := par e 0 1
    if !ownChan s e then refuseAt e .notPermitted 0 s
    else match currentFrame s (chanOf s n) with
    | none => answer e .ok (leBytes 4 0) (logCommit e s)
    | some x =>
      let k := frameWords s x
      let s1 := countDropped n k s
      let s2 := if frameAlive s x then
          dropFrame n x .truncatedFrame true (modChan n (fun c => { c with trunc := satAdd 16 c.trunc 1 }) s1)
        else modFrame n x.number (fun y => { y with drops := true }) s1
      answer e .ok (leBytes 4 (32 * k)) (logCommit e (refreshXoff s2))) s)

/-- STREAM_SET_WINDOW: the windows of the frames from the next STM_SOF on (05 R140). -/
def execStreamSetWindow (s : State) : Host.Outcome State Fault Refusal :=
  .next (onCommand 0x0403 (fun e s =>
    let cyc := par e 4 4
    let opn := par e 8 4
    let len := par e 12 4
    if !ownChan s e then refuseAt e .notPermitted 0 s
    else if cyc < 10000 ∨ 1000000000 < cyc then refuseAt e .invalidField 20 s
    else if cyc < opn + len then refuseAt e .invalidField 24 s
    else
      let w : Window := { cycleNs := cyc, openNs := opn, lenNs := len, phaseS := par e 16 8 }
      answer e .ok [] (logCommit e (modChan (par e 0 1) (fun c => { c with win := w }) s))) s)

end Sys2Proof.Machine
end

