-- ==== Sys2Proof/Machine/Clock.lean ====
section
/-! DEFINITION. The time and epoch commands (11 R301, R303, R308; 05 R147, R149). -/
namespace Sys2Proof.Machine

/-- TIME_QUERY (03 Table 3-9; 11 R303, R308). -/
def timePayload (s : State) : Bytes :=
  let t := captureTime s.tim
  leBytes 8 t.capSec ++ leBytes 4 t.capNs ++ leBytes 2 (b2n t.holdover + 2 * b2n t.backstep + 4 * b2n t.slewing)
  ++ leBytes 1 (t.rank % 4) ++ [0] ++ leBytes 8 (uncertainty s.clk.now t) ++ leBytes 8 t.capEpoch

/-- TIME_QUERY. -/
def execTimeQuery (s : State) : Host.Outcome State Fault Refusal :=
  .next (onCommand 0x0404 (fun e s => answer e .ok (timePayload s) s) s)

/-- TIME_SET_POLICY (11 R301). -/
def execTimeSetPolicy (s : State) : Host.Outcome State Fault Refusal :=
  .next (onCommand 0x0405 (fun e s =>
    answer e .ok [] (logCommit e { s with tim := { s.tim with minRank := par e 0 1, slewPpm := par e 4 4 } })) s)

/-- The range checks of EPOCH_SCHEDULE (05 R147), with the offset of the lowest field in error. -/
def scheduleFault (kind len base log2 : Nat) : Option Nat :=
  let lo := if kind = 0 then 1000 else 3600000
  if len < lo ∨ 2592000000 < len then some 24
  else if (if kind = 0 then base % 64 else base) ≠ 0 then some 32
  else if (if kind = 0 then decide (log2 < 10) || decide (20 < log2) else log2 != 0) then some 40
  else none

/-- The first epoch of a kind, started at the commit (05 R147, R149). -/
def startEpoch (len number now : Nat) (e : Epoch) : Epoch :=
  { e with running := true, chosen := none, number := number, start := now, endNs := now + len * 1000000, lenMs := len }

/-- The schedule set: an epoch that runs keeps its end (05 R147, R148). -/
def setSchedule (kind len base log2 number : Nat) (s : State) : State :=
  if kind = 0 then
    if s.ep.acct.running then
      { s with ep := { s.ep with acct := { s.ep.acct with lenMs := len }, newLedger := some (base, log2) } }
    else
      let a := startEpoch len number (eNs s) s.ep.acct
      { s with ep := { s.ep with
        acct := a, cur := openBank s a.number a.start, ledgerBase := base, ledgerLog2 := log2, head := 0, tail := 0, issued := 0, phase := true } }
  else if s.ep.key.running then { s with ep := { s.ep with key := { s.ep.key with lenMs := len } } }
  else
    let a := startEpoch len number (eNs s) s.ep.key
    { s with ep := { s.ep with key := a } }

/-- EPOCH_SCHEDULE: before a first epoch starts the ceiling is raised above its number; the command goes on once the counter
is committed, with the number chosen before the raise (05 R149). -/
def execEpochSchedule (s : State) : Host.Outcome State Fault Refusal :=
  .next (onCommand 0x0406 (fun e s =>
    let kind := par e 0 1
    let id := if kind = 0 then cntAcct else cntKey
    let run := if kind = 0 then s.ep.acct.running else s.ep.key.running
    match scheduleFault kind (par e 8 8) (par e 16 8) (par e 24 1) with
    | some o => refuseAt e .invalidField o s
    | none =>
      let k := max (counterOf s.nvm id) 1
      if run ∨ e.phase = 2 then
        answer e .ok [] (logCommit e (setSchedule kind (par e 8 8) (par e 16 8) (par e 24 1) (e.work.headD k) s))
      else
        setEntry e.cid (fun x => { x with phase := 2, work := [k], committed := true })
          (nvmQueue { work := .counterProgram id (k + 65536), cid := some e.cid } s)) s)

end Sys2Proof.Machine
end

