-- ==== Sys2Proof/Machine/Rng.lean ====
section
/-! DEFINITION. Inkwell and Feed: cells, health tests, conditioner, pool, instances, RNG_DATA and the RNG commands (10 R266 to
R282). -/
namespace Sys2Proof.Machine

/-- P0 and P1 time, with the INK clock: cells run and timers count (10 R268, R276, R279). -/
def inkOn (s : State) : Bool := awake s && !s.rng.inkLost

/-- Test lengths: 10.24 µs and 2,621.44 µs (R267). -/
def startupLen : Nat := 15360
def retestLen : Nat := 3932160

def cellSrc (c : Nat) : Nat := 0x040 + c
def cellOf (s : State) (c : Nat) : Cell := tgetD s.rng.cells c {}
def modCell (c : Nat) (f : Cell → Cell) (s : State) : State := { s with rng := { s.rng with cells := tmod s.rng.cells c f } }

/-! ### Cells (R266 to R268) -/

/-- A cell under its startup test, or under a retest. -/
def beginStartup (now : Nat) (c : Cell) : Cell := { c with state := .underTest, startup := true, testEnd := now + startupLen, testFailed := false }
def beginRetest (now : Nat) (c : Cell) : Cell := { c with state := .underTest, startup := false, testEnd := now + retestLen, testFailed := false }

/-- Cells ONLINE or on their way there. -/
def cellsComing (r : Rng) : Nat := tcount r.cells (fun _ c => c.state == .online || (c.state == .underTest && c.startup))

/-- While fewer than 4 cells are ONLINE or coming, the lowest-numbered SPARE cells run their startup tests (R268). -/
def bringIn (fuel now : Nat) (r : Rng) : Rng :=
  match fuel with
  | 0 => r
  | f + 1 =>
    if 4 ≤ cellsComing r then r
    else match tfind r.cells (fun _ c => c.state == .spare) with
      | none => r
      | some (i, _) => bringIn f now { r with cells := tmod r.cells i (beginStartup now) }

def fillCells (s : State) : State := if inkOn s then { s with rng := bringIn 4 s.clk.now s.rng } else s

/-- A cell leaves ONLINE for a retest, and a spare comes in (R267, R268). -/
def leaveOnline (c : Nat) (s : State) : State := fillCells (modCell c (beginRetest s.clk.now) s)

/-- Injected window failures that are used up (R270). -/
def takeWindows (src n : Nat) (s : State) : State :=
  { s with flt := { s.flt with sources := tmod s.flt.sources src (fun r => { r with
      inject := (r.inject.map (fun i => if i.checker == 4 then { i with left := i.left - n } else i)).filter (fun i => decide (0 < i.left)) }) } }

/-- An adaptive-proportion failure of a cell, counted and reported (R269). -/
def aptFail (c : Nat) (s : State) : State :=
  raiseEvent (cellSrc c) kHealthApt ((cellOf s c).rawBits + 1024) { s with rng := { s.rng with apt := satAdd 32 s.rng.apt 1 } }

/-- Whether an injected failure meets the first window of a cell's test, of 2.56 µs (R270). -/
def testHit (s : State) (c : Nat) : Bool :=
  let x := cellOf s c
  (injectedAt s.flt (cellSrc c) 4).isSome
    && decide (x.testEnd + 3840 ≤ s.clk.now + (if x.startup then startupLen else retestLen))

/-- Whether a running test of a cell has come to its end: its bits are tested, or a window has failed (log 29). -/
def testOver (s : State) (c : Nat) (startup : Bool) : Bool :=
  let x := cellOf s c
  inkOn s && x.state == .underTest && x.startup == startup && (decide (x.testEnd ≤ s.clk.now) || x.testFailed || testHit s c)

/-- The result of a test; an injection makes one window fail, and with it the test (R270; log 29). -/
def testResult (c : Nat) (pass : Bool) (s : State) : Bool × State :=
  let hit := testHit s c
  (pass && !hit && !(cellOf s c).testFailed, if hit then takeWindows (cellSrc c) 1 (aptFail c s) else s)

/-- CELL_STARTUP_TEST_END (R267). -/
def execCellStartupTestEnd (cell : Fin 16) (pass : Bool) (s : State) : Host.Outcome State Fault Refusal :=
  .next (if testOver s cell.val true then
      let q := testResult cell.val pass s
      let s1 := { q.2 with rng := { q.2.rng with started := true } }
      if q.1 then modCell cell.val (fun c => { c with state := .online, startup := false, onlineSince := s.clk.now, bits := 0 }) s1
      else leaveOnline cell.val s1
    else s)

/-- CELL_RETEST_END: the third consecutive failure makes the cell FAILED (R267). -/
def execCellRetestEnd (cell : Fin 16) (pass : Bool) (s : State) : Host.Outcome State Fault Refusal :=
  .next (if testOver s cell.val false then
      let q := testResult cell.val pass s
      if q.1 then fillCells (modCell cell.val (fun c => { c with state := .spare, retestFails := 0 }) q.2)
      else if 2 ≤ (cellOf s cell.val).retestFails then
        raiseEvent (cellSrc cell.val) kCellFailed 0 (modCell cell.val (fun c => { c with state := .failed, retestFails := 3 }) q.2)
      else modCell cell.val (fun c => { beginRetest s.clk.now c with retestFails := c.retestFails + 1 }) q.2
    else s)

/-- HEALTH_WINDOW_CLOSE: 749 or more bits equal to the first fail the window (R269). -/
def execHealthWindowClose (cell : Fin 16) (count : BitVec 11) (s : State) : Host.Outcome State Fault Refusal :=
  let c := cellOf s cell.val
  .next (if inkOn s && (c.state == .online || c.state == .underTest) then
      let hit := c.state == .online && (injectedAt s.flt (cellSrc cell.val) 4).isSome
      let s1 := if hit then takeWindows (cellSrc cell.val) 1 s else s
      if 749 ≤ count.toNat ∨ hit then
        let s2 := modCell cell.val (fun x => { x with rawBits := x.rawBits + 1024, testFailed := true }) (aptFail cell.val s1)
        if c.state = .online then leaveOnline cell.val s2 else s2
      else modCell cell.val (fun x => { x with rawBits := x.rawBits + 1024, bits := if x.state = .online then x.bits + 1024 else x.bits }) s1
    else s)

/-- REPETITION_COUNT_FAILURE (R269): where in its window the run of 35 ended is a free value. -/
def execRepetitionCountFailure (cell : Fin 16) (s : State) : Host.Outcome State Fault Refusal :=
  let c := cellOf s cell.val
  .next (if inkOn s && (c.state == .online || c.state == .underTest) then
      let at_ := c.rawBits + leNat (freeBytes s 2) % 1024
      let s1 := raiseEvent (cellSrc cell.val) kHealthRct at_
        { useFree 2 s with rng := { s.rng with rct := satAdd 32 s.rng.rct 1 } }
      let s2 := modCell cell.val (fun x => { x with testFailed := true }) s1
      if c.state = .online then leaveOnline cell.val s2 else s2
    else s)

/-- The cell longest ONLINE. -/
def longestOnline (r : Rng) : Option (Nat × Cell) := leastBy (fun e => e.2.onlineSince) (r.cells.filter (fun e => e.2.state == .online))

/-- CELL_ROTATION (R268). -/
def execCellRotation (s : State) : Host.Outcome State Fault Refusal :=
  .next (if inkOn s && s.rng.period != 0 && decide (s.rng.rotateAt ≤ s.clk.now) then
      let s1 := { s with rng := { s.rng with rotateAt := s.rng.rotateAt + cyMs (1000 * s.rng.period) } }
      match longestOnline s.rng, tfind s.rng.cells (fun _ c => c.state == .spare) with
      | some (i, _), some _ => leaveOnline i s1
      | _, _ => s1
    else s)

/-- INK_CLOCK_LOST (R271, 02 R53). -/
def execInkClockLost (s : State) : Host.Outcome State Fault Refusal :=
  .next (if awake s && !s.rng.inkLost then
      raiseEvent 0x050 kClockLost 3
        { s with rng := { s.rng with inkLost := true, cells := tmap s.rng.cells (fun _ c =>
            if c.state = .online then { c with state := .underTest, startup := true, wasOnline := true } else c) } }
    else s)

/-- The tests that a loss interrupted start again (R271; log 30). -/
def resumeCells (now : Nat) (r : Rng) : Rng :=
  { r with cells := tmap r.cells (fun _ c =>
      if c.state = .underTest then (if c.startup then { beginStartup now c with wasOnline := false } else beginRetest now c) else c) }

/-- INK_CLOCK_RETURN. -/
def execInkClockReturn (s : State) : Host.Outcome State Fault Refusal :=
  .next (if awake s && s.rng.inkLost then fillCells { s with rng := { resumeCells s.clk.now s.rng with inkLost := false } } else s)

/-! ### Conditioner and reserves (R272, R273, R277) -/

/-- The next ONLINE cell with 144 bits, in rotation. -/
def nextPortion (r : Rng) : Option Nat :=
  ((List.range 16).map (fun k => (r.portion + k) % 16)).find? (fun i =>
    let c := tgetD r.cells i {}
    c.state == .online && decide (144 ≤ c.bits))

/-- Portions of 144 bits taken from the ONLINE cells in turn; none if they do not yield them. -/
def takePortions (n : Nat) (r : Rng) : Option Rng :=
  match n with
  | 0 => some r
  | k + 1 => match nextPortion r with
    | none => none
    | some i => takePortions k { r with portion := (i + 1) % 16, cells := tmod r.cells i (fun c => { c with bits := c.bits - 144 }) }

/-- The order of refills: first the instances that are not READY, each group as FEED_7, FEED_0 to FEED_5, FEED_6. -/
def refillNext (r : Rng) : Option Nat :=
  let order := [7, 0, 1, 2, 3, 4, 5, 6]
  let want := fun (ready : Bool) => order.find? (fun i => let f := tgetD r.feeds i {}; !f.reserve && (f.state == .ready) == ready)
  match want false with
  | some i => some i
  | none => want true

/-- An instance instantiated from its reserve; its first timed reseed falls 1,000 - 125 i ms later (R276, R277). -/
def instantiate (now i : Nat) (r : Rng) : Rng :=
  { r with reseeds := wrapInc 32 r.reseeds
           feeds := tmod r.feeds i (fun f => { f with state := .ready, reserve := false, requests := 0, nextReseed := now + cyMs (1000 - 125 * i) }) }

/-- Reserves refilled from 2 pool outputs each, as far as the pool goes; a full reserve instantiates an instance that is not
READY. -/
def refill (fuel now : Nat) (r : Rng) : Rng :=
  match fuel with
  | 0 => r
  | f + 1 =>
    if r.pool < 2 then r
    else match refillNext r with
      | none => r
      | some i =>
        let r1 := { r with pool := r.pool - 2, feeds := tmod r.feeds i (fun x => { x with reserve := true }) }
        refill f now (if (tgetD r.feeds i {}).state = .ready then r1 else instantiate now i r1)

def refillState (s : State) : State := { s with rng := refill 16 s.clk.now s.rng }

/-- CONDITIONER_OUTPUT: 576 raw bits; a disagreement discards the output (R272). -/
def execConditionerOutput (agree : Bool) (s : State) : Host.Outcome State Fault Refusal :=
  .next (if inkOn s && decide (s.rng.pool < 16) then
      (match takePortions 4 s.rng with
       | none => s
       | some r =>
         let hit := (injectedAt s.flt 0x050 2).isSome
         let s1 := if hit then takeInject 0x050 2 { s with rng := r } else { s with rng := r }
         if agree && !hit then refillState { s1 with rng := { s1.rng with pool := s1.rng.pool + 1 } }
         else raiseEvent 0x050 kTwinCompare 0 { s1 with rng := { s1.rng with mismatch := satAdd 32 s1.rng.mismatch 1 } })
    else s)

/-! ### Feed (R276, R277) -/

/-- A reseed from the reserve. -/
def reseed (now i : Nat) (r : Rng) : Rng :=
  { r with reseeds := wrapInc 32 r.reseeds
           feeds := tmod r.feeds i (fun f => { f with reserve := false, requests := 0, nextReseed := now + cyMs 1000 }) }

/-- An instance STOPPED: its buffer, and with FEED_7 that of RNG_DATA, is discarded (R277, R280). -/
def stopFeed (i : Nat) (st : FeedState) (r : Rng) : Rng :=
  { r with feeds := tmod r.feeds i (fun f => { f with state := st }), data := if i = 7 then [] else r.data }

/-- An AES disagreement: the instance is instantiated afresh, from its reserve as soon as that is full (R277). -/
def feedMismatch (i : Nat) (s : State) : State :=
  let r := { stopFeed i .uninstantiated s.rng with mismatch := satAdd 32 s.rng.mismatch 1 }
  let r1 := if (tgetD r.feeds i {}).reserve then instantiate s.clk.now i r else r
  refillState (raiseEvent (0x058 + i) kTwinCompare 0 { s with rng := r1 })

/-- FEED_RESEED_DUE. -/
def execFeedReseedDue (feed : Fin 8) (agree : Bool) (s : State) : Host.Outcome State Fault Refusal :=
  let f := tgetD s.rng.feeds feed.val {}
  .next (if awake s && f.state == .ready && (decide (2 ^ 20 ≤ f.requests) || decide (f.nextReseed ≤ s.clk.now)) then
      let hit := (injectedAt s.flt (0x058 + feed.val) 2).isSome
      let s1 := if hit then takeInject (0x058 + feed.val) 2 s else s
      if !agree || hit then feedMismatch feed.val s1
      else if f.reserve then refillState { s1 with rng := reseed s.clk.now feed.val s1.rng }
      else { s1 with rng := stopFeed feed.val .stopped s1.rng }
    else s)

/-- RNG_DATA_REFILL (R280). -/
def execRngDataRefill (s : State) : Host.Outcome State Fault Refusal :=
  .next (if awake s && feedReady s 7 && decide (s.rng.data.length ≤ 32) then
      let b := freeBytes s 256
      let s1 := feedDraw 7 (useFree 256 s)
      { s1 with rng := { s1.rng with data := s1.rng.data ++ (List.range 32).map (fun i => BitVec.ofNat 64 (fld b (8 * i) 8)) } }
    else s)

/-! ### Commands (R282) -/

/-- RNG_FILL: it takes its place on FEED_6, and its bytes are written when its engine time has passed (R282). -/
def execRngFill (s : State) : Host.Outcome State Fault Refusal :=
  .next (onCommand 0x0A00 (fun e s =>
    let dest := par e 0 8
    let n := par e 8 4
    let f := tgetD s.rng.feeds 6 {}
    let stop := candFree s (0x300, none) + cyCtrl (96 + cdiv n 16)
    if e.phase = 2 then
      (if s.clk.now < e.work.headD 0 then s
       else cmdWrite e dest (freeBytes s n) (replyTo s e .ok 0 [] false) (useFree n s))
    else if e.port ≠ 0xFFFF ∧ !inWindow (tgetD s.ports e.port {}) dest n then refuseAt e .notPermitted 0 s
    else if !feedReady s 6 || (!f.reserve && decide (f.nextReseed < stop)) then refuseAt e .rngUnavailable 0 s
    else
      let s1 := feedDraw 6 s
      setEntry e.cid (fun x => { x with phase := 2, work := [stop] })
        { s1 with rng := { s1.rng with feeds := tmod s1.rng.feeds 6 (fun y => { y with freeAt := stop }) } }) s)

/-- RNG_RESEED (R282). -/
def execRngReseed (s : State) : Host.Outcome State Fault Refusal :=
  .next (onCommand 0x0A01 (fun e s =>
    if (List.range 8).any (fun i => !(tgetD s.rng.feeds i {}).reserve) then refuseAt e .rngUnavailable 0 s
    else answer e .ok [] (logCommit e (refillState { s with rng := (List.range 8).foldl (fun r i => reseed s.clk.now i r) s.rng }))) s)

/-- RNG_HEALTH (R282). -/
def execRngHealth (s : State) : Host.Outcome State Fault Refusal :=
  .next (onCommand 0x0A02 (fun e s =>
    let ready := (List.range 8).foldl (fun a i => if feedReady s i then a + 2 ^ i else a) 0
    answer e .ok (leBytes 2 (min 4 (cellsIn s .online)) ++ leBytes 2 (cellsIn s .failed) ++ leBytes 4 s.rng.rct ++ leBytes 4 s.rng.apt
      ++ leBytes 4 (rngState s + 256 * ready)) s) s)

end Sys2Proof.Machine
end

