-- ==== Sys2Proof/Machine/Darning.lean ====
section
/-! DEFINITION. The Darning unit's substitution of units: withdrawal, drain ends, tests, return to service, UNIT_RETIRE, UNIT_TEST
and SWEEP_CONTROL (01 R26; 07 R216; 08 R226; 09 R245; 13 R333 to R341, R346, R348, R461). -/
namespace Sys2Proof.Machine

def testLen : Nat := 3000000

/-! ### Roles -/

def setRole (c : Nat) (r : Role) (s : State) : State := { s with eng := modUnit c (fun u => { u with role := r }) s.eng }

/-- A role that R461 keeps: queued for the repair log (15 R375). -/
def recordRole (c : Nat) (r : Option Role) (s : State) : State := nvmQueue { work := .rolesRecord c r } s

def roleGone (r : Role) : Bool := r == .retired || r == .isolated

/-- Healthy nibs of a half (07 R216). -/
def healthyNibs (us : Tbl EUnit) (half : Nat) : Tbl EUnit :=
  (unitsOfKind us 0).filter (fun u => nibHalf u.1 == half && !roleGone u.2.role)

/-- A half whose one healthy nib is a spare runs it in inverse-check mode (07 R216). -/
def settleHalf (half : Nat) (us : Tbl EUnit) : Tbl EUnit :=
  match healthyNibs us half with
  | [(c, u)] => if u.role = .spare ∧ u.drain.isNone then tmod us c (fun v => { v with role := .inverse, partner := none }) else us
  | _ => us

/-- A pair made of two nibs. -/
def makePair (a b : Nat) (us : Tbl EUnit) : Tbl EUnit :=
  tmod (tmod us a (fun u => { u with role := .active, partner := some b })) b (fun u => { u with role := .active, partner := some a })

/-- One nib or pair put into service in a half, if it can be (13 R340). -/
def restoreHalf (half : Nat) (us : Tbl EUnit) : Option (Tbl EUnit) :=
  let sp := (freeSpares us 0).filter (fun c => nibHalf c == half)
  match (unitsOfKind us 0).find? (fun u => nibHalf u.1 == half && u.2.role == .inverse && u.2.drain.isNone), sp with
  | some (a, _), b :: _ => some (makePair a b us)
  | none, a :: b :: _ => some (makePair a b us)
  | _, _ => none

/-- Return to service of a kind (13 R340): as long as fewer than the delivered count serve and a spare can help. -/
def restore (fuel k : Nat) (us : Tbl EUnit) : Tbl EUnit :=
  match fuel with
  | 0 => us
  | f + 1 =>
    if deliveredCount k ≤ serviceCount us k then us
    else if k = 0 then
      (match restoreHalf 0 us with
       | some v => restore f k v
       | none => match restoreHalf 1 us with
         | some v => restore f k v
         | none => us)
    else match freeSpares us k with
      | [] => us
      | c :: _ => restore f k (tmod us c (fun u => { u with role := .active }))

/-- SPARES_LOW when the spare count of a kind falls to the threshold (13 R348). -/
def spareAlert (k before : Nat) (s : State) : State :=
  let n := spareCount s.eng.units k
  if n < before ∧ n ≤ s.darn.alertUnits then raiseEvent 0x0D6 kSparesLow (256 * k) s else s

/-- After a change of roles: inverse-check mode, return to service, and the threshold, with the spare count before the change. -/
def settle (k before : Nat) (s : State) : State :=
  let us := settleHalf 1 (settleHalf 0 s.eng.units)
  spareAlert k before { s with eng := { s.eng with units := restore 8 k us } }

/-- The configuration generation advances at a unit's return; units that stayed in service take it at once (13 R341). -/
def advanceGen (c : Nat) (s : State) : State :=
  let g := s.eng.configGen + 1
  { s with eng := { s.eng with
      configGen := g
      units := tmap s.eng.units (fun i u => if i = c ∨ inService u then { u with configGen := g.toNat } else u)
      messages := tmap s.eng.messages (fun _ m => { m with configGen := g.toNat }) } }

/-! ### Withdrawal (13 R335, R338) -/

/-- Jobs admitted on the unit that a code belongs to, by fetch number. -/
def jobsOn (s : State) (c : Nat) : List Nat :=
  let lead := leadOf s.eng.units c
  (s.jobs.filter (fun e => e.2.unit == lead && e.2.counted && (e.2.phase == .queued || e.2.phase == .suspended))).map (fun e => e.2.seq)

/-- Spares of a kind that are free: not reserved, and with no retry on them (01 R26). -/
def idleSpares (s : State) (k : Nat) : List Nat := (freeSpares s.eng.units k).filter (fun c => (jobsOn s c).isEmpty)

/-- The replacement of Table 13-2; a spare that is withdrawn has none. -/
def replacementFor (s : State) (c : Nat) : Option Nat :=
  if (unitOf s c).role ≠ .active then none
  else if unitKind c = 0 then (idleSpares s 0).find? (fun x => nibHalf x == nibHalf c)
  else (idleSpares s (unitKind c)).head?

/-- The floor of a kind in force (13 R338). -/
def floorOf (d : Darn) (k : Nat) : Nat :=
  let v := if k = 0 then d.floorNib else if k = 1 then d.floorQuill else d.floorHook
  let lo := if k = 1 then 6 else 4
  let hi := if k = 1 then 12 else 8
  if lo ≤ v ∧ v ≤ hi then v else hi

/-- Whether taking a unit out would leave fewer units in service than the floor: a nib in inverse-check mode counts as 0
pairs. -/
def floorForbids (s : State) (c : Nat) : Bool :=
  let k := unitKind c
  (unitOf s c).role == .active && (replacementFor s c).isNone && decide (serviceCount s.eng.units k - 1 < floorOf s.darn k)

/-- The switch cost of Table 13-2 in SKEIN cycles. -/
def switchCost (s : State) (c : Nat) : Nat :=
  match unitKind c with
  | 0 => cyNib 16
  | 1 => cyQuill (24 * ctxCount s c)
  | _ => cyHook (32 * windowsOn s c)

/-- The withdrawal of a unit: its replacement is reserved, and new jobs start after the drain end and the switch. -/
def withdraw (c : Nat) (why : DrainWhy) (s : State) : State :=
  let rep := replacementFor s c
  let lead := leadOf s.eng.units c
  let start := candFree s (lead, none) + switchCost s c
  let e1 := modUnit c (fun u => { u with drain := some { why := why, replacement := rep, jobs := jobsOn s c } }) s.eng
  let e2 := match rep with
    | none => e1
    | some r => modUnit (if unitKind c = 0 then lead else r) (fun u => { u with freeAt := max u.freeAt start }) e1
  { s with eng := e2 }

/-- Units of a kind that are out or on their way out, the sweep's included (13 Table 13-5). -/
def kindBusy (s : State) (k : Nat) : Bool :=
  (unitsOfKind s.eng.units k).any (fun u => u.2.drain.isSome || u.2.role == .underTest || u.2.copying.isSome)

/-- The unit under test, or being drained for a test, by the sweep. -/
def sweepRuns (s : State) : Bool :=
  s.darn.test.isSome || s.eng.units.any (fun u => match u.2.drain with
    | some d => d.why == .sweep
    | none => false)

/-! ### Drain end -/

/-- The replacement of a nib takes its place in the pair; jobs already placed on the pair follow it (07 R191). -/
def switchNib (c r : Nat) (s : State) : State :=
  let us := s.eng.units
  let p := ((tgetD us c { role := .retired }).partner).getD r
  let old := leadOf us c
  let o := tgetD us old { role := .retired }
  let lead := min p r
  let v := makePair p r us
  let v1 := tmod v lead (fun u => { u with freeAt := max o.freeAt (s.clk.now + switchCost s c) })
  let v2 := tmod v1 c (fun u => { u with partner := none, suspended := none, suspendEnd := none, ctx := [] })
  { s with eng := { s.eng with units := v2 }
           jobs := tmap s.jobs (fun _ j => if j.counted && j.unit == old && (j.phase == .queued || j.phase == .suspended) then { j with unit := lead } else j) }

/-- The replacement of a quill or hook is in service; contexts or windows are copied to it, and it is free when they are (08 R226, 09
R245). -/
def switchUnit (c r : Nat) (s : State) : State :=
  let n := if unitKind c = 1 then ctxCount s c else windowsOn s c
  let stop := s.clk.now + switchCost s c
  let us := tmod s.eng.units r (fun u => { u with role := .active, freeAt := if n = 0 then u.freeAt else max u.freeAt stop })
  { s with eng := { s.eng with units := tmod us c (fun u => if n = 0 then u else { u with copying := some r, freeAt := stop }) } }

/-- With no replacement, the contexts and operand windows of the unit are lost with its test or retirement (08 R227, 09
R245; log 31). -/
def loseContents (c : Nat) (s : State) : State :=
  let lost := (s.eng.messages.filter (fun e => e.2.quill == c)).map (·.1)
  let s1 := lost.foldl (fun a k => loseMessage k a) s
  { s1 with eng := { s1.eng with leases := tmap s1.eng.leases (fun _ l => if l.hook = c then { l with data := [], contentsLost := true } else l) } }

/-- A nib that leaves service with no spare in its half: its partner leaves with it for a test, or is SPARE of the half for
good (07 R216, 13 R335). -/
def partNib (c : Nat) (testing : Bool) (s : State) : State :=
  match (unitOf s c).partner with
  | none => s
  | some p =>
    let us := tmod s.eng.units c (fun u => { u with partner := none })
    { s with eng := { s.eng with units := tmod us p (fun u => { u with partner := none, role := if testing then .underTest else .spare }) } }

/-- The unit out of service and its replacement, if any, in its place. -/
def leaveService (c : Nat) (rep : Option Nat) (testing : Bool) (s : State) : State :=
  match rep with
  | some r => if unitKind c = 0 then switchNib c r s else switchUnit c r s
  | none => if unitKind c = 0 then partNib c testing s else loseContents c s

def beginTest (t : UnitTest) (sweep : Bool) (s : State) : State :=
  if sweep then { s with darn := { s.darn with test := some t } } else { s with darn := { s.darn with tests2 := s.darn.tests2 ++ [t] } }

/-- The command that waits for a unit is answered. -/
def answerCid (cid : Nat) (payload : Bytes) (s : State) : State :=
  match entryOf s cid with
  | some e => answer e .ok payload s
  | none => s

/-- What follows the drain end, by the reason of the withdrawal. -/
def afterDrain (c : Nat) (d : Drain) (partner : Option Nat) (before : Nat) (s : State) : State :=
  let gone := fun (x : State) => settle (unitKind c) before (recordRole c (some .retired) (setRole c .retired x))
  match d.why with
  | .sweep => spareAlert (unitKind c) before (beginTest { unit := c, until_ := s.clk.now + testLen, why := d.why, partner := partner } true (setRole c .underTest s))
  | .test _ => spareAlert (unitKind c) before (beginTest { unit := c, until_ := s.clk.now + testLen, why := d.why, partner := partner } false (setRole c .underTest s))
  | .retire cid => answerCid cid [] (gone s)
  | .escalate => raiseEvent (unitSrc c) kEscRetired ((d.replacement.map unitSrc).getD 0) (gone s)
  | .rollover => spareAlert (unitKind c) before (setRole c .underTest { s with fw := { s.fw with rolling := match partner with
      | some p => tput s.fw.rolling c p
      | none => s.fw.rolling } })

/-- UNIT_DRAIN_END: the jobs admitted before the request have ended (01 R26). -/
def execUnitDrainEnd (engsel : BitVec 10) (s : State) : Host.Outcome State Fault Refusal :=
  let c := engsel.toNat
  if !engselValid c then .fault .malformed
  else .next (match (unitOf s c).drain with
    | none => s
    | some d =>
      if working s && !(jobsOn s c).any (fun q => d.jobs.contains q) then
        let testing := match d.why with
          | .sweep | .test _ | .rollover => true
          | _ => false
        let partner := if unitKind c = 0 ∧ d.replacement.isNone then (unitOf s c).partner else none
        let before := spareCount s.eng.units (unitKind c)
        let s1 := leaveService c d.replacement testing s
        startDue (afterDrain c d partner before { s1 with eng := modUnit c (fun u => { u with drain := none }) s1.eng })
      else s)

/-- QUILL_CONTEXT_COPY_END (08 R226). -/
def execQuillContextCopyEnd (quill : Fin 14) (s : State) : Host.Outcome State Fault Refusal :=
  let c := 0x100 + quill.val
  let u := unitOf s c
  .next (match u.copying with
    | none => s
    | some r =>
      if working s && decide (u.freeAt ≤ s.clk.now) then
        startDue ({ s with eng := { modUnit c (fun v => { v with copying := none, freeAt := 0 }) s.eng with
            messages := tmap s.eng.messages (fun _ m => if m.quill = c then { m with quill := r, configGen := s.eng.configGen.toNat } else m) } })
      else s)

/-- HOOK_WINDOW_COPY_END (09 R245). -/
def execHookWindowCopyEnd (hook : Fin 9) (s : State) : Host.Outcome State Fault Refusal :=
  let c := 0x200 + hook.val
  let u := unitOf s c
  .next (match u.copying with
    | none => s
    | some r =>
      if working s && decide (u.freeAt ≤ s.clk.now) then
        startDue ({ s with eng := { modUnit c (fun v => { v with copying := none, freeAt := 0 }) s.eng with
            leases := tmap s.eng.leases (fun _ l => if l.hook = c then { l with hook := r } else l) } })
      else s)

/-! ### The sweep (13 R333, R334, R346) -/

def setSweepPtr (k v : Nat) (d : Darn) : Darn :=
  if k = 0 then { d with ptrNib := v } else if k = 1 then { d with ptrQuill := v } else { d with ptrHook := v }

/-- The pointer past a unit: the next of its kind, from the first again after the last. -/
def pastUnit (c : Nat) : Nat :=
  let base := 256 * unitKind c
  let n := if base = 0 then 20 else if base = 0x100 then 14 else 9
  if c + 1 < base + n then c + 1 else base

/-- The schedule moved on by a third of the period. -/
def nextStep (d : Darn) : Darn := { d with nextKind := (d.nextKind + 1) % 3, nextDue := d.nextDue.map (fun t => t + 500000000 * d.period) }

def skipStep (d : Darn) : Darn := { d with skipped := satAdd 16 d.skipped 1 }

/-- One step of the sweep on a unit. -/
def sweepUnit (c : Nat) (s : State) : State :=
  let s1 := { s with darn := setSweepPtr (unitKind c) (pastUnit c) s.darn }
  if (unitOf s c).role = .spare ∧ (jobsOn s c).isEmpty then
    let before := spareCount s.eng.units (unitKind c)
    spareAlert (unitKind c) before
      (beginTest { unit := c, until_ := s.clk.now + testLen, why := .sweep, before := .spare } true (setRole c .underTest s1))
  else if floorForbids s c then { s1 with darn := skipStep s1.darn }
  else withdraw c .sweep s1

/-- Steps due in an activation pause, or from 4 ms before a relay-scheduled activation, wait for the pause's end (13 Table 13-5,
16 R408). -/
def stepsHeld (s : State) : Bool :=
  s.fw.pauseAt.isSome || (s.fw.relay && (s.fw.state == .scheduled || s.fw.state == .preparing) && !s.fw.immediate
    && decide (s.fw.actSec * 1000000000 + s.fw.actNs ≤ gNs s + 4000000))

/-- SWEEP_STEP. -/
def execSweepStep (s : State) : Host.Outcome State Fault Refusal :=
  .next (match s.darn.nextDue with
    | none => s
    | some t =>
      if running s && s.darn.enable && s.darn.period != 0 && decide (t ≤ s.clk.now) && !sweepRuns s && !stepsHeld s then
        let k := s.darn.nextKind
        let c := nextSweepUnit s.eng.units k (sweepPtr s.darn k)
        let s1 := { s with darn := nextStep s.darn }
        if kindBusy s k || (freeOfRollover s k) || roleGone (unitOf s c).role then { s1 with darn := skipStep s1.darn } else sweepUnit c s1
      else s)
where
  /-- The kind rolls over to new microcode (16 R407). -/
  freeOfRollover (s : State) (k : Nat) : Bool := s.fw.rollLeft.any (fun c => unitKind c == k)

/-! ### Sequencer memories (14 R362) -/

/-- A unit's sequencer memory is written from the active bank of the microcode store, and reads as the readback says: as written for a
unit not named. -/
def writeSequencer (l : List Readback) (c : Nat) (s : State) : State :=
  let read := ((l.find? (fun r => r.engsel.toNat == c)).map (·.data)).getD (Config.sequencerPart s.fw.micro (unitKind c))
  { s with eng := modUnit c (fun u => { u with sequencer := read }) s.eng }

/-- Whether the readback of a unit agrees with the store. -/
def readsBack (l : List Readback) (c : Nat) (s : State) : Bool :=
  l.all (fun r => r.engsel.toNat != c || r.data == Config.sequencerPart s.fw.micro (unitKind c))

/-- ECC_UNCORRECTABLE on the source of a unit whose readback differs; where in the memory is a free value. -/
def readbackEvent (c : Nat) (s : State) : State :=
  raiseEvent (unitSrc c) kEccUncorrectable (leNat (freeBytes s 6) % 2 ^ 44) (useFree 6 s)

/-- A unit whose readback differs stays out of service: its role is ISOLATED, recorded as every such change is (log 103). -/
def stayOut (c : Nat) (s : State) : State :=
  readbackEvent c (if roleGone (unitOf s c).role then s else recordRole c (some .isolated) (setRole c .isolated s))

/-- A unit that returns: loaded, and then, if its readback agrees, what `back` says. -/
def returnUnit (l : List Readback) (c : Nat) (back : State → State) (s : State) : State :=
  let s1 := writeSequencer l c s
  if readsBack l c s then back s1 else stayOut c s1

/-- A unit back as SPARE, zeroed (13 R341). -/
def backAsSpare (c : Nat) (s : State) : State :=
  { s with eng := modUnit c (fun u => { u with role := .spare, partner := none, suspended := none, suspendEnd := none, ctx := [] }) s.eng }

/-- Two nibs that left service together return together, or the one of them whose readback agrees as SPARE. -/
def returnPair (l : List Readback) (c p : Nat) (s : State) : State :=
  let s1 := returnUnit l p (backAsSpare p) (returnUnit l c (backAsSpare c) s)
  if readsBack l c s && readsBack l p s then { s1 with eng := { s1.eng with units := makePair c p s1.eng.units } } else s1

/-! ### Test end (13 R336, R337, R339) -/

/-- RESULT of Table 13-3. -/
def resultWord (r : TestOutcome) : Nat :=
  pack [(b2n (!(r.logicFail || r.memoryFail || r.katFail)), 0), (b2n r.logicFail, 1), (b2n r.memoryFail, 2), (b2n r.katFail, 3)
        , (r.rowsRepaired.toNat, 8)]

def passed (r : TestOutcome) : Bool := !(r.logicFail || r.memoryFail || r.katFail)

/-- Rows that memory BIST repairs in a unit's private array, as far as it has spare rows (13 R336); which rows is a free
value. -/
def bistRows (n c : Nat) (s : State) : State :=
  match n with
  | 0 => s
  | k + 1 => if sparesLeft s (privateArray c) = 0 then s
      else bistRows k c (rowRepaired (privateArray c) (freeRow (privateArray c) s) (useFree 2 s))

/-- The unit back as SPARE, or with the partner that left with it, loaded before it returns. -/
def testPassed (t : UnitTest) (l : List Readback) (s : State) : State :=
  let c := t.unit
  let old := roleGone t.before
  let stays := old && (srcOf s.flt (unitSrc c)).sticky
  let s1 := { s with eng := modUnit c (fun u => { u with passedSince := true, suspended := none }) s.eng }
  if stays then setRole c t.before s1
  else
    let s2 := advanceGen c (match t.partner with
      | some p => returnPair l c p s1
      | none => returnUnit l c (backAsSpare c) s1)
    if old && readsBack l c s then recordRole c none s2 else s2

/-- The unit RETIRED, with BIST_FAIL; the partner that left with it returns as SPARE. -/
def testFailed (t : UnitTest) (res : Nat) (l : List Readback) (s : State) : State :=
  let c := t.unit
  let s1 := match t.partner with
    | some p => returnUnit l p (backAsSpare p) s
    | none => s
  let s2 := if roleGone t.before then setRole c t.before s1 else recordRole c (some .retired) (setRole c .retired s1)
  raiseEvent (unitSrc c) kBistFail (res % 256) s2

/-- UNIT_RETIRE that named the unit under sweep test (13 Table 13-5). -/
def retireTested (t : UnitTest) (s : State) : State :=
  match t.retireAfter with
  | none => s
  | some cid => answerCid cid [] (if roleGone (unitOf s t.unit).role then s
      else
        let s1 := match t.partner with
          | some p => { s with eng := { s.eng with units := tmod (tmod s.eng.units p (fun u => { u with role := .spare, partner := none })) t.unit (fun u => { u with partner := none }) } }
          | none => s
        recordRole t.unit (some .retired) (setRole t.unit .retired s1))

/-- The test whose 2,000 µs have passed. -/
def testDue (s : State) : Option (UnitTest × Bool) :=
  match s.darn.test with
  | some t => if t.until_ ≤ s.clk.now then some (t, true) else (s.darn.tests2.find? (fun x => decide (x.until_ ≤ s.clk.now))).map (fun x => (x, false))
  | none => (s.darn.tests2.find? (fun x => decide (x.until_ ≤ s.clk.now))).map (fun x => (x, false))

/-- SWEEP_TEST_END, for the sweep's test and for those of UNIT_TEST. -/
def execSweepTestEnd (result : TestEnd) (s : State) : Host.Outcome State Fault Refusal :=
  .next (if running s then
      (match testDue s with
       | none => s
       | some (t, sweep) =>
         let res := resultWord { result.result with rowsRepaired := result.result.rowsRepaired + BitVec.ofNat 8 t.autoRows }
         let ok := passed result.result
         let before := spareCount s.eng.units (unitKind t.unit)
         let d := { s.darn with
           test := if sweep then none else s.darn.test, tests2 := if sweep then s.darn.tests2 else s.darn.tests2.filter (fun x => x.unit != t.unit)
           tests := if sweep then wrapInc 32 s.darn.tests else s.darn.tests
           failed := if ok then s.darn.failed else satAdd 16 s.darn.failed 1
           lastResult := res, lastUnit := t.unit }
         let s1 := bistRows result.result.rowsRepaired.toNat t.unit { s with darn := d }
         let s2 := retireTested t (if ok then testPassed t result.readback s1 else testFailed t res result.readback s1)
         let s3 := settle (unitKind t.unit) before s2
         match t.why with
         | .test cid => answerCid cid (leBytes 4 res) s3
         | _ => s3)
    else s)

/-! ### Commands (13 R333, R339) -/

/-- UNIT_RETIRE. -/
def execUnitRetire (s : State) : Host.Outcome State Fault Refusal :=
  .next (onCommand 0x0506 (fun e s =>
    let c := par e 0 2
    let u := unitOf s c
    let k := unitKind c
    if roleGone u.role then answer e .ok [] (logCommit e s)
    else if s.darn.test.any (fun t => t.unit == c) then
      setEntry e.cid (fun x => { x with committed := true })
        (logCommit e { s with darn := { s.darn with test := s.darn.test.map (fun t => { t with retireAfter := some e.cid }) } })
    else if kindBusy s k then s
    else if u.role = .spare ∧ (jobsOn s c).isEmpty then
      let before := spareCount s.eng.units k
      answer e .ok [] (settle k before (recordRole c (some .retired) (setRole c .retired (logCommit e s))))
    else if floorForbids s c then refuseAt e .capacityFloor 0 s
    else setEntry e.cid (fun x => { x with committed := true }) (withdraw c (.retire e.cid) (logCommit e s))) s)

/-- UNIT_TEST; it logs no commit while its test is due or runs, so a takeover executes it afresh (03 R79; log 49). -/
def execUnitTest (s : State) : Host.Outcome State Fault Refusal :=
  .next (onCommand 0x0507 (fun e s =>
    let c := par e 0 2
    let u := unitOf s c
    let k := unitKind c
    if kindBusy s k then s
    else if (u.role = .spare ∧ (jobsOn s c).isEmpty) ∨ roleGone u.role then
      let before := spareCount s.eng.units k
      setEntry e.cid (fun x => { x with committed := true })
        (spareAlert k before (beginTest { unit := c, until_ := s.clk.now + testLen, why := .test e.cid, before := u.role } false
          (setRole c .underTest s)))
    else if floorForbids s c then refuseAt e .capacityFloor 0 s
    else setEntry e.cid (fun x => { x with committed := true }) (withdraw c (.test e.cid) s)) s)

/-- SWEEP_CONTROL (13 R333): a new PERIOD_S, or ENABLE 1, restarts the schedule. -/
def execSweepControl (s : State) : Host.Outcome State Fault Refusal :=
  .next (onCommand 0x0508 (fun e s =>
    let p := par e 0 4
    let en := par e 4 1 == 1
    let again := en || p != s.darn.period
    let d := { s.darn with
      enable := en, period := p, nextKind := if again then 0 else s.darn.nextKind
      nextDue := if en && p != 0 then (if again then some (s.clk.now + cyMs (1000 * p)) else s.darn.nextDue) else none }
    answer e .ok [] (logCommit e { s with darn := d })) s)

end Sys2Proof.Machine
end

