-- ==== Sys2Proof/Machine/Scrub.lean ====
section
/-! DEFINITION. Memory errors: what an uncorrectable word costs by its array, the patrol scrub, ROW_REPAIR, and the events that
checkers and monitors raise (12 R313 to R317, R322; 13 R342 to R345). -/
namespace Sys2Proof.Machine

/-- One of a list, or none of them, chosen by a number: which word or entry an error hits, and whether one in use, the spec does not give
(log 5). -/
def chosen {α : Type} (l : List α) (v : Nat) : Option α := l[v % (l.length + 1)]?

/-- A slot STALE, as after a failed check (06 R168). -/
def staleSlot (n : Nat) (s : State) : State :=
  if (slotOf s n).state = .valid then writeSlot n { slotOf s n with state := .stale } s else s

/-- A cached ring context dropped without write-back. -/
def dropContext (v : Nat) (s : State) : State :=
  match chosen (s.rings.filter (fun e => e.2.cached)) v with
  | none => s
  | some (id, _) => { s with rings := tmod s.rings id (fun r => { r with cached := false }) }

/-- A cached session record dropped: the session resumes at its ceiling (06 R182). -/
def dropSession (v : Nat) (s : State) : State :=
  match chosen (s.keys.sessions.filter (fun e => e.2.cached)) v with
  | none => s
  | some (ix, _) => modSession ix lostSession s

/-- A word of the doorbell bitmap at all ones, with the words above it that show it. -/
def fillLeaf (w : Nat) (k : Skein) : Skein :=
  { k with leaf := tput k.leaf w (BitVec.allOnes 64)
           summary := tput k.summary (w / 64) (tgetD k.summary (w / 64) 0 ||| BitVec.ofNat 64 (2 ^ (w % 64)))
           top := tput k.top (w / 4096) (tgetD k.top (w / 4096) 0 ||| BitVec.ofNat 64 (2 ^ (w / 64 % 64))) }

/-- An outstanding read of a port treated as POISON. -/
def poisonRead (n v : Nat) (s : State) : State :=
  let reads := (portN s n).txns.filter (fun t => t.req.kind == .rd)
  match chosen reads v with
  | none => s
  | some t => modFab n (fun p => { p with txns := p.txns.map (fun x => if x.tag = t.tag then { x with worst := if x.worst = .ok then .poison else x.worst } else x) }) s

/-- A Feed output buffer, or an output of the pool, discarded; the instance is instantiated afresh (10 R277). -/
def loseFeed (v : Nat) (s : State) : State :=
  let i := v % 9
  if i = 8 then { s with rng := { s.rng with pool := s.rng.pool - 1 } }
  else
    let r := stopFeed i .uninstantiated s.rng
    refillState { s with rng := if (tgetD r.feeds i {}).reserve then instantiate s.clk.now i r else r }

/-- The job that runs on a nib is tried again (07 R214). -/
def retryRunning (c : Nat) (s : State) : State :=
  let lead := leadOf s.eng.units c
  match s.jobs.find? (fun e => runsNow lead e.2) with
  | none => s
  | some (i, j) => match j.sess with
    | none => s
    | some r =>
      let s1 := endRun i j (members s.eng.units lead) (cancelWrites i s)
      startDue (startRetry i j r (retryOf s1 r j) s1)

/-- A Quill message whose context lies on a quill is lost (08 R227). -/
def loseOneMessage (c v : Nat) (s : State) : State :=
  match chosen (s.eng.messages.filter (fun e => e.2.quill == c)) v with
  | none => s
  | some (k, _) => loseMessage k s

/-- The jobs admitted on a lease end with UNIT_FAULT (09 R264). -/
def failLeaseJobs (wid : Nat) (s : State) : State :=
  failJobs ((s.jobs.filter (fun e => onUnit e.2 && e.2.desc.op == 0x20 && e.2.desc.aux == wid)).map (·.1)) .unitFault s

/-- A window of a lease on a hook zeroed, with CONTENTS_LOST, under the jobs admitted on the lease (09 R247, R264). -/
def loseWindow (c v : Nat) (s : State) : State :=
  match chosen (s.eng.leases.filter (fun e => e.2.hook == c)) v with
  | none => s
  | some (k, l) =>
    let w := v / 65536 % max 1 l.windows.length
    failLeaseJobs (windowId s k) { s with eng := { s.eng with leases := tmod s.eng.leases k (fun x =>
        { x with contentsLost := true, data := x.data.filter (fun q => !(decide (4096 * w ≤ q.1) && decide (q.1 < 4096 * (w + 1)))) }) } }

/-- What an uncorrectable word of an array costs (13 Table 13-4); which entry is hit is a free value. A Blotter word fails its
parity when it is read, and a merge-queue entry is rebuilt. -/
def wordLost (a : Nat) (s0 : State) : State :=
  let v := leNat (freeBytes s0 4)
  let s := useFree 4 s0
  if a < 4 then s
  else if a < 36 then staleSlot (1024 * (a - 4) + v % 1024) s
  else if a < 100 then s
  else if a < 108 then failJob (1024 * (a - 100) + v % 1024) .unitFault 0 s
  else if a < 116 then dropContext v s
  else if a < 124 then dropSession v s
  else if a = 124 then { s with skein := fillLeaf (v % 16384) s.skein }
  else if a = 125 then { s with skein := { s.skein with urgent := (s.rings.filter (fun e => e.2.urgent)).map (·.1) } }
  else if a < 128 then s
  else if a < 132 then poisonRead (a - 128) v s
  else if a < 136 then loseFeed v s
  else if a < 156 then retryRunning (a - 136) s
  else if a < 170 then loseOneMessage (0x100 + (a - 156)) v s
  else if a < 179 then loseWindow (0x200 + (a - 170)) v s
  else if s.link.up then { s with link := { s.link with naksSent := satAdd 16 s.link.naksSent 1 } } else s

def eccAddr (row word : Nat) : Nat := 2 ^ 32 * (row % 4096) + word % 2 ^ 32

/-- A corrected word (13 R343, R344). -/
def eccCorrected (a row word : Nat) (s : State) : State := countCorrected a row (raiseEvent (arraySrc a) kEccCorrected (eccAddr row word) s)

/-- An uncorrectable word: the event, the repair of its row, and its cost; a Scribe's memory reports on the Scribe's source
too (13 R344, Table 13-4). -/
def eccUncorrectable (a row word : Nat) (s : State) : State :=
  let s1 := raiseEvent (arraySrc a) kEccUncorrectable (eccAddr row word) s
  let s2 := if a < 4 then raiseEvent (0x0A0 + a / 2) kEccUncorrectable (eccAddr row word) s1 else s1
  wordLost a (autoRepair a row s2)

/-- Arrays with parity in place of ECC: the Blotter FIFOs (11 R296). -/
def parityArray (a : Nat) : Bool := decide (36 ≤ a) && decide (a < 100)

/-- PATROL_SCRUB_ROW, with an injected ECC error met at this read (12 Table 12-6). -/
def execPatrolScrubRow (array : BitVec 9) (row : BitVec 12) (found : ScrubResult) (s : State) : Host.Outcome State Fault Refusal :=
  let a := array.toNat
  let r := row.toNat
  .next (if running s && arrayPresent s.pins.formL a && decide (r < Config.arrayRows a) then
      let hit := injectedAt s.flt (arraySrc a) 0
      let s1 := if hit.isSome then takeInject (arraySrc a) 0 s else s
      let f : ScrubResult := match hit with
        | some true => .uncorrectable
        | some false => if found = .clean then .corrected else found
        | none => found
      let word := leNat (freeBytes s1 4)
      if f = .clean then s1
      else if parityArray a then countParity a r (raiseEvent (0x100 + (a - 36)) kParity (64 * r + word % 64) (useFree 4 s1))
      else if f = .corrected then eccCorrected a r word (useFree 4 s1)
      else eccUncorrectable a r word (useFree 4 s1)
    else s)

/-! ### ROW_REPAIR (13 R344) -/

/-- The checks of ROW_REPAIR (13 R342, R344). -/
def rowFault (e : CmdEntry) (s : State) : Option (Status × Nat) :=
  let a := par e 0 2
  let r := par e 4 4
  if !arrayPresent s.pins.formL a then some (.invalidField, 16)
  else if Config.arrayRows a ≤ r ∨ 4096 ≤ r then some (.invalidField, 20)
  else if sparesLeft s a = 0 then some (.capacityFloor, 0)
  else none

/-- ROW_REPAIR. -/
def execRowRepair (s : State) : Host.Outcome State Fault Refusal :=
  .next (onCommand 0x0509 (fun e s =>
    let a := par e 0 2
    let r := par e 4 4
    match rowFault e s with
    | some f => refuseAt e f.1 f.2 s
    | none => setEntry e.cid (fun x => { x with committed := true }) (startCopy a r (some e.cid) none (logCommit e s))) s)

/-- A row that the Darning unit repairs by itself in an array of a unit under test counts in its ROWS_REPAIRED (13 Table 13-5). -/
def countInTest (a : Nat) (c : RowCopy) (d : Darn) : Darn :=
  let up := fun (t : UnitTest) => if privateArray t.unit = a ∧ c.cid.isNone ∧ c.esc.isNone then { t with autoRows := t.autoRows + 1 } else t
  { d with test := d.test.map up, tests2 := d.tests2.map up }

/-- ROW_REPAIR_COPY_END: the row is remapped, and what waits for it goes on. -/
def execRowRepairCopyEnd (array : BitVec 9) (s : State) : Host.Outcome State Fault Refusal :=
  let a := array.toNat
  .next (match (arrayOf s a).copies with
    | [] => s
    | c :: rest =>
      if running s && decide (c.until_ ≤ s.clk.now) then
        let d := countInTest a c s.darn
        let s1 := rowRepaired a c.row { s with darn := { d with arrays := tmod d.arrays a (fun x => { x with copies := rest }) } }
        let s2 := match c.esc with
          | some src => raiseEvent src kEscRetired src s1
          | none => s1
        match c.cid with
        | some cid => answerCid cid [] s2
        | none => s2
      else s)

/-! ### Events of checkers and monitors (12 R313) -/

/-- Sources whose latest compare or health event bars a clear until a self-test passes (12 R325). -/
def suspectUnit (src : Nat) (e : Engines) : Engines :=
  { e with units := tmap e.units (fun c u => if unitSrc c = src then { u with passedSince := false } else u) }

/-- What an event of a kind does beyond the Row Counter, in the core islands. -/
def eventCost (src kind addr : Nat) (s : State) : State :=
  let row := addr / 2 ^ 32 % 4096
  let word := addr % 2 ^ 32
  match srcArray src with
  | some a =>
    if kind = kEccCorrected then eccCorrected a row word s
    else if kind = kEccUncorrectable then eccUncorrectable a row word s
    else
      let s1 := raiseEvent src kind addr s
      if 5 ≤ kind ∧ kind ≤ 7 then { s1 with eng := suspectUnit src s1.eng } else s1
  | none =>
    if kind = kParity ∧ 0x100 ≤ src ∧ src < 0x140 then countParity (36 + (src - 0x100)) (addr / 64) (raiseEvent src kind addr s)
    else if kind = kSlotMac ∧ src = 0x0B0 then staleSlot (addr % 32768) (raiseEvent src kind addr s)
    else if kind = kTwinCompare ∧ 0x058 ≤ src ∧ src ≤ 0x05F then feedMismatch (src - 0x058) s
    else raiseEvent src kind addr s

/-- Whether a source's checkers exist in the integration form: the lanes and their replay buffers only in LA-1024/L (00 Table 0-1). -/
def srcPresent (formL : Bool) (src : Nat) : Bool :=
  formL || !((0x068 ≤ src && src ≤ 0x089) || src == 0x6B3 || src == 0x6B4)

/-- FAULT_EVENT: a BATON_FAULT and a loss of PLL_REFCLK make the block fail-silent at once (12 R322). The ESC kinds are no
checker's. -/
def execFaultEvent (source : BitVec 12) (kind : BitVec 6) (address : BitVec 44) (s : State) : Host.Outcome State Fault Refusal :=
  let src := source.toNat
  let k := kind.toNat
  let a := address.toNat
  .next (if !aonOn s || (srcClass src).isNone || !srcPresent s.pins.formL src || !kindKnown k || kindEsc k then s
    else if k = kBatonFault ∧ src = 0x0A2 then enterFailSilent 1 (raiseEvent src k a s)
    else if k = kClockLost ∧ src = 0x0D3 then enterFailSilent 2 (raiseEvent src k a s)
    else if coreOn s then eventCost src k a s
    else raiseEvent src k a s)

end Sys2Proof.Machine
end

