-- ==== Sys2Proof/Machine/Lanes.lean ====
section
/-! DEFINITION. The Lane Attachment of LA-1024/L: locks, markers, dead lanes, training, flits and link messages (02 R60 to R68; 19
R457). -/
namespace Sys2Proof.Machine

def laneSrc (i : Nat) : Nat := 0x068 + i
def modLane (i : Nat) (f : Lane → Lane) (s : State) : State := { s with link := { s.link with lanes := tmod s.link.lanes i f } }

/-- The lanes work: LA-1024/L, powered, out of reset, with their reference clock. -/
def lanesOn (s : State) : Bool := s.pins.formL && s.pins.powered && !s.pins.coreInReset && !s.pins.laneRefLost

/-- Steps 2 and 3 of a training: the lane PLL has locked, and the receivers have adapted, at their latest instants (Table 2-15; DEDUCED,
log 117); a header lock shows both at once. -/
def trainSteps (s : State) : State :=
  if s.link.training then
    let n := if lanesLocked s = 34 then 4 else if s.link.trainAt + cyMs 72 ≤ s.clk.now ∨ 0 < lanesLocked s then 3 else if s.link.trainAt + cyUs 500 ≤ s.clk.now then 2 else 1
    { s with link := { s.link with step := max n s.link.step } }
  else s

/-! ### Lock and markers (R61, R62) -/

/-- LANE_HEADER_LOCK. In training, step 4 is done when no lane hunts any more (R66); requests held while an active lane had no lock
go on (R68). -/
def execLaneHeaderLock (lane : Fin 34) (s : State) : Host.Outcome State Fault Refusal :=
  .next (if lanesOn s && !(laneOf s lane.val).locked then
      let s1 := modLane lane.val (fun l => { l with locked := true }) s
      pumpState (if s1.link.training && lanesLocked s1 == 34 then { s1 with link := { s1.link with step := max 4 s1.link.step } } else s1)
    else s)

/-- LANE_LOCK_LOST: 16 invalid headers in 64 blocks. -/
def execLaneLockLost (lane : Fin 34) (s : State) : Host.Outcome State Fault Refusal :=
  .next (if lanesOn s && (laneOf s lane.val).locked then
      raiseEvent (laneSrc lane.val) kLaneLockLost 0
        (modLane lane.val (fun l => { l with
          locked := false, lostAt := s.clk.now, invalid := satAdd 32 l.invalid 16, lockLosses := satAdd 16 l.lockLosses 1 }) s)
    else s)

/-- LANE_ALIGNMENT_MARKER: a marker with type byte 0x5A came inverted, all its fields with it; one whose number and complement
disagree, or whose skew exceeds 8 blocks, is none. -/
def execLaneAlignmentMarker (lane : Fin 34) (typeByte : Byte) (logical complement : BitVec 6) (count : BitVec 16) (skew : BitVec 4) (s : State) :
    Host.Outcome State Fault Refusal :=
  let upright := typeByte == 0xA5
  let number := (if upright then logical else complement).toNat
  .next (if lanesOn s && (laneOf s lane.val).locked && (upright || typeByte == 0x5A) && complement == ~~~logical && decide (skew.toNat ≤ 8)
        && decide (count.toNat < 2 ^ 16) then
      let s1 := modLane lane.val (fun l => { l with
        inverted := if upright then l.inverted else !l.inverted, skew := skew.toNat
        marker := if number < 34 then some number else l.marker }) s
      if s1.link.training && lanesLocked s1 == 34 && s1.link.lanes.all (fun e => e.2.marker.isSome) then
        { s1 with link := { s1.link with step := max 5 s1.link.step } }
      else s1
    else s)

/-! ### Training (R66, R67) -/

/-- The link down: routed ports leave service; LINK_DOWN carries the number of healthy lanes (R67; log 34). -/
def linkDown (healthy : Nat) (s : State) : State :=
  raiseEvent (laneSrc 0) kLinkDown healthy
    { s with link := { s.link with
      up := false, half := false, training := false, keepMap := false, stream := [], replayFrom := none } }

/-- The logical lane that a physical lane carries: the one it carried, where the link retrains with its current map (R65); else by its
marker, numbers 32 and 33 standing for a spare (R62), or by its own number where no marker was read. -/
def wantedLogical (keep : Bool) (i : Nat) (l : Lane) : Option Nat :=
  if keep then l.rx
  else
    let n := l.marker.getD i
    if n < 32 then some n else none

/-- The lane map: each logical lane on the healthy lane that carries it, else on a healthy lane that carries none, in
ascending order (R67). -/
def laneMap (keep : Bool) (healthy : BitVec 34) (lanes : Tbl Lane) (n : Nat) : List (Nat × Nat) :=
  let ok := lanes.filter (fun e => healthy.getLsbD e.1)
  let homes := (List.range n).map (fun g => (g, (ok.find? (fun e => wantedLogical keep e.1 e.2 == some g)).map (·.1)))
  let taken := homes.filterMap (·.2)
  let spare := (ok.filter (fun e => !taken.contains e.1)).map (·.1)
  (homes.foldl (fun (a : List (Nat × Nat) × List Nat) h => match h.2, a.2 with
    | some p, r => (a.1 ++ [(h.1, p)], r)
    | none, p :: r => (a.1 ++ [(h.1, p)], r)
    | none, [] => (a.1, [])) ([], spare)).1

/-- A lane after training, by the map. -/
def trainedLane (healthy : BitVec 34) (m : List (Nat × Nat)) (i : Nat) (l : Lane) : Lane :=
  let g := (m.find? (fun x => x.2 == i)).map (·.1)
  let role : LaneRole := if !healthy.getLsbD i then .dead else if g.isSome then .active else .spare
  { l with rx := g, tx := g, rxRole := role, txRole := role, locked := healthy.getLsbD i }

/-- LINK_TRAINING_COMPLETE: 32 healthy lanes give the full width, 16 half of it (R67). -/
def execLinkTrainingComplete (healthy : BitVec 34) (s : State) : Host.Outcome State Fault Refusal :=
  let n := ((List.range 34).filter (fun i => healthy.getLsbD i)).length
  .next (if lanesOn s && s.link.training then
      let width := if 32 ≤ n then 32 else 16
      let m := laneMap s.link.keepMap healthy s.link.lanes width
      let l := { s.link with lanes := tmap s.link.lanes (trainedLane healthy m), step := 6, training := false, keepMap := true }
      if 16 ≤ n then pumpState (startComplete { s with link := { l with up := true, half := n < 32, sentRun := 0, nakRun := 0 } })
      else startComplete (linkDown n { s with link := l })
    else s)

/-- LANE_REFCLK_LOSS (R53). -/
def execLaneRefclkLoss (s : State) : Host.Outcome State Fault Refusal :=
  .next (if lanesOn s then
      let n := lanesLocked s
      linkDown n { s with pins := { s.pins with laneRefLost := true }
                          link := { s.link with lanes := tmap s.link.lanes (fun _ l => { l with locked := false }) } }
    else s)

/-! ### Dead lanes (R68) -/

/-- The locked spare that takes over a logical lane. -/
def lockedSpare (s : State) : Option (Nat × Lane) := tfind s.link.lanes (fun _ l => l.rxRole == .spare && l.locked)

/-- The logical lane of a dead lane on a spare. -/
def moveLane (i j : Nat) (s : State) : State :=
  let g := (laneOf s i).rx
  let s1 := modLane i (fun l => { l with rx := none, rxRole := .dead }) s
  let s2 := modLane j (fun l => { l with rx := g, rxRole := .active }) s1
  { s2 with link := { s2.link with substitutions := satAdd 16 s2.link.substitutions 1 } }

/-- With no spare left, the link goes to half width on the 16 lowest healthy lanes, or down with fewer (R67, R68). -/
def narrowLink (i : Nat) (s : State) : State :=
  let s1 := modLane i (fun l => { l with rx := none, rxRole := .dead }) s
  let healthy := s1.link.lanes.filter (fun e => e.2.locked && e.2.rxRole == .active)
  let keep := healthy.take 16
  if healthy.length < 16 then linkDown healthy.length s1
  else
    let number := fun (k : Nat) => (List.range 16).find? (fun g => (keep[g]?).map (·.1) == some k)
    { s1 with link := { s1.link with half := true, lanes := tmap s1.link.lanes (fun k l =>
        match number k with
        | some g => { l with rx := some g, tx := some g }
        | none => if l.rxRole == .active then { l with rx := none, tx := none, rxRole := .spare, txRole := .spare } else l) } }

/-- A dead lane is given up: on a spare, or by half width, and the event names the logical lane or 0xFF. -/
def loseLane (i : Nat) (s : State) : State :=
  let g := (laneOf s i).rx
  if (laneOf s i).rxRole = .spare then
    raiseEvent (laneSrc i) kLaneDead 0x3F (modLane i (fun l => { l with rxRole := .dead }) s)
  else match lockedSpare s with
    | some (j, _) => pumpState (raiseEvent (laneSrc i) kLaneDead (g.getD 0x3F) (moveLane i j s))
    | none => pumpState (raiseEvent (laneSrc i) kLaneDead 0xFF (narrowLink i s))

/-- LANE_ERR_LIMIT in force (19 Table 19-5). -/
def errLimit (l : Link) : Nat := if l.errLimit = 0 then 1000 else l.errLimit

/-- LANE_DEAD: 1 ms without lock; for a locked lane, more invalid headers than LANE_ERR_LIMIT within 1 s. -/
def execLaneDead (lane : Fin 34) (s : State) : Host.Outcome State Fault Refusal :=
  let l := laneOf s lane.val
  .next (if lanesOn s && s.link.up && !s.link.training && (l.rxRole == .active || l.rxRole == .spare)
        && (l.locked || decide (l.lostAt + cyMs 1 ≤ s.clk.now)) then
      loseLane lane.val (if l.locked then modLane lane.val (fun x => { x with invalid := satAdd 32 x.invalid (errLimit s.link + 1) }) s else s)
    else s)

/-! ### Flits (R63 to R65) -/

/-- The status and last flag of a response message, in the order that Table 2-14 lists them. -/
def msgStatus (b : Nat) : RspStatus :=
  match b % 4 with
  | 0 => .ok | 1 => .accessDenied | 2 => .decodeErr | _ => .poison

/-- Length of a link message that the block receives; none for a kind that is reserved, or is the block's own to send. -/
def msgLen (kind : Nat) : Option Nat :=
  match kind with
  | 0 => some 1 | 3 => some 134 | 4 => some 8 | 5 => some 16 | 6 => some 8
  | _ => none

def routedPort (s : State) (n : Nat) : Bool := decide (n < 4) && s.pins.cfgFabRoute.getLsbD n

/-- A control register port access that came over the lanes (02 Tables 2-5, 2-14; log 35). Table 2-14 carries address bits [21:3]
only, so which half a 32-bit access covers is open: the low one (DESIGN CHOICE, log 35). -/
def lanesWrite (b : Bytes) (s : State) : State :=
  let f := fld b 1 1
  let a := fld b 2 3 % 2 ^ 19
  let d := BitVec.ofNat 64 (fld b 7 8)
  let wide : Bool := bits f 1 1 == 1
  if f % 2 = 1 then
    crpPresent (.bell wide { page := a / 512 % 1024, slot := a % 512, sid := BitVec.ofNat 16 (fld b 5 2), data := d, at_ := s.clk.now }) s
  else crpPresent (.write (8 * a) (if wide then .full else .low) d) s

def lanesRead (b : Bytes) (s : State) : State :=
  let f := fld b 1 1
  if f % 2 = 1 then crpPresent (.bellRead (bits f 1 1 == 1)) s
  else crpPresent (.read (8 * (fld b 2 3 % 2 ^ 19)) (if bits f 1 1 = 1 then .full else .low)) s

/-- One link message delivered. -/
def takeMessage (b : Bytes) (s : State) : State :=
  let n := fld b 1 1
  match fld b 0 1 with
  | 3 => if routedPort s n then readBeat n (fld b 2 2 % 2048) (msgStatus (fld b 4 1)) true (bits (fld b 4 1) 2 1 == 1) (slice b 6 128) s else s
  | 4 => if routedPort s n then writeAck n (fld b 2 2 % 2048) (msgStatus (fld b 4 1)) s else s
  | 5 => if s.pins.cfgFabRoute = 0 then s else lanesWrite b s
  | 6 => if s.pins.cfgFabRoute = 0 then s else lanesRead b s
  | _ => s

/-- The whole messages at the front of a byte stream; none where a reserved kind stands in it. -/
def splitMessages (fuel : Nat) (b : Bytes) (acc : List Bytes) : Option (List Bytes × Bytes) :=
  match fuel with
  | 0 => some (acc, b)
  | f + 1 =>
    match b with
    | [] => some (acc, [])
    | k :: _ => match msgLen k.toNat with
      | none => none
      | some n => if b.length < n then some (acc, b) else splitMessages f (b.drop n) (acc ++ [b.take n])

/-- The credits of a flit from the host die: request credits in [3:0] and write-data credits in [15:4] of each port's 16
bits. -/
def takeFlitCredits (b : Bytes) (s : State) : State :=
  (List.range 4).foldl (fun a n =>
    let c := fld b (240 + 2 * n) 2
    if routedPort s n && c != 0 then creditReturn n (c % 16) (c / 16) a else a) s

/-- A flit is answered with a NAK for the last good sequence number; the eighth in a row retrains the link (R65). -/
def sendNak (s : State) : State :=
  let l := { s.link with naksSent := satAdd 16 s.link.naksSent 1, sentRun := s.link.sentRun + 1 }
  { s with link := if 8 ≤ l.sentRun then retrain s.clk.now l else l }

/-- A NAK received: transmission goes back to the flit after its number; the eighth in a row retrains the link (R65). -/
def takeNak (n : Nat) (s : State) : State :=
  let run := if s.link.nakSeq = n ∧ s.link.nakRun ≠ 0 then s.link.nakRun + 1 else 1
  let l := { s.link with naksReceived := satAdd 16 s.link.naksReceived 1, nakSeq := n, nakRun := run, replayFrom := some ((n + 1) % 4096) }
  { s with link := if 8 ≤ run then retrain s.clk.now l else l }

/-- The payload of a flit (Table 2-13). -/
def flitPayload (b : Bytes) : Bytes := slice b 4 236

/-- The host die requests a new map for the lanes that the block sends on, and the block obeys (R68): a logical lane moves to the
physical lane named; the lane that carried it is given up. The layout of the request is not given (Config.linkMap, log 114). -/
def obeyMap (m : List (Nat × Nat)) (s : State) : State :=
  m.foldl (fun a x => if x.1 < 32 ∧ x.2 < 34 then
      { a with link := { a.link with lanes := tmap a.link.lanes (fun i l =>
          if i = x.2 then { l with tx := some x.1, txRole := .active }
          else if l.tx = some x.1 then { l with tx := none, txRole := .dead } else l) } }
    else a) s

/-- Data and link-control flits in sequence (log 36). A reserved message kind is a link error (R64); what follows it is open, and here
the flit is not taken and is answered with a NAK (DESIGN CHOICE, log 36). -/
def takeFlit (b : Bytes) (s : State) : State :=
  let h := fld b 0 4
  let kind := h / 2 ^ 28
  let seq := bits h 16 12
  if kind = 3 then takeFlitCredits b (takeNak (bits h 4 12) s)
  else if kind = 0 then takeFlitCredits b s
  else if seq ≠ (s.link.lastGood + 1) % 4096 then s
  else
    let s1 := { s with link := { s.link with lastGood := seq, sentRun := 0 } }
    if kind = 2 then takeFlitCredits b (obeyMap (Config.linkMap (flitPayload b)) s1)
    else match splitMessages 4096 (s.link.stream ++ flitPayload b) [] with
      | none => sendNak s
      | some (ms, rest) => takeFlitCredits b (ms.foldl (fun a m => takeMessage m a) { s1 with link := { s1.link with stream := rest } })

/-- FLIT_RECEIVED: a flit that fails its CRC, or of a reserved type, is discarded and answered with a NAK. -/
def execFlitReceived (flit : Bytes) (s : State) : Host.Outcome State Fault Refusal :=
  if flit.length ≠ 256 then .fault .malformed
  else .next (if lanesOn s && s.link.up && !s.link.training then
      (if flit.drop 248 = Config.crc64 (flit.take 248) ∧ fld flit 0 4 / 2 ^ 28 < 4 then takeFlit flit s else sendNak s)
    else s)

/-- NAK_RECEIVED. -/
def execNakReceived (lastGood : BitVec 12) (s : State) : Host.Outcome State Fault Refusal :=
  .next (if lanesOn s && s.link.up && !s.link.training then takeNak lastGood.toNat s else s)

end Sys2Proof.Machine
end

