-- ==== Sys2Proof/Machine/Nvm.lean ====
section
/-! DEFINITION. The on-chip NVM: sectors and retirement, settings, counters, and the NVM commands (15 R371 to R387). -/
namespace Sys2Proof.Machine

/-! ### Sectors (R373, R374, R377, R378) -/

def putSector (i : Nat) (x : Sector) (n : Nvm) : Nvm := { n with sectors := tput n.sectors i x }

/-- The physical sector that holds a logical sector. -/
def physOf (n : Nvm) (l : Nat) : Nat :=
  match tfind n.sectors (fun _ x => x.logical == l && (x.state == .mapped || x.state == .bad || x.state == .halfErased)) with
  | some (p, _) => p
  | none => l

/-- The lowest spare sector. -/
def spareSector (n : Nvm) : Option Nat :=
  ((List.range 128).map (· + 1024)).find? (fun i => (sectorOf n i).state == .spare)

/-- The logical sector that an operation writes; in a log, where the record goes is not given, and `v` chooses it. -/
def workSector (w : NvmWork) (v : Nat) : Nat :=
  match w with
  | .keyProgram _ | .keyMarker _ _ => 832 + v % 128
  | .counterProgram _ _ | .counterMarker _ _ => 984 + v % 16
  | .bankProgram b _ _ | .bankMarker b _ => 768 + 32 * (b % 2)
  | .rolesRecord _ _ | .repairRecord _ _ => 1000 + v % 8
  | .versionTree => 1008 + v % 8
  | .eraseSector l => l
  | .imageProgram i _ => i
  | .journalProgram i _ => 384 + i
  | .statusActivated | .statusConfirmed => 1
  | .provCopy _ _ | .pairCopy _ _ | .transition _ _ _ _ => 960 + v % 8

/-- A sector retired to an erased spare, with its STORAGE event; with no spare left it is BAD (R378). -/
def retireSector (l : Nat) (s : State) : State :=
  let p := physOf s.nvm l
  let x := sectorOf s.nvm p
  match spareSector s.nvm with
  | some q =>
    let y := sectorOf s.nvm q
    let n := putSector p { x with state := .retired } (putSector q { y with state := .mapped, logical := l, erases := y.erases + 1 } s.nvm)
    raiseEvent 0x0D0 kStorage p { s with nvm := { n with erases := wrapInc 32 n.erases } }
  | none => { s with nvm := putSector p { x with state := .bad, logical := l } s.nvm }

def sectorBad (n : Nvm) (l : Nat) : Bool := (sectorOf n (physOf n l)).state == .bad

/-- A corrected word in a sector; the eighth since the last start retires it (R372). -/
def correctSector (l : Nat) (s : State) : State :=
  let p := physOf s.nvm l
  let x := sectorOf s.nvm p
  let s1 := raiseEvent 0x0D0 kEccCorrected p
    { s with nvm := { putSector p { x with corrections := x.corrections + 1, logical := l } s.nvm with corrected := satAdd 32 s.nvm.corrected 1 } }
  if 8 ≤ x.corrections + 1 then retireSector l s1 else s1

/-! ### The operation at hand (R375) -/

/-- The command that waits for the operation goes on: its reply, if it is known, else its row. -/
def nvmDone (cid : Option Nat) (s : State) : State :=
  match cid.bind (entryOf s) with
  | none => s
  | some e => match e.reply with
    | some r => finish e r s
    | none => setEntry e.cid (fun x => { x with committed := false }) s

/-- The operations left when one is given up: those of the same activity go with it, up to the one that its command waits
for. -/
def dropActivity (cid : Option Nat) (l : List NvmOp) : List NvmOp × Option Nat :=
  match cid, l with
  | some c, _ => (l, some c)
  | none, [] => ([], none)
  | none, o :: r =>
    match o.work with
    | .eraseSector _ | .imageProgram _ _ | .journalProgram _ _ | .bankProgram _ _ _ | .keyProgram _ | .keyMarker _ _ =>
      dropActivity o.cid r
    | _ => (l, none)

/-- An operation that a BAD sector cannot take: its command completes with UNIT_FAULT (R378). -/
def nvmFail (o : NvmOp) (rest : List NvmOp) (s : State) : State :=
  let q := dropActivity o.cid rest
  let s1 := { s with nvm := { s.nvm with ops := q.1 } }
  match q.2.bind (entryOf s1) with
  | some e => answer e .unitFault [] s1
  | none => s1

/-! ### Settings (R383 to R386) -/

/-- The RAM settings as STORE_SETTINGS captures them. -/
def captureSettings (s : State) : Settings :=
  { classes := s.flt.classes, errpwUs := s.flt.errpwUs, reactMs := s.flt.reactMs, deepest := s.pwr.deepest, idleUs := s.pwr.idleUs
    period := s.darn.period, enable := s.darn.enable, minRank := s.tim.minRank, slewPpm := s.tim.slewPpm, latNs := s.regs.latNs
    fabTimeout := s.regs.fabTimeout, carveBase := s.keys.carveBase, carveEn := s.keys.carveEn, carveLog2 := s.keys.carveLog2
    selfSid := s.keys.selfSid, floorNib := s.darn.floorNib, floorQuill := s.darn.floorQuill, floorHook := s.darn.floorHook
    alertUnits := s.darn.alertUnits, alertRows := s.darn.alertRows, rotate := s.rng.period }

/-- The values that act in the CTRL island. -/
def applyCore (x : Settings) (s : State) : State :=
  { s with
    flt := { s.flt with classes := x.classes, errpwUs := x.errpwUs, reactMs := x.reactMs }
    pwr := { s.pwr with deepest := x.deepest, idleUs := x.idleUs }
    darn := { s.darn with
      period := x.period, enable := x.enable, nextKind := 0
      nextDue := if x.enable && x.period != 0 && started s then some (s.clk.now + cyMs (1000 * x.period)) else none
      floorNib := x.floorNib, floorQuill := x.floorQuill, floorHook := x.floorHook, alertUnits := x.alertUnits, alertRows := x.alertRows }
    rng := { s.rng with period := x.rotate, rotateAt := s.clk.now + cyMs (1000 * x.rotate) }
    regs := { s.regs with latNs := x.latNs, fabTimeout := x.fabTimeout } }

/-- The values that AON and RES keep across CORE_RST_N (19 Table 19-3); setting EN starts the initialisation of the carve-out
(06 R177). -/
def applyKept (x : Settings) (s : State) : State :=
  let s1 := { s with tim := { s.tim with minRank := x.minRank, slewPpm := x.slewPpm } }
  if s.keys.carveEn then s1
  else
    let en := x.carveEn && openPorts s == 0
    let s2 := { s1 with keys := { s.keys with
      carveBase := x.carveBase, carveLog2 := x.carveLog2, carveEn := en, carveInit := s.keys.carveInit || en, selfSid := x.selfSid } }
    if en then startTree s2 else s2

/-- Fourteen pairs N and T. -/
def classValues (k : Nat) (l : List Nat) : Tbl (Nat × Nat) :=
  match k, l with
  | 0, _ => []
  | n + 1, a :: b :: r => (13 - n, (a, b)) :: classValues n r
  | _, _ => []

/-- Settings from their values in the order of Table 15-5. -/
def settingsOf (v : List Nat) : Settings :=
  let g := fun i => (v[28 + i]?).getD 0
  { classes := classValues 14 v, errpwUs := g 0, reactMs := g 1, deepest := g 2, idleUs := g 3, period := g 4, enable := g 5 == 1, minRank := g 6
    slewPpm := g 7, latNs := g 8, fabTimeout := g 9, carveBase := g 10, carveEn := g 11 == 1, carveLog2 := g 12, selfSid := BitVec.ofNat 16 (g 13)
    floorNib := g 14, floorQuill := g 15, floorHook := g 16, alertUnits := g 17, alertRows := g 18, rotate := g 19 }

/-- Whether every value has an encoding that its command or register defines. -/
def settingsOk (v : List Nat) : Bool :=
  let x := settingsOf v
  let g := fun i => (v[28 + i]?).getD 0
  v.length == 48 && x.classes.all (fun c => decide (1 ≤ c.2.1) && decide (c.2.1 ≤ 65535) && decide (1 ≤ c.2.2) && decide (c.2.2 ≤ 604800000))
    && decide (10 ≤ x.errpwUs) && decide (x.errpwUs ≤ 250000) && decide (1 ≤ x.reactMs) && decide (x.reactMs ≤ 10000)
    && decide (1 ≤ x.deepest) && decide (x.deepest ≤ 4) && decide (10 ≤ x.idleUs) && decide (x.idleUs ≤ 3600000000)
    && (x.period == 0 || (decide (10 ≤ x.period) && decide (x.period ≤ 3600))) && decide (g 5 ≤ 1) && decide (x.minRank ≤ 3)
    && decide (1 ≤ x.slewPpm) && decide (x.slewPpm ≤ 100) && decide (x.latNs < 2 ^ 16) && decide (x.fabTimeout < 2 ^ 17)
    && decide (x.carveBase < 2 ^ 56) && decide (x.carveBase % 2 ^ 20 = 0) && decide (g 11 ≤ 1) && decide (x.carveLog2 < 32)
    && decide (g 13 < 2 ^ 16) && decide (x.floorNib < 16) && decide (x.floorQuill < 16) && decide (x.floorHook < 16)
    && decide (x.alertUnits < 16) && decide (x.alertRows < 16) && decide (x.rotate < 256)

/-- The sectors that a settings record needs (R383). -/
def settingsSectors : Nat := cdiv (128 + 128 * cdiv (min Config.settingsBytes 48896) 128 + 128) 4096

/-- VERSION of the next record (R384). -/
def nextBankVersion (n : Nvm) : Nat := n.banks.foldl (fun a b => max a (b.2.version.getD 0)) 0 + 1

/-- The record written to the bank that is not active: its sectors that are not blank are erased first (R384). -/
def storeRecord (e : CmdEntry) (x : Settings) (s : State) : State :=
  let b := 1 - s.nvm.activeBank
  let v := nextBankVersion s.nvm
  let old := (tget s.nvm.banks b).bind (·.version)
  let erases := if old.isSome then (List.range settingsSectors).map (fun i => ({ work := .eraseSector (768 + 32 * b + i) } : NvmOp)) else []
  setEntry e.cid (fun y => { y with committed := true, reply := some (replyTo s e .ok 0 (leBytes 4 b ++ leBytes 4 v) false) })
    { s with nvm := { s.nvm with ops := s.nvm.ops ++ erases ++ [{ work := .bankProgram b v x, cid := some e.cid }] } }

/-- STORE_SETTINGS: the reply and the commit follow the marker (R384). -/
def execStoreSettings (s : State) : Host.Outcome State Fault Refusal :=
  .next (onCommand 0x0600 (fun e s => storeRecord e (captureSettings s) s) s)

/-! ### Signed manifests (16 R388, R389) -/

def sha384 (b : Bytes) : Bytes := padTo 48 (Config.digest 0x21 b 48)

/-- Why a manifest is not accepted, by its first 7,347 bytes. -/
def manifestFault (s : State) (m : Bytes) (kind : Nat) : Option Status :=
  let a := fld m 6 1
  let ok := fld m 0 4 == 0x4B494D31 && fld m 4 1 == 1 && fld m 5 1 == kind && decide (a < 4) && decide (fld m 7 1 < 2)
    && (match tget s.fuse.anchors a with
        | some x => !x.revoked && x.roles.getLsbD (kind - 1) && sha384 (slice m 128 2592) == Config.anchorDigest a
        | none => false)
    && Config.verifySignature (slice m 128 2592) (m.take 128) (slice m 2720 4627)
    && fld m 24 4 == 0x0100 && (fld m 7 1 == 0 || s.fuse.lifecycle == 0 || s.fuse.lifecycle == 3)
    && allZero (slice m 30 2) && allZero (slice m 80 48)
  let shape := if kind = 1 then
      decide (3 ≤ fld m 20 4) && decide (fld m 20 4 ≤ 384) && decide (4096 * (fld m 20 4 - 1) + 64 ≤ fld m 16 4) && decide (fld m 16 4 ≤ 4096 * fld m 20 4)
        && (fld m 28 2 == 0 || (decide (60 ≤ fld m 28 2) && decide (fld m 28 2 ≤ 3600)))
    else fld m 20 4 == 0 && fld m 28 2 == 0
  if !ok || !shape then some .imageInvalid
  else if kind = 1 ∧ fld m 12 4 < counterOf s.nvm cntRollback then some .imageRollback
  else none

/-- SETTINGS_IMAGE_LOAD: the image is the body followed by 7,347 bytes of a manifest of KIND 2 (R386, 16 R390). -/
def execSettingsImageLoad (s : State) : Host.Outcome State Fault Refusal :=
  .next (onCommand 0x0601 (fun e s =>
    let n := par e 8 4
    if n = 0 ∨ 65536 < n then refuseAt e .invalidField 24 s
    else if !e.readIssued then cmdRead e (par e 0 8) n s
    else
      let b := landed e
      let body := b.take (n - 7347)
      let m := b.drop (n - 7347)
      if n < 7347 ∨ 48896 < body.length ∨ manifestFault s m 2 ≠ none ∨ fld m 16 4 ≠ body.length ∨ slice m 32 48 ≠ sha384 body then
        refuseAt e .imageInvalid 0 s
      else match Config.settingsValues body with
        | none => refuseAt e .imageInvalid 0 s
        | some v =>
          let x := settingsOf v
          if !settingsOk v then refuseAt e .invalidField 0xFFFFFFFF s
          else if s.keys.carveEn && !(x.carveBase == s.keys.carveBase && x.carveEn && x.carveLog2 == s.keys.carveLog2 && x.selfSid == s.keys.selfSid) then
            refuseAt e .notPermitted 0 s
          else storeRecord e x (applyKept x (applyCore x s))) s)

/-! ### Queries and host counters (R381, R382, R387) -/

/-- NVM_QUERY. -/
def execNvmQuery (s : State) : Host.Outcome State Fault Refusal :=
  .next (onCommand 0x0602 (fun e s =>
    answer e .ok (leBytes 4 (nvmSpares s.nvm) ++ leBytes 4 (nvmRetired s.nvm) ++ leBytes 4 (nvmMaxErase s.nvm) ++ leBytes 4 s.nvm.activeBank)
      s) s)

/-- The IDs of Table 15-4. -/
def counterKnown (id : Nat) : Bool := decide (id ≤ 4) || (decide (0x0100 ≤ id) && decide (id ≤ 0x013F))

/-- COUNTER_READ. -/
def execCounterRead (s : State) : Host.Outcome State Fault Refusal :=
  .next (onCommand 0x0603 (fun e s =>
    if !counterKnown (par e 0 2) then refuseAt e .invalidField 16 s
    else answer e .ok (leBytes 8 (counterOf s.nvm (par e 0 2))) s) s)

/-- The checks of COUNTER_INCREMENT (15 R381, R382). -/
def counterFault (e : CmdEntry) (s : State) : Option (Status × Nat) :=
  let id := par e 0 2
  if id ≤ 0x00FF then some (.notPermitted, 0)
  else if !counterKnown id || decide (2 ^ 64 ≤ counterOf s.nvm id + 1) then some (.invalidField, 16)
  else none

/-- COUNTER_INCREMENT: the reply follows the marker. -/
def execCounterIncrement (s : State) : Host.Outcome State Fault Refusal :=
  .next (onCommand 0x0604 (fun e s =>
    let id := par e 0 2
    let v := counterOf s.nvm id + 1
    match counterFault e s with
    | some f => refuseAt e f.1 f.2 s
    | none => setEntry e.cid (fun x => { x with committed := true, reply := some (replyTo s e .ok 0 (leBytes 8 v) false) })
      (logCommit e (nvmQueue { work := .counterProgram id v, cid := some e.cid } s))) s)

end Sys2Proof.Machine
end

