-- ==== Sys2Proof/Machine/Firmware.lean ====
section
/-! DEFINITION. Firmware: images and the journal, direct and relayed transfers, activation, confirmation and the microcode rollover
(16 R388 to R413). -/
namespace Sys2Proof.Machine

/-! ### Images and replay (R388 to R394) -/

/-- A logical image sector; one not listed is as delivered (log 4). -/
def imgBytes (f : Fw) (i : Nat) : Bytes := (tget f.image i).getD (Config.deliveredSector i)

/-- A journal sector, if it holds a copy. -/
def jrnBytes (f : Fw) (i : Nat) : Option Bytes := (tget f.journal i).map (fun c => c.getD (Config.deliveredSector i))

def putImage (i : Nat) (c : Option Bytes) (t : Tbl Bytes) : Tbl Bytes :=
  match c with
  | some b => tput t i b
  | none => tdel t i

/-- The manifest of an image: its first two chunks. -/
def imgManifest (f : Fw) : Bytes := imgBytes f 0 ++ imgBytes f 1

/-- The last 48 bytes of a chunk. -/
def chunkTail (b : Bytes) : Bytes := b.drop (b.length - 48)

/-- Length of chunk `i` of an image of `n` chunks and `len` bytes (R388). -/
def chunkLen (len n i : Nat) : Nat := if i + 1 = n then len - 4096 * (n - 1) else 4096

/-- The hash chain from chunk `i` on, `k` chunks. -/
def chainOk (f : Fw) (len n k i : Nat) (h : Bytes) : Bool :=
  match k with
  | 0 => true
  | m + 1 =>
    let b := imgBytes f i
    b.length == chunkLen len n i && sha384 b == h && (i + 1 != n || allZero (chunkTail b)) && chainOk f len n m (i + 1) (chunkTail b)

/-- Whether the manifest sectors are those delivered. -/
def asDelivered (f : Fw) : Bool := (tget f.image 0).isNone && (tget f.image 1).isNone

/-- Why the image in the running area is not accepted: R389 and its hash chain; the image as delivered is accepted. -/
def imageFault (s : State) : Option Status :=
  if asDelivered s.fw then
    (if counterOf s.nvm cntRollback ≠ 0 then some .imageRollback
     else if s.fw.image.all (fun e => decide (Config.deliveredChunks ≤ e.1) || sha384 e.2 == sha384 (Config.deliveredSector e.1)) then none
     else some .imageInvalid)
  else
    let m := imgManifest s.fw
    match manifestFault s m 1 with
    | some f => some f
    | none =>
      let n := fld m 20 4
      if chainOk s.fw (fld m 16 4) n (n - 2) 2 (slice m 32 48) then none else some .imageInvalid

/-- FW_VERSION, SEC_VERSION and the probation window of the image. -/
def imageInfo (f : Fw) : Nat × Nat × Nat :=
  if asDelivered f then (1, 0, 600)
  else
    let m := imgManifest f
    (fld m 8 4, fld m 12 4, if fld m 28 2 = 0 then 600 else fld m 28 2)

/-- The whole image in the running area. -/
def imageBytes (f : Fw) : Bytes :=
  ((List.range (if asDelivered f then Config.deliveredChunks else fld (imgManifest f) 20 4)).map (imgBytes f)).flatten

/-- SHA-384 of the image in the running area (14 R351). -/
def imageDigest (f : Fw) : Bytes := sha384 (imageBytes f)

/-- The Scribe SRAMs and the microcode store as Slipknot fills them from the running image (14 Table 14-2 step 3, Table 14-3 step 4). -/
def loadParts (f : Fw) : Fw :=
  let i := imageBytes f
  { f with sramA := Config.scribePart i, sramB := Config.scribePart i, micro := Config.microcodePart i, shadow := [] }

/-- One sector of a replay: kept, or restored from the journal; none where neither matches (R394). -/
def restoreSector (h : Bytes) (i : Nat) (f : Fw) : Option Fw :=
  if sha384 (imgBytes f i) = h then some f
  else match tget f.journal i, jrnBytes f i with
    | some c, some b => if sha384 b = h then some { f with image := putImage i c f.image } else none
    | _, _ => none

/-- The walk of the old hash chain. -/
def restoreChain (k i : Nat) (h : Bytes) (f : Fw) : Option Fw :=
  match k with
  | 0 => some f
  | n + 1 => match restoreSector h i f with
    | none => none
    | some g => restoreChain n (i + 1) (chunkTail (imgBytes g i)) g

/-- The sectors of the delivered image restored. -/
def restoreDelivered (l : List Nat) (f : Fw) : Option Fw :=
  match l with
  | [] => some f
  | i :: r => if i < 2 ∨ Config.deliveredChunks ≤ i then restoreDelivered r f
    else match restoreSector (sha384 (Config.deliveredSector i)) i f with
      | none => none
      | some g => restoreDelivered r g

/-- The image that the journal saved, restored with its STATUS; none where the replay fails (R394). -/
def replayJournal (s : State) : Option Fw :=
  let f := s.fw
  match tget f.journal 0, tget f.journal 1 with
  | some c0, some c1 =>
    let g := { f with activated := f.jActivated, confirmed := f.jConfirmed, image := putImage 1 c1 (putImage 0 c0 f.image) }
    if c0.isNone && c1.isNone then (if counterOf s.nvm cntRollback ≠ 0 then none else restoreDelivered (f.image.map (·.1)) g)
    else
      let m := imgManifest g
      if manifestFault s m 1 = none then restoreChain (fld m 20 4 - 2) 2 (slice m 32 48) g else none
  | _, _ => none

/-- A replay starts (R396 to R398, R404). -/
def startReplay (why : ReplayWhy) (s : State) : State :=
  { s with fw := { s.fw with state := .replaying, replay := some why, staging := [], pauseAt := none } }

/-- What ends with a transfer. -/
def closeTransfer (f : Fw) : Fw :=
  { f with state := .idle, relay := false, chunksDone := 0, beginLen := 0, beginChunks := 0, staging := [], nextHash := [], stagedVersion := 0
           stagedSec := 0, campaign := 0, replay := none, actCid := none, immediate := false, awarded := false }

/-- The hold of the token before a relay-scheduled activation ends: the commands that wait get it (R408). -/
def endHold (s : State) : State :=
  if s.cmd.tokenHold then
    (let c := { s.cmd with tokenHold := false }
     { s with cmd := startAll s.clk.now (if c.token.isNone then passToken c else c) })
  else s

/-- JOURNAL_REPLAY_END: the image restored, and LAST_FALLBACK 6; a replay that fails leaves the image invalid. What waits for
the replay is answered (log 37). -/
def execJournalReplayEnd (s : State) : Host.Outcome State Fault Refusal :=
  .next (if aonOn s && !s.pins.coreInReset && s.fw.state == .replaying && s.nvm.ops.isEmpty && !s.pins.nvmLow then
      let r := replayJournal s
      let s1 := { s with fw := { closeTransfer (r.getD s.fw) with lastFallback := 6 } }
      let st : Status := if r.isSome then .ok else .imageInvalid
      match s.fw.replay with
      | some (.abort cid) => match entryOf s1 cid with
        | some e => releaseToken (answer e st [] s1)
        | none => s1
      | some (.relayAbort cid) => match entryOf s1 cid with
        | some e => if st = .ok then setEntry cid (fun x => { x with committed := false, phase := 3 }) s1 else answer e st [] s1
        | none => s1
      | _ => s1
    else s)

/-! ### Writing chunks (R391 to R393) -/

def queueOps (l : List NvmOp) (s : State) : State := { s with nvm := { s.nvm with ops := s.nvm.ops ++ l } }

/-- The operations that write an image sector: the displaced sector goes to the journal first, but for the manifest sectors,
which are there since the opening. -/
def chunkOps (f : Fw) (i : Nat) (b : Bytes) : List NvmOp :=
  let same := imgBytes f i == b && (i != 1 || (!f.activated && !f.confirmed))
  let save : List NvmOp := if i < 2 then [] else [{ work := .eraseSector (384 + i) }, { work := .journalProgram i (tget f.image i) }]
  if same then [] else save ++ [{ work := .eraseSector i }, { work := .imageProgram i b }]

/-- The copy of the manifest sectors to the journal that opens a transfer. -/
def openOps (f : Fw) : List NvmOp :=
  [{ work := .eraseSector 384 }, { work := .journalProgram 0 (tget f.image 0) }, { work := .eraseSector 385 }, { work := .journalProgram 1 (tget f.image 1) }]

/-- The last operation of a list carries the command that waits. -/
def withCid (cid : Nat) (l : List NvmOp) : List NvmOp :=
  match l with
  | [] => []
  | [o] => [{ o with cid := some cid }]
  | o :: r => o :: withCid cid r

/-- The next chunk expected: chunk 1 once chunk 0 is in staging. -/
def nextChunk (f : Fw) : Nat := if f.chunksDone = 0 then f.staging.length else f.chunksDone

/-- A chunk in its turn: why it is not accepted, or the firmware state with it and the operations that write it. -/
def takeChunk (s : State) (i : Nat) (b : Bytes) : Status ⊕ (Fw × List NvmOp) :=
  let f := s.fw
  if i = 0 then
    .inr ({ f with staging := [(0, b)], beginLen := if f.relay then fld b 16 4 else f.beginLen
                   beginChunks := if f.relay then fld b 20 4 else f.beginChunks }, [])
  else if i = 1 then
    (let b0 := tgetD f.staging 0 []
     let m := b0 ++ b
     match manifestFault s m 1 with
     | some x => .inl x
     | none =>
       if fld m 16 4 ≠ f.beginLen ∨ fld m 20 4 ≠ f.beginChunks then .inl .imageInvalid
       else
         let ops := chunkOps f 0 b0 ++ chunkOps f 1 b
         .inr ({ f with staging := [(0, b0), (1, b)], nextHash := slice m 32 48, chunksDone := if ops.isEmpty then 2 else f.chunksDone }, ops))
  else if sha384 b ≠ f.nextHash ∨ (i + 1 = f.beginChunks ∧ !allZero (chunkTail b)) then .inl .imageInvalid
  else
    let ops := chunkOps f i b
    .inr ({ f with nextHash := chunkTail b, chunksDone := if ops.isEmpty then i + 1 else f.chunksDone }, ops)

/-! ### Direct transfer (R395 to R398) -/

/-- The checks of FW_BEGIN (16 R394, R395). -/
def fwBeginFault (e : CmdEntry) (s : State) : Option (Status × Nat) :=
  let len := par e 0 4
  let n := par e 4 4
  if n < 3 ∨ 384 < n then some (.invalidField, 20)
  else if len < 4096 * (n - 1) + 64 ∨ 4096 * n < len then some (.invalidField, 16)
  else if s.fw.state ≠ .idle then some (.notPermitted, 0)
  else none

/-- FW_BEGIN. -/
def execFwBegin (s : State) : Host.Outcome State Fault Refusal :=
  .next (onCommand 0x0700 (fun e s =>
    let len := par e 0 4
    let n := par e 4 4
    match fwBeginFault e s with
    | some f => refuseAt e f.1 f.2 s
    | none =>
      let f := { closeTransfer s.fw with state := .transfer, beginLen := len, beginChunks := n }
      let s1 := queueOps (withCid e.cid (openOps s.fw)) { s with fw := f, cmd := { s.cmd with token := some { opcode := fwToken, holder := none } } }
      setEntry e.cid (fun x => { x with committed := true, reply := some (replyTo s e .ok 0 [] false) }) (logCommit e s1)) s)

/-- A transfer ended by a refused chunk or image: the reply, the token, and the replay (R396, R397). -/
def failTransfer (e : CmdEntry) (st : Status) (s : State) : State :=
  let s1 := refuseAt e st 0 s
  startReplay .chunkFail (if s.fw.relay then s1 else releaseToken s1)

/-- FW_CHUNK. -/
def execFwChunk (s : State) : Host.Outcome State Fault Refusal :=
  .next (onCommand 0x0701 (fun e s =>
    let i := par e 0 4
    let n := par e 4 4
    if s.fw.state ≠ .transfer ∨ i ≠ nextChunk s.fw ∨ s.fw.beginChunks ≤ i then refuseAt e .invalidField 16 s
    else if n ≠ chunkLen s.fw.beginLen s.fw.beginChunks i then refuseAt e .invalidField 20 s
    else if !e.readIssued then cmdRead e (par e 8 8) n s
    else match takeChunk s i (landed e) with
      | .inl st => failTransfer e st s
      | .inr (f, []) => answer e .ok [] (logCommit e { s with fw := f })
      | .inr (f, ops) =>
        setEntry e.cid (fun x => { x with committed := true, reply := some (replyTo s e .ok 0 [] false) })
          (logCommit e (queueOps (withCid e.cid ops) { s with fw := f }))) s)

/-- The written image checked whole: STAGED, with its versions (R397). -/
def stage (f : Fw) : Fw := { f with state := .staged, stagedVersion := (imageInfo f).1, stagedSec := (imageInfo f).2.1, staging := [] }

/-- FW_END. -/
def execFwEnd (s : State) : Host.Outcome State Fault Refusal :=
  .next (onCommand 0x0702 (fun e s =>
    if s.fw.state ≠ .transfer ∧ s.fw.state ≠ .staged then refuseAt e .notPermitted 0 s
    else if s.fw.chunksDone ≠ s.fw.beginChunks then refuseAt e .invalidField 0xFFFFFFFF s
    else match imageFault s with
      | some st => failTransfer e st s
      | none =>
        let f := stage s.fw
        answer e .ok (leBytes 4 f.stagedVersion ++ leBytes 4 (counterOf s.nvm cntRollback)) (logCommit e { s with fw := f })) s)

/-- FW_ABORT: the reply follows the replay. -/
def execFwAbort (s : State) : Host.Outcome State Fault Refusal :=
  .next (onCommand 0x0706 (fun e s =>
    if s.fw.relay || !(s.fw.state == .transfer || s.fw.state == .staged || s.fw.state == .scheduled) then refuseAt e .notPermitted 0 s
    else setEntry e.cid (fun x => { x with committed := true }) (startReplay (.abort e.cid) (logCommit e s))) s)

/-! ### Activation (R403 to R408) -/

/-- The instant T in ns of gateway time. -/
def actNsAt (f : Fw) : Nat := f.actSec * 1000000000 + f.actNs

/-- The standby: the Scribe that does not own the baton. -/
def standby (s : State) : Nat := if batonOwner s = 0 then 1 else 0

/-- The activity ends with ACTIVATION_FAILED, the token is released and the journal replayed (R404). -/
def failActivation (s : State) : State :=
  let s1 := match s.fw.actCid.bind (entryOf s) with
    | some e => releaseToken (answer e .activationFailed [] s)
    | none => s
  startReplay .activationFail (endHold { s1 with fw := { s1.fw with actCid := none } })

/-- The Scribe part of the image written into the SRAM of a Scribe. -/
def loadScribe (k : Nat) (f : Fw) : Fw :=
  let b := Config.scribePart (imageBytes f)
  if k = 0 then { f with sramA := b } else { f with sramB := b }

/-- Preparation: the image verified again, its parts written into the standby's SRAM and the shadow bank, and the standby released on
it as SYNCING; a standby that is OFFLINE ends it (R404). -/
def prepare (now_ : Bool) (s : State) : State :=
  if imageFault s ≠ none ∨ scribeState s.baton (standby s) = .offline then failActivation s
  else { s with fw := { loadScribe (standby s) s.fw with
                          state := .preparing, prepAt := s.clk.now, immediate := now_, shadow := Config.microcodePart (imageBytes s.fw) }
                baton := setScribe (standby s) .syncing s.baton }

/-- ACTIVATE. -/
def execActivate (s : State) : Host.Outcome State Fault Refusal :=
  .next (onCommand 0x0703 (fun e s =>
    if s.fw.state ≠ .staged then refuseAt e .notPermitted 0 s
    else
      let s1 := setEntry e.cid (fun x => { x with committed := true }) { s with fw := { s.fw with actCid := some e.cid } }
      prepare true s1) s)

/-- An activation instant set: one already past acts as ACTIVATE; none where it is more than 7 days ahead (R403). -/
def schedule (sec ns : Nat) (s : State) : Option State :=
  let t := sec * 1000000000 + ns
  if gNs s + 604800000000000 < t then none
  else
    let s1 := { s with fw := { s.fw with actSec := sec, actNs := ns } }
    some (if t ≤ gNs s then prepare true s1 else { s1 with fw := { s1.fw with state := .scheduled, immediate := false } })

/-- ACTIVATE_AT. -/
def execActivateAt (s : State) : Host.Outcome State Fault Refusal :=
  .next (onCommand 0x0704 (fun e s =>
    if s.fw.state ≠ .staged then refuseAt e .notPermitted 0 s
    else
      (schedule (par e 0 8) (par e 8 4) (setEntry e.cid (fun x => { x with committed := true }) { s with fw := { s.fw with actCid := some e.cid } })).getD
        (refuseAt e .invalidField 16 s)) s)

/-- ACTIVATION_PREPARATION_START: at T - 100 ms. -/
def execActivationPreparationStart (s : State) : Host.Outcome State Fault Refusal :=
  .next (if running s && s.fw.state == .scheduled && decide (actNsAt s.fw ≤ gNs s + 100000000) then prepare false s else s)

/-- TOKEN_HOLD_WINDOW_START: from T - 400 ms of an activation that the relay scheduled (R408). -/
def execTokenHoldWindowStart (s : State) : Host.Outcome State Fault Refusal :=
  .next (if running s && s.fw.relay && (s.fw.state == .scheduled || s.fw.state == .preparing) && !s.fw.immediate
        && decide (actNsAt s.fw ≤ gNs s + 400000000) then
      { s with cmd := { s.cmd with tokenHold := true } }
    else s)

/-- ACTIVATION_READY_TIMEOUT: the standby is not READY 60 ms after the start of preparation. -/
def execActivationReadyTimeout (s : State) : Host.Outcome State Fault Refusal :=
  .next (if coreOn s && s.fw.state == .preparing && s.fw.pauseAt.isNone && scribeState s.baton (standby s) != .ready
        && decide (s.fw.prepAt + cyMs 60 ≤ s.clk.now) then
      failActivation s
    else s)

/-- No command but the activation's own holds the token. -/
def tokenFree (s : State) : Bool :=
  match s.cmd.token with
  | none => true
  | some t => t.holder.isNone || t.holder == s.fw.actCid

/-- The pause begins: ACTIVATED is programmed, and Needle admits nothing until its end (R405; 05 R133). -/
def beginPause (s : State) : State :=
  nvmQueue { work := .statusActivated }
    { s with fw := { s.fw with pauseAt := some s.clk.now, lateUs := if s.fw.immediate then 0 else (gNs s - actNsAt s.fw) / 1000 } }

/-- ACTIVATION_PAUSE_START: the standby READY, T reached, no unit under sweep test, and no other command with the token (R404,
R408; 03 R82). -/
def execActivationPauseStart (s : State) : Host.Outcome State Fault Refusal :=
  .next (if running s && s.fw.state == .preparing && s.fw.pauseAt.isNone && scribeState s.baton (standby s) == .ready
        && (s.fw.immediate || decide (actNsAt s.fw ≤ gNs s)) && s.darn.test.isNone && tokenFree s then
      beginPause s
    else s)

/-- Every unit, for the rollover. -/
def allUnits (s : State) : List Nat := s.eng.units.map (·.1)

/-- The pause ends with the new owner running: the shadow bank is active, the baton is awarded unless a lapse did so, the old owner is
reloaded and restarts as SYNCING, the reply is posted, and probation and rollover start (R405, R407, R409). -/
def endPause (s : State) : State :=
  match s.fw.pauseAt with
  | none => s
  | some t =>
    let old := batonOwner s
    let b := if s.fw.awarded then s.baton else setScribe old .syncing (award s.clk.now (standby s) s.baton)
    let i := imageInfo s.fw
    let f := { closeTransfer (loadScribe (if s.fw.awarded then standby s else old) s.fw) with
      micro := s.fw.shadow, shadow := s.fw.micro, state := .probation, digest := imageDigest s.fw, runVersion := i.1, runSec := i.2.1, runProbation := i.2.2, probationEnd := s.clk.now + cyMs (1000 * i.2.2)
      trial := if s.fw.relay then some s.fw.campaign else none
      selfDone := false, selfPass := false, rollDone := false, pauseAt := none, lastPauseUs := (s.clk.now - t) / 1500
      activations := satAdd 16 s.fw.activations 1, rollLeft := allUnits s, rolling := [] }
    let s1 := { s with baton := b, fw := f, eng := { s.eng with units := tmap s.eng.units (fun _ u => { u with microcodeOld := true }) } }
    let s2 := match s.fw.actCid.bind (entryOf s1) with
      | some e => releaseToken (answer e .ok [] (logCommit e s1))
      | none => s1
    endHold s2

/-! ### Probation (R409, R410) -/

/-- CONFIRM_HEALTH: it waits for the self-check and the rollover; CONFIRMED, then the ROLLBACK record. -/
def execConfirmHealth (s : State) : Host.Outcome State Fault Refusal :=
  .next (onCommand 0x0705 (fun e s =>
    if s.fw.state ≠ .probation then refuseAt e .notPermitted 0 s
    else if !(s.fw.selfPass && s.fw.rollDone) then s
    else
      let v := max (counterOf s.nvm cntRollback) s.fw.runSec
      setEntry e.cid (fun x => { x with committed := true, reply := some (replyTo s e .ok 0 [] false) })
        (logCommit e (queueOps [{ work := .statusConfirmed }, { work := .counterProgram cntRollback v, cid := some e.cid }] s))) s)

/-! ### The rollover of the microcode (R407) -/

/-- A unit off the list of those to reload, and with the last one the rollover is done. -/
def offRollover (c : Nat) (s : State) : State :=
  let left := s.fw.rollLeft.filter (· != c)
  { s with fw := { s.fw with rollLeft := left, rolling := tdel s.fw.rolling c, rollDone := s.fw.rollDone || left.isEmpty }
           eng := modUnit c (fun u => { u with microcodeOld := false }) s.eng }

/-- A unit reloaded in place, or as the SPARE that it is; one whose readback differs stays out of service (14 R362). -/
def reloaded (l : List Readback) (c : Nat) (s : State) : State := offRollover c (returnUnit l c id s)

/-- A unit back from its reload, as from repair (13 R341): SPARE, or paired again with the partner that left with it. -/
def returnReloaded (l : List Readback) (c : Nat) (s : State) : State :=
  let before := spareCount s.eng.units (unitKind c)
  let s1 := match tget s.fw.rolling c with
    | some p => returnPair l c p s
    | none => returnUnit l c (backAsSpare c) s
  settle (unitKind c) before (advanceGen c (offRollover c s1))

/-- MICROCODE_ROLLOVER_UNIT: a unit of a kind at a time is withdrawn, and at a second event, its drain over, returns reloaded;
a spare is reloaded at once, a retired or isolated unit in place. -/
def execMicrocodeRolloverUnit (unit : Reload) (s : State) : Host.Outcome State Fault Refusal :=
  let c := unit.engsel.toNat
  if !engselValid c then .fault .malformed
  else .next (if working s && s.fw.rollLeft.contains c then
      let u := unitOf s c
      let out := s.darn.test.any (fun t => t.unit == c) || s.darn.tests2.any (fun t => t.unit == c)
      if roleGone u.role then reloaded unit.readback c s
      else if u.role = .underTest then (if out then s else returnReloaded unit.readback c s)
      else if kindBusy s (unitKind c) then s
      else if u.role = .spare ∧ (jobsOn s c).isEmpty then
        let before := spareCount s.eng.units (unitKind c)
        spareAlert (unitKind c) before (advanceGen c (reloaded unit.readback c s))
      else withdraw c .rollover s
    else s)

/-! ### The Cable relay (R399 to R402) -/

/-- Fields of a relay packet. -/
def relayKind (b : Bytes) : Nat := fld b 4 1
def relayHop (b : Bytes) : Nat := fld b 5 1
def relayCampaign (b : Bytes) : Nat := fld b 8 4
def relayIndex (b : Bytes) : Nat := fld b 12 4
def relayBody (b : Bytes) : Bytes := b.drop 32

/-- Whether a packet has the form of Tables 16-2 and 16-3. -/
def relayFormOk (b : Bytes) : Bool :=
  let k := relayKind b
  let n := (relayBody b).length
  fld b 0 4 == 0x4B524C31 && decide (1 ≤ k) && decide (k ≤ 4) && decide (relayHop b < 64) && allZero (slice b 6 2) && relayCampaign b != 0
    && (k == 2 || relayIndex b == 0) && allZero (slice b 20 12)
    && (match k with
        | 1 => n % 64 == 0 && decide (n / 64 ≤ 63)
        | 2 => decide (64 ≤ n) && decide (n ≤ 4096)
        | 3 => n == 16 && decide (fld b 32 8 < 2 ^ 48) && fld b 44 4 == 0
        | _ => n == 0)

/-- The record that the block appends to a SURVEY. -/
def surveyRecord (s : State) (b : Bytes) : Bytes :=
  leBytes 1 (relayHop b) ++ leBytes 1 s.fw.state.code ++ leBytes 2 s.fw.chunksDone ++ leBytes 4 s.fw.runVersion ++ leBytes 4 s.fw.runSec
    ++ leBytes 4 s.fw.stagedVersion ++ leBytes 8 (counterOf s.nvm cntRollback) ++ leBytes 4 s.fw.campaign ++ zeros 4 ++ (sha384 s.id.cert).take 32

/-- The packet for the next hop. -/
def relayOut (s : State) (b : Bytes) : Bytes :=
  let body := relayBody b ++ (if relayKind b = 1 then surveyRecord s b else [])
  b.take 5 ++ leBytes 1 (relayHop b + 1) ++ slice b 6 10 ++ leBytes 4 body.length ++ slice b 20 12 ++ body

def relayOutLen (b : Bytes) : Nat := if relayHop b = 63 then 0 else b.length + (if relayKind b = 1 then 64 else 0)

/-- The packet forwarded and the reply (R400). -/
def relayForward (e : CmdEntry) (b : Bytes) (s : State) : State :=
  let n := relayOutLen b
  let s1 := logCommit e { s with fw := { s.fw with hop := relayHop b } }
  if n = 0 then answer e .ok (leBytes 4 0) s1 else cmdWrite e (par e 16 8) (relayOut s b) (replyTo s e .ok 0 (leBytes 4 n) false) s1

/-- After the writes of a chunk: with the last one the image is checked whole and STAGED (Table 16-3). -/
def relayWritten (e : CmdEntry) (b : Bytes) (s : State) : State :=
  if relayKind b = 2 ∧ s.fw.state = .transfer ∧ s.fw.chunksDone = s.fw.beginChunks ∧ s.fw.beginChunks ≠ 0 then
    (match imageFault s with
     | some st => failTransfer e st s
     | none => relayForward e b { s with fw := stage s.fw })
  else relayForward e b s

/-- A chunk in its turn (R400, R401). -/
def relayChunk (e : CmdEntry) (b : Bytes) (s : State) : State :=
  let i := relayIndex b
  let body := relayBody b
  let wait := fun (ops : List NvmOp) (f : Fw) =>
    setEntry e.cid (fun x => { x with committed := true, phase := 3 }) (queueOps (withCid e.cid ops) { s with fw := f })
  if s.fw.state = .idle then
    (if i ≠ 0 ∨ body.length ≠ 4096 then refuseAt e .invalidField 0xFFFFFFFF s
     else
       let f := { closeTransfer s.fw with state := .transfer, relay := true, campaign := relayCampaign b }
       match takeChunk { s with fw := f } 0 body with
       | .inl st => refuseAt e st 0 s
       | .inr (g, _) => wait (openOps s.fw) g)
  else if !s.fw.relay || s.fw.campaign != relayCampaign b || !(s.fw.state == .transfer || s.fw.state == .staged || s.fw.state == .scheduled) then
    refuseAt e .notPermitted 0 s
  else if s.fw.state ≠ .transfer ∨ i ≠ nextChunk s.fw ∨ s.fw.beginChunks ≤ i
      ∨ body.length ≠ (if i < 2 then 4096 else chunkLen s.fw.beginLen s.fw.beginChunks i) then refuseAt e .invalidField 0xFFFFFFFF s
  else match takeChunk s i body with
    | .inl st => failTransfer e st s
    | .inr (f, []) => relayWritten e b { s with fw := f }
    | .inr (f, ops) => wait ops f

/-- SCHEDULE: the instant set or replaced, as ACTIVATE_AT would. -/
def relaySchedule (e : CmdEntry) (b : Bytes) (s : State) : State :=
  if !s.fw.relay || s.fw.campaign != relayCampaign b || !(s.fw.state == .staged || s.fw.state == .scheduled) then refuseAt e .notPermitted 0 s
  else if 1000000000 ≤ fld b 40 4 then refuseAt e .invalidField 0xFFFFFFFF s
  else match schedule (fld b 32 8) (fld b 40 4) s with
    | none => refuseAt e .invalidField 0xFFFFFFFF s
    | some s1 => relayForward e b s1

/-- ABORT: for its campaign the journal is replayed, and the reply follows; refused in probation (R413). -/
def relayAbort (e : CmdEntry) (b : Bytes) (s : State) : State :=
  if s.fw.state = .probation ∧ s.fw.trial = some (relayCampaign b) then refuseAt e .notPermitted 0 s else
  if s.fw.relay && s.fw.campaign == relayCampaign b
      && (s.fw.state == .transfer || s.fw.state == .staged || s.fw.state == .scheduled || (s.fw.state == .preparing && s.fw.pauseAt.isNone)) then
    setEntry e.cid (fun x => { x with committed := true }) (startReplay (.relayAbort e.cid) (endHold s))
  else relayForward e b s

/-- RELAY_PACKET: the packet is read once, checked, acted on and passed on. -/
def execRelayPacket (s : State) : Host.Outcome State Fault Refusal :=
  .next (onCommand 0x0707 (fun e s =>
    let n := par e 8 4
    if n < 32 ∨ 4128 < n then refuseAt e .invalidField 24 s
    else if !e.readIssued then cmdRead e (par e 0 8) n s
    else
      let b := landed e
      if e.phase = 3 then relayWritten e b s
      else if fld b 16 4 + 32 ≠ n then refuseAt e .invalidField 24 s
      else if !relayFormOk b then refuseAt e .invalidField 0xFFFFFFFF s
      else if par e 24 4 < relayOutLen b then refuseAt e .invalidField 40 s
      else match relayKind b with
        | 1 => relayForward e b s
        | 2 => relayChunk e b s
        | 3 => relaySchedule e b s
        | _ => relayAbort e b s) s)

end Sys2Proof.Machine
end

