-- ==== Sys2Proof/Machine/Reset.lean ====
section
/-! DEFINITION. What the two resets and the loss of VDD_AON do to the state (02 R55, R56; 04 R105; 05 R149, R153; 06 R172, R182; 12
R329; 14 R351, R352; 15 R375 to R381; 19 R455). -/
namespace Sys2Proof.Machine

/-! ### The NVM at a cut (R376 to R381) -/

/-- The two-copy objects of the identity area after the erase of one of its sectors (18 R446). -/
def eraseIdent (l : Nat) (x : Ident) : Ident :=
  if l = 962 ∨ l = 963 then { x with prov := tdel x.prov 0 }
  else if l = 964 ∨ l = 965 then { x with prov := tdel x.prov 1 }
  else if l = 966 then { x with pairs := tdel x.pairs 0 }
  else if l = 967 then { x with pairs := tdel x.pairs 1 }
  else x

/-- The records that still win; of the others, a free choice tells which stood in the sector erased (R379, R187). -/
def keptKeys (s : State) : List KeyRec :=
  let f := freeBytes s s.nvm.keys.length
  ((s.nvm.keys.zip f).filter (fun p =>
    let r := p.1
    (r.complete && !s.nvm.keys.any (fun q => q.id == r.id && q.complete && decide (r.version < q.version))) || p.2.getLsbD 0)).map (·.1)

/-- What was stored in a logical sector goes with its erase; in a log, the records that win were rewritten ahead. -/
def eraseContent (l : Nat) (s : State) : State :=
  if l < 384 then
    { s with fw := { s.fw with image := tput s.fw.image l [], activated := s.fw.activated && l != 1, confirmed := s.fw.confirmed && l != 1 } }
  else if l < 768 then { s with fw := { s.fw with journal := tdel s.fw.journal (l - 384) } }
  else if l = 768 ∨ l = 800 then { s with nvm := { s.nvm with banks := tdel s.nvm.banks (if l = 768 then 0 else 1) } }
  else if 832 ≤ l ∧ l < 960 then useFree s.nvm.keys.length { s with nvm := { s.nvm with keys := keptKeys s } }
  else { s with id := eraseIdent l s.id }

/-- The contents of an image sector, of a journal sector or of STATUS, written (16 R388, R392). -/
def imageEffect (w : NvmWork) (f : Fw) : Fw :=
  match w with
  | .imageProgram i d =>
    if i = 1 then { f with image := tput f.image 1 d, activated := false, confirmed := false } else { f with image := tput f.image i d }
  | .journalProgram i d =>
    if i = 1 then { f with journal := tput f.journal 1 d, jActivated := f.activated, jConfirmed := f.confirmed }
    else { f with journal := tput f.journal i d }
  | .statusActivated => { f with activated := true }
  | .statusConfirmed => { f with confirmed := true }
  | _ => f

/-- An image or journal operation. -/
def imageWork (w : NvmWork) : Bool :=
  match w with
  | .imageProgram _ _ | .journalProgram _ _ | .statusActivated | .statusConfirmed => true
  | .eraseSector l => decide (l < 768)
  | _ => false

/-- A sector marked as half-erased. -/
def markHalf (l : Nat) (s : State) : State :=
  let p := physOf s.nvm l
  { s with nvm := putSector p { sectorOf s.nvm p with state := .halfErased, logical := l, intent := true } s.nvm }

/-- The operation that a loss of VDD_AON cuts off: a free value tells how far it had come (R377, R379, R381; 16 R394; 18 R441,
R446). A record without a verified marker does not count. -/
def cutOp (o : NvmOp) (s0 : State) : State :=
  let v := leNat (freeBytes s0 1)
  let s := useFree 1 s0
  let go := v % 2 == 1
  match o.work with
  | .keyProgram r => if go then { s with nvm := { s.nvm with keys := s.nvm.keys ++ [{ r with complete := false }] } } else s
  | .bankProgram b n x =>
    if go then { s with nvm := { s.nvm with banks := tput s.nvm.banks b { version := some n, complete := false, body := x } } } else s
  | .counterProgram i n => if go then { s with nvm := { s.nvm with torn := tput s.nvm.torn i n } } else s
  | .eraseSector l => if go then markHalf l (eraseContent l s) else s
  | .imageProgram i d => { s with fw := { s.fw with image := tput s.fw.image i (d.take (128 * (v % 33))) } }
  | .provCopy c d => if go then { s with id := { s.id with prov := tput s.id.prov c d } } else s
  | .pairCopy c d => if go then { s with id := { s.id with pairs := tput s.id.pairs c d } } else s
  | .journalProgram _ _ | .statusActivated | .statusConfirmed => if go then { s with fw := imageEffect o.work s.fw } else s
  | _ => s

/-- The NVM controller's working state gone: its queue, its counts since the start, and its view of the settings. -/
def nvmRestart (n : Nvm) : Nvm :=
  { n with ops := [], sectors := tmap n.sectors (fun _ x => { x with corrections := 0 }), settingsDefault := false, activeBank := 0
           brownout := false, lowSince := 0, erases := 0, halfErased := 0, corrected := 0, uncorrectable := 0 }

/-! ### The parts that no reset changes -/

/-- The firmware state that lies in the NVM, and what survives CORE_RST_N (16 R414). -/
def fwKept (f : Fw) : Fw :=
  { image := f.image, journal := f.journal, activated := f.activated, confirmed := f.confirmed, jActivated := f.jActivated
    jConfirmed := f.jConfirmed, digest := f.digest, runVersion := f.runVersion, runSec := f.runSec, runProbation := f.runProbation
    lastFallback := f.lastFallback, fallbackCause := f.fallbackCause, activations := f.activations, fallbacks := f.fallbacks }

/-- The identity area. -/
def idKept (x : Ident) : Ident := { cert := x.cert, prov := x.prov, pairs := x.pairs, transitions := x.transitions }

/-- Fuse repairs of the SRAM arrays (13 R344). -/
def arraysKept (t : Tbl SArray) : Tbl SArray := tmap t (fun _ a => { fuse := a.fuse })

/-- A FAILED cell stays FAILED until AON_PORST_N (10 R267). -/
def cellsKept (t : Tbl Cell) : Tbl Cell := tmap t (fun _ c => if c.state = .failed then { state := .failed } else {})

/-! ### CORE_RST_N (02 R55) -/

/-- Sticky is kept; everything else of the source goes (12 R329). -/
def fltReset (f : Flt) : Flt := { sources := tmap f.sources (fun _ r => { sticky := r.sticky }) }

/-- The operations that commands wait for go on without them; what a firmware transfer has queued and not begun is dropped, and an
image operation under way is completed (15 R375). -/
def settleOps (s : State) : State :=
  let s1 := match s.nvm.ops with
    | o :: _ => if imageWork o.work then (match o.work with
        | .eraseSector l => eraseContent l s
        | w => { s with fw := imageEffect w s.fw }) else s
    | [] => s
  { s1 with nvm := { s1.nvm with ops := (s1.nvm.ops.filter (fun o => !imageWork o.work)).map (fun o => { o with cid := none }) } }

/-- The epochs after CORE_RST_N: a running epoch keeps its number and end, and the one after it takes the stored ceiling, at least 1; counts
since the last record are lost, and PHASE is that of the slot at TAIL (05 R118, R149, R153). -/
def resetEpochs (s : State) : Epochs :=
  let next := fun (id : Nat) (e : Epoch) => if e.running then { e with chosen := some (max (counterOf s.nvm id) 1) } else e
  { s.ep with
    acct := next cntAcct s.ep.acct, key := next cntKey s.ep.key, issued := s.ep.tail, resetGap := true
    phase := if s.ep.issued < s.ep.tail then !s.ep.phase else s.ep.phase
    closing := [], cur := { s.ep.cur with ports := [], merged := false } }

/-- CORE_RST_N: every island but AON and RES is reset; what each register keeps is as Table 19-3 states. -/
def coreReset (s0 : State) : State :=
  let s := settleOps s0
  { s with
    pins := { s.pins with coreInReset := true }
    fab := { ports := tmap s.fab.ports (fun _ p => { rstLow := p.rstLow, clkLost := p.clkLost }) }
    cmd := { nextCid := s.cmd.nextCid, adminGen := s.cmd.adminGen + 1, commitLog := s.cmd.commitLog }
    ports := []
    rings := []
    skein := {}
    jobs := []
    merge := []
    eng := { units := State.deliveredUnits, configGen := s.eng.configGen }
    keys := { s.keys with
      carveReady := false
      slots := tmap s.keys.slots (fun _ x => { x with reading := false })
      sessions := tmap s.keys.sessions (fun _ r => lostSession r) }
    ep := resetEpochs s
    chans := State.reset.chans
    flt := fltReset s.flt
    darn := { arrays := arraysKept s.darn.arrays }
    rng := { State.reset.rng with cells := cellsKept s.rng.cells, inkLost := s.rng.inkLost }
    pwr := { lastWake := s.pwr.lastWake, deepest := s.pwr.deepest, idleUs := s.pwr.idleUs, wakes := s.pwr.wakes
             abandoned := s.pwr.abandoned, fsCause := s.pwr.fsCause, afterPor := s.pwr.afterPor, porch := s.pwr.porch
             crpWait := s.pwr.crpWait }
    baton := { s.baton with a := .off, b := .off, stale := 0 }
    fw := fwKept s.fw
    id := idKept s.id
    fol := { seated := s.fol.seated }
    link := State.reset.link
    regs := { sectorSel := s.regs.sectorSel } }

/-! ### AON_PORST_N and the loss of VDD_AON -/

/-- The whole block reset: what the NVM and the fuses hold stays, and the operation under way is cut off (02 R55; 14 R352). -/
def fullReset (powered : Bool) (s0 : State) : State :=
  let s := match s0.nvm.ops with
    | o :: _ => if aonOn s0 then cutOp o s0 else s0
    | [] => s0
  { State.reset with
    pending := s.pending
    pins := { s.pins with powered := powered, coreInReset := true, rbMismatch := false, pllLost := false, laneRefLost := false, tapIr := .idcode }
    clk := { now := 0, free := s.clk.free }
    fab := { ports := tmap s.fab.ports (fun _ p => { rstLow := p.rstLow, clkLost := p.clkLost }) }
    darn := { arrays := arraysKept s.darn.arrays }
    rng := { State.reset.rng with inkLost := s.rng.inkLost }
    nvm := nvmRestart s.nvm
    fuse := s.fuse
    fw := { fwKept s.fw with digest := [], lastFallback := 0, fallbackCause := 0, activations := 0, fallbacks := 0 }
    id := idKept s.id
    fol := { seated := s.fol.seated } }

/-- AON_POWER_ON_RESET: released with CORE_RST_N still low (Table 2-11). -/
def execAonPowerOnReset (s : State) : Host.Outcome State Fault Refusal := .next (fullReset true s)

/-- VDD_AON_REMOVED: P4. -/
def execVddAonRemoved (s : State) : Host.Outcome State Fault Refusal := .next (fullReset false s)

/-- CORE_RESET_ASSERT. The clocks that were lost count as present again until a loss is reported anew (log 39). -/
def execCoreResetAssert (s : State) : Host.Outcome State Fault Refusal :=
  .next (if aonOn s then
      let s1 := { s with pins := { s.pins with pllLost := false, laneRefLost := false } }
      if s.pins.coreInReset then s1 else coreReset s1
    else s)

end Sys2Proof.Machine
end

