-- ==== Sys2Proof/Machine/Storage.lean ====
section
/-! DEFINITION. The NVM controller's operations: programs, markers, erases, log compaction and brown-out (15 R372, R375 to R382; 06
R186; 16 R392, R405, R410; 18 R441, R446). -/
namespace Sys2Proof.Machine

/-! ### Verified operations (R379) -/

def setOps (l : List NvmOp) (s : State) : State := { s with nvm := { s.nvm with ops := l } }

/-- A record in force. -/
def recordEffect (w : NvmWork) (s : State) : State :=
  match w with
  | .rolesRecord u r => { s with nvm := { s.nvm with roles := match r with
      | some x => tput s.nvm.roles u x
      | none => tdel s.nvm.roles u } }
  | .repairRecord a row =>
    { s with nvm := { s.nvm with repairs := s.nvm.repairs ++ [(a, row)] }, darn := { s.darn with unrecorded := s.darn.unrecorded - 1 } }
  | .versionTree => { s with nvm := { s.nvm with verTree := s.keys.versions } }
  | _ => s

/-- The COMPLETE marker of a key record. -/
def completeKey (id version : Nat) (n : Nvm) : Nvm :=
  { n with keys := n.keys.map (fun r => if r.id = id ∧ r.version = version then { r with complete := true } else r) }

/-- A counter record in force: a counter never decreases (R381). With it a CONFIRM_HEALTH that waits ends probation (16 R410). -/
def counterEffect (cid : Option Nat) (id value : Nat) (s : State) : State :=
  let ends := match cid.bind (entryOf s) with
    | some e => e.opcode == 0x0705
    | none => false
  { s with nvm := { s.nvm with counters := tput s.nvm.counters id (max (counterOf s.nvm id) value), torn := tdel s.nvm.torn id }
           fw := if ends then { s.fw with state := .idle, rollDone := s.fw.rollDone } else s.fw }

/-- A settings bank in force and active, with the commit of its command (R384). -/
def bankEffect (cid : Option Nat) (b version : Nat) (s : State) : State :=
  let n := { s.nvm with banks := tmod s.nvm.banks b (fun x => if x.version = some version then { x with complete := true } else x), activeBank := b }
  match cid.bind (entryOf s) with
  | some e => logCommit e { s with nvm := n }
  | none => { s with nvm := n }

/-- A lifecycle transition after its record: the fuses, and the reset (18 R441). -/
def transitionEffect (source target boot : Nat) (digest : Bytes) (s : State) : State :=
  let s1 := { s with id := { s.id with transitions := s.id.transitions ++ [(source, target, boot, digest)] }
                     fuse := { s.fuse with lifecycle := if s.fuse.lifecycle = source then target else s.fuse.lifecycle } }
  coreReset s1

/-- A chunk written (16 R391). -/
def chunkWritten (cid : Option Nat) (i : Nat) (s : State) : State :=
  if cid.isSome ∧ s.fw.state = .transfer then { s with fw := { s.fw with chunksDone := max 2 (i + 1) } } else s

/-- The operation at the head, verified, with the rest of the queue: its effect, and what follows it. -/
def verified (o : NvmOp) (rest : List NvmOp) (s : State) : State :=
  match o.work with
  | .keyProgram r =>
    setOps ({ work := .keyMarker r.id r.version, cid := o.cid } :: rest) { s with nvm := { s.nvm with keys := s.nvm.keys ++ [{ r with complete := false }] } }
  | .keyMarker id v => nvmDone o.cid (setOps rest { s with nvm := completeKey id v s.nvm })
  | .counterProgram id v =>
    setOps ({ work := .counterMarker id v, cid := o.cid } :: rest) { s with nvm := { s.nvm with torn := tput s.nvm.torn id v } }
  | .counterMarker id v => nvmDone o.cid (setOps rest (counterEffect o.cid id v s))
  | .bankProgram b v x =>
    setOps ({ work := .bankMarker b v, cid := o.cid } :: rest)
      { s with nvm := { s.nvm with banks := tput s.nvm.banks b { version := some v, complete := false, body := x } } }
  | .bankMarker b v => nvmDone o.cid (setOps rest (bankEffect o.cid b v s))
  | .rolesRecord _ _ | .repairRecord _ _ | .versionTree =>
    if o.stage = 0 then setOps ({ o with stage := 1, fails := 0 } :: rest) s else nvmDone o.cid (setOps rest (recordEffect o.work s))
  | .imageProgram i _ => nvmDone o.cid (chunkWritten o.cid i (setOps rest { s with fw := imageEffect o.work s.fw }))
  | .journalProgram _ _ | .statusConfirmed => nvmDone o.cid (setOps rest { s with fw := imageEffect o.work s.fw })
  | .statusActivated => endPause (setOps rest { s with fw := imageEffect o.work s.fw })
  | .provCopy c d => nvmDone o.cid (setOps rest { s with id := { s.id with prov := tput s.id.prov c d } })
  | .pairCopy c d => nvmDone o.cid (setOps rest { s with id := { s.id with pairs := tput s.id.pairs c d } })
  | .transition a b n d => transitionEffect a b n d (setOps rest s)
  | .eraseSector _ => s

/-- An operation that failed its verify: the second failure retires the sector, and one that is BAD takes no write (R378). -/
def failedVerify (l : Nat) (o : NvmOp) (rest : List NvmOp) (s : State) : State :=
  if o.fails = 0 then setOps ({ o with fails := 1 } :: rest) s
  else
    let s1 := retireSector l s
    if sectorBad s1.nvm l then nvmFail o rest s1 else setOps ({ o with fails := 0 } :: rest) s1

/-- A word that cannot be corrected (R372): the record at hand counts as incomplete. -/
def uncorrectableWord (l : Nat) (s : State) : State :=
  raiseEvent 0x0D0 kStorage (physOf s.nvm l) { s with nvm := { s.nvm with uncorrectable := satAdd 32 s.nvm.uncorrectable 1 } }

/-- Whether the controller works: VDD_AON there, and VDD_NVM (R380). -/
def nvmWorks (s : State) : Bool := aonOn s && !s.pins.nvmLow

def isErase (w : NvmWork) : Bool :=
  match w with
  | .eraseSector _ => true
  | _ => false

/-- NVM_OPERATION_COMPLETE: the program or marker at the head of the queue ends, and its margin read finds it good or not. -/
def execNvmOperationComplete (result : NvmResult) (s : State) : Host.Outcome State Fault Refusal :=
  .next (match s.nvm.ops with
    | [] => s
    | o :: rest =>
      if !nvmWorks s || isErase o.work then s
      else
        let l := workSector o.work (leNat (freeBytes s 1))
        let s0 := useFree 1 s
        if sectorBad s0.nvm l then nvmFail o rest s0
        else match result with
          | .verified => verified o rest s0
          | .corrected => verified o rest (correctSector l s0)
          | .verifyFailed => failedVerify l o rest s0
          | .uncorrectable => failedVerify l o rest (uncorrectableWord l s0))

/-! ### Erases (R376 to R378) -/

/-- Erases of a sector counted, and its mark as half-erased taken away. -/
def countErases (l k : Nat) (s : State) : State :=
  let p := physOf s.nvm l
  let x := sectorOf s.nvm p
  let was := x.state == .halfErased
  let n := putSector p { x with erases := x.erases + k, logical := l, intent := false, state := if was then .mapped else x.state } s.nvm
  { s with nvm := { n with erases := (n.erases + k) % 2 ^ 32, halfErased := if was then satAdd 16 n.halfErased 1 else n.halfErased } }

/-- The sector is retired by its blank check, or by its erase count. -/
def eraseRetire (l : Nat) (blank : Bool) (s : State) : State :=
  if !blank || decide (100000 ≤ (sectorOf s.nvm (physOf s.nvm l)).erases) then retireSector l s else s

/-- NVM_ERASE_COMPLETE: the erase at the head of the queue, once or, after a failed blank check, twice. -/
def execNvmEraseComplete (blankFirst blankSecond : Bool) (s : State) : Host.Outcome State Fault Refusal :=
  .next (match s.nvm.ops with
    | [] => s
    | o :: rest =>
      match o.work with
      | .eraseSector l =>
        if !nvmWorks s then s
        else if sectorBad s.nvm l then nvmFail o rest s
        else
          let s1 := eraseRetire l (blankFirst || blankSecond) (countErases l (if blankFirst then 1 else 2) (eraseContent l s))
          if sectorBad s1.nvm l && !(blankFirst || blankSecond) then nvmFail o rest s1 else nvmDone o.cid (setOps rest s1)
      | _ => s)

/-- First sector and number of sectors of a log (Tables 15-2, 15-3). -/
def logArea (log : NvmLog) : Nat × Nat :=
  match log with
  | .sectorMap => (968, 8)
  | .marker => (976, 8)
  | .counter => (984, 16)
  | .repair => (1000, 8)
  | .versionTree => (1008, 8)
  | .keyArchive => (832, 128)

/-- LOG_COMPACTION: the records of the oldest sector that win are rewritten ahead, unchanged, and its erase is requested; which
sector is the oldest is a free value. -/
def execLogCompaction (log : NvmLog) (s : State) : Host.Outcome State Fault Refusal :=
  let a := logArea log
  .next (if nvmWorks s then
      nvmQueue { work := .eraseSector (a.1 + leNat (freeBytes s 1) % a.2) } (useFree 1 s)
    else s)

/-! ### Brown-out (R380) -/

/-- VDD_NVM_BROWNOUT. -/
def execVddNvmBrownout (s : State) : Host.Outcome State Fault Refusal :=
  .next (if aonOn s && !s.pins.nvmLow then
      { s with pins := { s.pins with nvmLow := true }, nvm := { s.nvm with brownout := true, lowSince := s.clk.now } }
    else s)

/-- The stopped operation starts again from its beginning: a program is a record written afresh, and the torn one stays incomplete. -/
def restartOp (o : NvmOp) (s : State) : State :=
  let rest := s.nvm.ops.drop 1
  match o.work with
  | .keyMarker id v =>
    (match s.nvm.keys.find? (fun r => r.id == id && r.version == v) with
     | some r => setOps ({ o with work := .keyProgram { r with complete := false } } :: rest)
         { s with nvm := { s.nvm with keys := s.nvm.keys.filter (fun x => !(x.id == id && x.version == v)) } }
     | none => s)
  | .counterMarker id v => setOps ({ o with work := .counterProgram id v } :: rest) s
  | .bankMarker b v => setOps ({ o with work := .bankProgram b v ((tget s.nvm.banks b).getD {}).body } :: rest) s
  | _ => setOps ({ o with stage := 0, fails := 0 } :: rest) s

/-- VDD_NVM_RECOVER. -/
def execVddNvmRecover (s : State) : Host.Outcome State Fault Refusal :=
  .next (if aonOn s && s.pins.nvmLow then
      let s1 := { s with pins := { s.pins with nvmLow := false }, nvm := { s.nvm with brownout := false } }
      match s1.nvm.ops with
      | [] => s1
      | o :: _ => restartOp o s1
    else s)

/-- The commands that wait on the controller. -/
def nvmWaiters (s : State) : List CmdEntry :=
  s.cmd.exec.filter (fun e => s.nvm.ops.any (fun o => o.cid == some e.cid))

/-- VDD_NVM_LOW_TIMEOUT: low for 1 s; the operations stay queued, without the commands. -/
def execVddNvmLowTimeout (s : State) : Host.Outcome State Fault Refusal :=
  .next (if aonOn s && s.pins.nvmLow && decide (s.nvm.lowSince + cyMs 1000 ≤ s.clk.now) then
      let s1 := (nvmWaiters s).foldl (fun a e => answer e .unitFault [] a) s
      raiseEvent 0x0D0 kStorage 0
        { s1 with nvm := { s1.nvm with lowSince := s.clk.now, ops := s1.nvm.ops.map (fun o => { o with cid := none }) } }
    else s)

end Sys2Proof.Machine
end

