-- ==== Sys2Proof/Machine/Identity.lean ====
section
/-! DEFINITION. Identity: lifecycle states, the identity operations of the GLB_IDOP registers, and the test access port (18 R440 to
R449; 02 R57). -/
namespace Sys2Proof.Machine

/-! ### Signed objects (R443, R444) -/

/-- Bytes of the signature trailer. -/
def objTrailer : Nat := 3405

/-- MAGIC and FORMAT of a signed part. -/
def objHead (magic : Nat) : Bytes := leBytes 4 magic ++ leBytes 1 1

/-- Both signatures of an object verify under a P-384 key and an ML-DSA-65 key. -/
def objSigned (p384 mldsa obj : Bytes) : Bool :=
  let n := obj.length - objTrailer
  Config.verifySignature p384 (obj.take n) (slice obj n 96) && Config.verifySignature mldsa (obj.take n) (obj.drop (n + 96))

/-- An object of the MAGIC given, signed by the operator key of a provisioning bundle. -/
def operatorSigned (prov : Option Bytes) (magic : Nat) (obj : Bytes) : Bool :=
  match prov with
  | none => false
  | some b => obj.take 5 == objHead magic && objSigned (slice b 60 97) (slice b 157 1952) obj

/-! ### Hook jobs of the block (R445; 05 R131) -/

/-- Engine time of the two signatures made, and of the two verified, in HOOK cycles (09 Table 9-7). -/
def signCycles : Nat := 136000 + 272 + (2400000 + 272)
def verifyCycles : Nat := 224000 + 272 + (79600 + 272)

/-- The hook whose free(u) is earliest, one that replaces a withdrawn hook in its place, booked for a number of cycles; none while no hook is
in service. -/
def bookHook (cycles : Nat) (s : State) : Option State :=
  match leastBy (candFree s) ((placeable s 2).map (fun c => (effUnit s c, none))) with
  | none => none
  | some c => some { s with eng := modUnit c.1 (fun v => { v with freeAt := candFree s c + cyHook cycles }) s.eng }

/-- The block's Hook work done first; while none is in service the command waits, and with none left it fails. -/
def onHook (e : CmdEntry) (cycles : Nat) (f : State → State) (s : State) : State :=
  match bookHook cycles s with
  | some s1 => f s1
  | none => if noneLeft s 2 then answer e .unitFault [] s else s

/-- One signature attempt with the keys of the identity seeds (06 Table 6-1). -/
def trySign (msg draw : Bytes) : Option Bytes :=
  if Config.sampleExhausted 0x3B 0x21 msg kIdMldsa draw then none else some (msg ++ padTo objTrailer (Config.identitySign kIdP384 kIdMldsa msg draw))

/-- The signature over a message, with a second attempt where the first meets SAMPLE_EXHAUSTED; none where both do. Each attempt
draws from FEED_7. -/
def signObject (msg : Bytes) (s : State) : Option Bytes × State :=
  let d1 := freeBytes s 80
  let s1 := feedDraw 7 (feedDraw 7 (useFree 80 s))
  match trySign msg d1 with
  | some x => (some x, s1)
  | none =>
    let d2 := freeBytes s1 32
    (trySign msg d2, feedDraw 7 (useFree 32 s1))

/-! ### The operations -/

/-- A parameter refused: OUT_BYTES reads 0. -/
def idRefuse (e : CmdEntry) (st : Status) (s : State) : State := refuseAt e st 0 s

/-- The checks of SRC_LEN, DEST_LEN and the lifecycle state. -/
def idChecked (e : CmdEntry) (srcLen out : Nat) (states : List Nat) (f : State → State) (s : State) : State :=
  if par e 8 4 ≠ srcLen ∨ par e 24 4 < out then idRefuse e .invalidField s
  else if !states.contains s.fuse.lifecycle then idRefuse e .notPermitted s
  else f s

/-- The input read once; then the operation goes on with it. -/
def withInput (e : CmdEntry) (n : Nat) (f : Bytes → State → State) (s : State) : State :=
  if !e.readIssued then cmdRead e (par e 0 8) n s else f (landed e) s

/-- The output written at GLB_IDOP_DEST, and OUT_BYTES with the status. -/
def idOutput (e : CmdEntry) (out : Bytes) (s : State) : State := cmdWrite e (par e 16 8) out (replyTo s e .ok out.length [] false) s

/-- READ_CERT. -/
def execReadCert (s : State) : Host.Outcome State Fault Refusal :=
  .next (onCommand 0x10001 (fun e s => idChecked e 0 5541 [1, 2, 3, 4] (fun s => idOutput e s.id.cert s) s) s)

/-- The signed part of the attestation statement. -/
def statement (nonce : Bytes) (s : State) : Bytes :=
  let t := captureTime s.tim
  objHead 0x4B415431 ++ leBytes 1 s.fuse.lifecycle ++ leBytes 1 (b2n t.holdover + 2 * b2n t.backstep + 4 * b2n t.slewing) ++ [0]
    ++ leBytes 4 s.fw.runVersion ++ leBytes 4 s.fw.runSec ++ leBytes 8 (bootCount s) ++ leBytes 8 t.capSec ++ leBytes 4 t.capNs ++ zeros 4
    ++ padTo 32 nonce ++ padTo 48 s.fw.digest ++ blockId s ++ padTo 48 (((pairCert s).map sha384).getD [])

/-- ATTEST. -/
def execAttest (s : State) : Host.Outcome State Fault Refusal :=
  .next (onCommand 0x10002 (fun e s => idChecked e 32 3621 [1, 2, 3, 4] (fun s =>
    withInput e 32 (fun nonce s =>
      if !feedReady s 7 then idRefuse e .rngUnavailable s
      else onHook e signCycles (fun s =>
        match signObject (statement nonce s) s with
        | (some out, s1) => idOutput e out s1
        | (none, s1) => idRefuse e .sampleExhausted s1) s) s) s) s)

/-- The signed part of a re-wrap request. -/
def rewrapRequest (id : Nat) (draw : Bytes) (s : State) : Bytes :=
  objHead 0x4B525131 ++ zeros 3 ++ leBytes 4 id ++ blockId s ++ padTo 1665 (Config.publicKey draw) ++ zeros 3

/-- REWRAP_KEY: a fresh pair replaces the held one. -/
def execRewrapKey (s : State) : Host.Outcome State Fault Refusal :=
  .next (onCommand 0x10003 (fun e s => idChecked e 0 5133 [2] (fun s =>
    if !feedReady s 7 then idRefuse e .rngUnavailable s
    else onHook e signCycles (fun s =>
      let id := wrapInc 32 s.id.lastRequest
      let draw := freeBytes s 112
      let s1 := feedDraw 7 (feedDraw 7 (useFree 112 s))
      match signObject (rewrapRequest id draw s1) s1 with
      | (some out, s2) => idOutput e out { s2 with id := { s2.id with rewrap := some (id, draw), lastRequest := id } }
      | (none, s2) => idRefuse e .sampleExhausted s2) s) s) s)

/-- The copy to write: the one that does not hold the winner (R446). -/
def otherCopy (t : Tbl Bytes) : Nat :=
  match winner t with
  | some (0, _) => 1
  | _ => 0

/-- The record, fuses and reset of a transition, as an operation of the NVM controller (R441). -/
def transitionOp (s : State) (target : Nat) (obj : Bytes) : NvmOp :=
  { work := .transition s.fuse.lifecycle target (bootCount s) (sha384 obj) }

/-- The command waits for the operations queued. -/
def idWait (e : CmdEntry) (ops : List NvmOp) (s : State) : State :=
  queueOps ops (setEntry e.cid (fun x => { x with committed := true, reply := some (replyTo s e .ok 0 [] false) }) s)

/-- PROVISION. -/
def execProvision (s : State) : Host.Outcome State Fault Refusal :=
  .next (onCommand 0x10004 (fun e s => idChecked e 7181 0 [1, 2] (fun s =>
    withInput e 7181 (fun b s =>
      let final := fld b 5 1 % 2 == 1
      let prior := provBundle s
      if prior = some b then answer e .ok [] s
      else if s.fuse.lifecycle = 2 ∧ final then idRefuse e .notPermitted s
      else onHook e verifyCycles (fun s =>
        if !operatorSigned (prior.orElse (fun _ => some b)) 0x4B505231 b || slice b 12 48 != blockId s
            || decide (fld b 8 4 ≤ (prior.map (fun p => fld p 8 4)).getD 0)
            || (final && (allZero (slice b 60 2049) || allZero (slice b 2109 1665))) then idRefuse e .blobInvalid s
        else
          let c := otherCopy s.id.prov
          let base := 962 + 2 * c
          let ops : List NvmOp := [{ work := .eraseSector base }, { work := .eraseSector (base + 1) }]
          if final then idWait e (ops ++ [{ work := .provCopy c b }, transitionOp s 2 b]) s
          else idWait e (ops ++ [{ work := .provCopy c b, cid := some e.cid }]) s) s) s) s) s)

/-- PAIR. -/
def execPair (s : State) : Host.Outcome State Fault Refusal :=
  .next (onCommand 0x10005 (fun e s => idChecked e 3541 0 [1, 2] (fun s =>
    withInput e 3541 (fun b s =>
      let prior := pairCert s
      if prior = some b then answer e .ok [] s
      else onHook e verifyCycles (fun s =>
        if !operatorSigned (provBundle s) 0x4B504331 b || slice b 12 48 != blockId s
            || decide (fld b 8 4 ≤ (prior.map (fun p => fld p 8 4)).getD 0) then idRefuse e .blobInvalid s
        else
          let c := otherCopy s.id.pairs
          idWait e [{ work := .eraseSector (966 + c) }, { work := .pairCopy c b, cid := some e.cid }] s) s) s) s) s)

/-- The paths of R441 that a LIFECYCLE operation takes. -/
def lifecyclePath (source target : Nat) : Bool := (source == 2 && target == 3) || ((source == 2 || source == 3) && target == 4)

/-- LIFECYCLE: the operation ends in the reset. -/
def execLifecycle (s : State) : Host.Outcome State Fault Refusal :=
  .next (onCommand 0x10006 (fun e s => idChecked e 3469 0 [2, 3] (fun s =>
    withInput e 3469 (fun b s => onHook e verifyCycles (fun s =>
      if !operatorSigned (provBundle s) 0x4B4C5431 b || slice b 8 48 != blockId s || !lifecyclePath s.fuse.lifecycle (fld b 5 1) then
        idRefuse e .blobInvalid s
      else idWait e [transitionOp s (fld b 5 1) b] s) s) s) s) s)

/-! ### The test access port (R440, R441; 02 R57) -/

/-- The instruction that the port selects in a lifecycle state (Table 18-1). -/
def tapSelect (lifecycle : Nat) (ir : TapIr) : TapIr :=
  match ir with
  | .idcode => .idcode
  | .bypass => .bypass
  | .bistStatus => if lifecycle = 2 ∨ lifecycle = 4 then .bypass else .bistStatus
  | .other => if lifecycle = 0 ∨ lifecycle = 3 then .other else .bypass
  | .provisionMove _ => if lifecycle = 0 ∨ lifecycle = 3 then .other else .bypass

/-- TAP_INSTRUCTION: the production test's move writes the certificate and takes the block from MANUFACTURE to PROVISIONED. -/
def execTapInstruction (ir : TapIr) (s : State) : Host.Outcome State Fault Refusal :=
  .next (if aonOn s then
      let s1 := { s with pins := { s.pins with tapIr := tapSelect s.fuse.lifecycle ir } }
      match ir with
      | .provisionMove c =>
        if s.fuse.lifecycle = 0 ∧ c.length = 5541 ∧ !s.nvm.ops.any (fun o => match o.work with
            | .transition _ _ _ _ => true
            | _ => false) then
          (let s2 := { s1 with id := { s1.id with cert := c } }
           queueOps [transitionOp s2 1 c] s2)
        else s1
      | _ => s1
    else s)

end Sys2Proof.Machine
end

