-- ==== Sys2Proof/Machine/Baton.lean ====
section
/-! DEFINITION. The Scribe pair: renewals, the lapse, takeovers and the standby (14 R363 to R368; 03 R79, R83; 16 R398, R406). -/
namespace Sys2Proof.Machine

/-- Fault source of a Scribe (12 Table 12-3). -/
def scribeSrc (k : Nat) : Nat := 0x0A0 + k % 2

def scribeNum (x : Scribe) : Nat :=
  match x with
  | .a => 0
  | .b => 1

/-! ### Takeover (03 R79, R83) -/

/-- A packet that the new owner executes afresh. -/
def afresh (n : Nat) (e : CmdEntry) : CmdEntry :=
  { cid := n, via := e.via, bytes := e.bytes, opcode := e.opcode, port := e.port, due := e.due, waitToken := e.waitToken, waited := e.waited
    adminGen := e.adminGen }

/-- A reply of the new owner to a packet whose commit is logged (03 R79). -/
def replayedReply (epoch : Nat) (r : Reply) : Reply := { r with rflags := r.rflags / 2 * 2 + 1, epoch := epoch % 65536 }

/-- A packet as the new owner takes it up: one with a logged commit goes on, to be answered with REPLAYED; another is executed
afresh. -/
def takeOverEntry (epoch : Nat) (keep : Option Nat) (n : Nat) (e : CmdEntry) : CmdEntry :=
  if e.logged then { e with replayed := true, reply := e.reply.map (replayedReply epoch) }
  else if keep = some e.cid then e
  else afresh n e

/-- Every packet taken over, with a fresh number for each that is executed afresh, and the token where it moved with its packet. -/
def takeOverAll (epoch : Nat) (keep : Option Nat) (l : List CmdEntry) (c : Cmd) : Cmd :=
  match l with
  | [] => c
  | e :: r =>
    let x := takeOverEntry epoch keep c.nextCid e
    let t := c.token.map (fun t => if t.holder = some e.cid then { t with holder := some x.cid } else t)
    takeOverAll epoch keep r { c with exec := c.exec ++ [x], nextCid := c.nextCid + 1, token := t }

/-- The packets from CMD_ADMIN_HEAD on that were answered, or whose reply was not written yet, as the new owner meets them: a logged commit
is answered with REPLAYED, the others are executed afresh, and replies to no packet are posted as they are (03 R79). -/
def takeOverReplies (epoch : Nat) (l : List HeldReply) : List HeldReply × List CmdEntry :=
  let logged := fun (h : HeldReply) => match h.entry with
    | some e => e.logged
    | none => true
  ((l.filter logged).map (fun h => if h.entry.isSome then { h with reply := replayedReply epoch h.reply } else h)
   , (l.filter (fun h => !logged h)).filterMap (·.entry))

/-- The control path as the new owner finds it. -/
def takeOverCmd (epoch : Nat) (keep : Option Nat) (c : Cmd) : Cmd :=
  let q := takeOverReplies epoch (c.answered.filter (fun h => (h.entry.map (·.adminGen)) == some c.adminGen) ++ c.held)
  takeOverAll epoch keep (q.2 ++ c.exec) { c with exec := [], held := q.1, answered := [] }

/-- A packet of a firmware transfer or of an activation not yet started. -/
def transferPacket (relay : Bool) (op : Nat) : Bool :=
  if relay then op == 0x0707 else decide (0x0700 ≤ op) && decide (op ≤ 0x0706) && op != 0x0705

/-- The activity aborted: its packets complete with MAINT_ABORTED, its token is free, and the new owner runs the replay (R83; 16
R398). -/
def abortTransfer (s : State) : State :=
  if s.fw.state = .transfer ∨ s.fw.state = .staged ∨ s.fw.state = .scheduled then
    let relay := s.fw.relay
    let s1 := (s.cmd.exec.filter (fun e => transferPacket relay e.opcode && !e.waitToken)).foldl (fun a e => answer e .maintAborted [] a) s
    let s2 := if !relay ∧ s1.cmd.token.isSome ∧ (s1.cmd.token.map (·.opcode)) = some 0x0700 then releaseToken s1 else s1
    startReplay .takeover (endHold { s2 with cmd := { s2.cmd with aborted := s2.cmd.aborted || !relay }, fw := { s2.fw with actCid := none } })
  else s

/-- The port without the Folio command that the lost owner executed: an identification goes on, a transfer of the command is given
up. -/
def cardLeft (f : Folio) : Folio :=
  if f.state == .probing || f.state == .identifying || f.state == .recovering || f.task == .stat then
    { f with cid := none, resume := none, pwFailAt := none }
  else cardRest f

/-- The island awards the baton to the other Scribe, which takes up the admin ring; an owner lost during preparation or in the
pause hands over to the new image (16 R406). -/
def takeover (k : Nat) (s : State) : State :=
  let old := batonOwner s
  let busy := s.cmd.exec.any (fun e => e.started && !e.logged)
  let s1 := { s with baton := { setScribe old .deposed (award s.clk.now k s.baton) with late := if busy then some (old, batonEpoch s) else none } }
  let s2 := abortTransfer s1
  let keep := if s.fw.state = .preparing then s.fw.actCid else none
  let s3 := sendReply { s2 with cmd := startAll s2.clk.now (takeOverCmd (batonEpoch s2) keep s2.cmd), fol := cardLeft s2.fol }
  if s.fw.state = .preparing then
    let s4 := { s3 with fw := { s3.fw with awarded := true } }
    if s4.fw.pauseAt.isNone then beginPause s4 else s4
  else s3

/-! ### Renewals and the lapse (14 R363 to R365) -/

/-- The three copies of the baton agree. -/
def batonAgrees (b : Baton) : Bool := b.c0 == b.c1 && b.c0 == b.c2

/-- The Scribe pair works from start step 5 on. -/
def scribesOn (s : State) : Bool := coreOn s && decide (batonOwner s < 2) && (s.pwr.state == .p0 || s.pwr.state == .p1)

/-- A disagreement of the copies, found at an access: BATON_FAULT, and fail-silent at once. -/
def batonFault (s : State) : State := enterFailSilent 1 (raiseEvent 0x0A2 kBatonFault (batonEpoch s) s)

/-- A configuration write carries its Scribe and the epoch that it holds: one of a Scribe that is not the owner, or of another epoch, is
rejected and counted (01 R16; 14 R366). The writes of the commands in execution are the owner's and carry the epoch in force. -/
def configWrite (k epoch : Nat) (f : State → State) (s : State) : State :=
  if !batonAgrees s.baton then batonFault s
  else if batonOwner s = k ∧ epoch = batonEpoch s then f s
  else { s with baton := { s.baton with stale := satAdd 16 s.baton.stale 1 } }

/-- BATON_RENEWAL: by its owner with its epoch, or rejected and counted. -/
def execBatonRenewal (scribe : Scribe) (epoch : BitVec 48) (s : State) : Host.Outcome State Fault Refusal :=
  .next (if scribesOn s then
      configWrite (scribeNum scribe) epoch.toNat (fun s => { s with baton := { s.baton with lastRenew := s.clk.now } }) s
    else s)

/-- BATON_LAPSE: 1 ms without a valid renewal. -/
def execBatonLapse (s : State) : Host.Outcome State Fault Refusal :=
  .next (if scribesOn s && decide (s.baton.lastRenew + cyMs 1 ≤ s.clk.now) then
      if !batonAgrees s.baton then batonFault s
      else
        let old := batonOwner s
        let epoch := batonEpoch s
        let s1 := { s with baton := { s.baton with lapses := satAdd 16 s.baton.lapses 1 } }
        if scribeState s.baton (1 - old) = .ready then raiseEvent (scribeSrc old) 0x23 epoch (takeover (1 - old) s1)
        else enterFailSilent 3 s1
    else s)

/-! ### The standby (14 R366) -/

/-- What a deposed Scribe does first: where it was executing a command, its next configuration write is presented with the epoch that it
lost (14 R366, Table 14-6). -/
def lateWrite (k : Nat) (s : State) : State :=
  match s.baton.late with
  | some (x, epoch) => if x = k then configWrite k epoch id { s with baton := { s.baton with late := none } } else s
  | none => s

/-- SCRIBE_GO_QUIET: a deposed Scribe resets its core and starts SYNCING; a command that it was executing is found lost by its next
configuration write, which is rejected (log 123). -/
def execScribeGoQuiet (scribe : Scribe) (s : State) : Host.Outcome State Fault Refusal :=
  let k := scribeNum scribe
  .next (if scribesOn s && scribeState s.baton k == .deposed then
      (let s1 := lateWrite k s
       { s1 with baton := setScribe k .syncing s1.baton })
    else s)

/-- STANDBY_READY. -/
def execStandbyReady (scribe : Scribe) (s : State) : Host.Outcome State Fault Refusal :=
  let k := scribeNum scribe
  .next (if scribesOn s && scribeState s.baton k == .syncing then { s with baton := setScribe k .ready s.baton } else s)

end Sys2Proof.Machine
end

