-- ==== Sys2Proof/Machine/Escalate.lean ====
section
/-! DEFINITION. Escalation of severe sources whose reaction timer ran out (12 R321 to R324; 13 R335, R344; 14 R368). -/
namespace Sys2Proof.Machine

/-! ### Unit (12 Table 12-4) -/

/-- The unit behind a fault source. -/
def srcUnit (n : Nat) : Option Nat :=
  if n < 0x014 then some n else if 0x020 ≤ n ∧ n < 0x02E then some (0x100 + (n - 0x020))
  else if 0x030 ≤ n ∧ n < 0x039 then some (0x200 + (n - 0x030)) else none

/-- The jobs admitted on a unit, by their index. -/
def jobIndicesOn (s : State) (c : Nat) : List Nat :=
  let l := jobsOn s c
  (s.jobs.filter (fun e => l.contains e.2.seq)).map (·.1)

/-- Step 2: the unit ISOLATED, with its jobs failed and its contexts or windows lost. -/
def isolateUnit (c : Nat) (s : State) : State :=
  let before := spareCount s.eng.units (unitKind c)
  let s1 := failJobs (jobIndicesOn s c) .unitFault s
  let s2 := leaveService c none false s1
  let s3 := recordRole c (some .isolated) (setRole c .isolated s2)
  raiseEvent (unitSrc c) kEscIsolated 0 (settle (unitKind c) before s3)

/-- A unit escalated: with one of its kind out, the escalation waits (12 R323). -/
def escalateUnit (c : Nat) (s : State) : State :=
  let u := unitOf s c
  if roleGone u.role then s
  else if kindBusy s (unitKind c) then { s with flt := { s.flt with escWait := s.flt.escWait ++ [unitSrc c] } }
  else if u.role = .spare ∧ (jobsOn s c).isEmpty then
    let before := spareCount s.eng.units (unitKind c)
    raiseEvent (unitSrc c) kEscRetired 0 (settle (unitKind c) before (recordRole c (some .retired) (setRole c .retired s)))
  else if u.role = .spare ∨ (replacementFor s c).isSome then withdraw c .escalate s
  else isolateUnit c s

/-! ### The other classes -/

/-- The cell FAILED, and a spare brought in while fewer than 4 are on their way. -/
def escalateCell (c : Nat) (s : State) : State :=
  let s1 := fillCells (modCell c (fun x => { x with state := .failed }) s)
  let new := tfind s1.rng.cells (fun i x => x.state == .underTest && x.startup && (cellOf s i).state == .spare)
  if 4 ≤ cellsComing s1.rng then raiseEvent (cellSrc c) kEscRetired ((new.map (fun p => cellSrc p.1)).getD 0) s1
  else raiseEvent (cellSrc c) kEscIsolated 0 s1

/-- A fabric port isolated; the control register port never is. -/
def escalatePort (src : Nat) (s : State) : State :=
  if src = 0x064 then s else raiseEvent src kEscIsolated 0 (isolatePort (src - 0x060) 0 s)

/-- The logical lane on a spare, or the link at half width. -/
def escalateLane (src : Nat) (s : State) : State :=
  let i := src - 0x068
  if (laneOf s i).rxRole = .spare ∨ (laneOf s i).rxRole = .dead then raiseEvent src kEscRetired 0 (modLane i (fun l => { l with rxRole := .dead }) s)
  else match lockedSpare s with
    | some (j, _) => raiseEvent src kEscRetired (laneSrc j) (moveLane i j s)
    | none => raiseEvent src kEscIsolated 0 (narrowLink i s)

/-- Fail-silent by escalation. -/
def escalateSilent (src : Nat) (s : State) : State := enterFailSilent 4 (raiseEvent src kEscFailSilent 0 s)

/-- Arrays that belong to the CONTROL or SCRIBE class (13 Table 13-4; 12 Table 12-3). -/
def silentArray (a : Nat) : Bool := decide (a < 4) || (decide (100 ≤ a) && decide (a < 116)) || (decide (124 ≤ a) && decide (a < 128))

/-- The faulty row on a spare row: at once where it is repaired, else when its copy ends. With no spare row left, the array's owner
is escalated. -/
def escalateRow (src : Nat) (s : State) : State :=
  let a := src - 0x600
  let row := (srcOf s.flt src).latestAddr / 2 ^ 32 % 4096
  if rowDone s a row then raiseEvent src kEscRetired src s
  else if rowCopying s a row then
    { s with darn := { s.darn with arrays := tmod s.darn.arrays a (fun x =>
        { x with copies := x.copies.map (fun c => if c.row = row then { c with esc := some src } else c) }) } }
  else if sparesLeft s a ≠ 0 then startCopy a row none (some src) s
  else if silentArray a then escalateSilent src s
  else s

/-- A Scribe's source: handover of an owner, or fail-silent; another Scribe is held in reset (14 R368). -/
def escalateScribe (src : Nat) (s : State) : State :=
  let k := src - 0x0A0
  if batonOwner s = k then
    if scribeState s.baton (1 - k) = .ready then
      let s1 := takeover (1 - k) s
      raiseEvent src kEscHandover (batonEpoch s1) s1
    else escalateSilent src s
  else
    let s1 := raiseEvent src kEscIsolated 0 { s with baton := setScribe k .offline s.baton }
    if s1.fw.state = .preparing ∧ s1.fw.pauseAt.isNone then failActivation s1 else s1

/-- The steps of Table 12-4 by the class of the source. -/
def escalate (src : Nat) (s : State) : State :=
  match srcClass src with
  | some 0 | some 1 | some 2 => (match srcUnit src with
      | some c => escalateUnit c s
      | none => s)
  | some 3 => escalateCell (src - 0x040) s
  | some 5 => escalatePort src s
  | some 6 => escalateLane src s
  | some 7 => escalateScribe src s
  | some 8 => escalateSilent src s
  | some 13 => escalateRow src s
  | _ => s

/-- REACTION_TIMER_EXPIRY: the timer of a severe source that nobody acknowledged. -/
def execReactionTimerExpiry (source : BitVec 12) (s : State) : Host.Outcome State Fault Refusal :=
  let n := source.toNat
  let r := srcOf s.flt n
  .next (if coreOn s && r.severe && !r.acked && (match r.timer with
        | some t => decide (t ≤ s.clk.now)
        | none => false) then
      escalate n { s with flt := { s.flt with sources := tmod s.flt.sources n (fun x => { x with timer := none, escalated := true }) } }
    else s)

/-- ESCALATION_DEFERRED_START: the first that waits whose kind has no unit on its way out. -/
def execEscalationDeferredStart (s : State) : Host.Outcome State Fault Refusal :=
  .next (if coreOn s then
      match s.flt.escWait.find? (fun n => match srcUnit n with
          | some c => !kindBusy s (unitKind c)
          | none => false) with
      | some n => escalate n { s with flt := { s.flt with escWait := s.flt.escWait.filter (· != n) } }
      | none => s
    else s)

end Sys2Proof.Machine
end

