-- ==== Sys2Proof/Machine/Start.lean ====
section
/-! DEFINITION. The start after a reset: stages, roles, settings, the baton, failures; clock losses (14 R359 to R361; 13 R461; 01 R13; 15
R377, R385; 16 R410 to R412; 18 R442; 02 R53; 06 R177). -/
namespace Sys2Proof.Machine

/-! ### Repairs and the image (steps 3 and 4) -/

/-- Recorded row repairs loaded (13 R345). -/
def loadRepairs (s : State) : State :=
  { s with darn := { s.darn with arrays := s.nvm.repairs.foldl (fun t e => tmodD t e.1 {} (fun x =>
      if x.runtime.contains e.2 then x else { x with runtime := x.runtime ++ [e.2] })) s.darn.arrays } }

/-- Half-erased sectors are queued for their erase (15 R377). -/
def recoverErases (s : State) : State :=
  queueOps ((s.nvm.sectors.filter (fun e => e.2.state == .halfErased)).map (fun e => { work := .eraseSector e.2.logical })) s

/-- The sectors that fail their blank check before an erase of R442: those that the banks and the journal hold records in, and of the key
archive, where the place of a record is not given, those that `v` tells. -/
def writtenSectors (v : Nat) (s : State) : List Nat :=
  (s.nvm.banks.map (fun b => (List.range settingsSectors).map (768 + 32 * b.1 + ·))).flatten
    ++ (if s.nvm.keys.isEmpty then [] else ((List.range 128).filter v.testBit).map (832 + ·))
    ++ (if s.fuse.lifecycle = 4 then s.fw.journal.map (fun e => 384 + e.1) else [])

/-- In RMA and SCRAPPED the key archive and the settings banks are erased, in SCRAPPED the undo journal too; only a sector that is not
blank is erased (18 R442). -/
def lifecycleErase (s : State) : State :=
  if s.fuse.lifecycle = 3 ∨ s.fuse.lifecycle = 4 then
    let s1 := (writtenSectors (leNat (freeBytes s 16)) s).foldl (fun a l => countErases l 1 a) (useFree 16 s)
    { s1 with nvm := { s1.nvm with keys := [], banks := [] }
              fw := if s.fuse.lifecycle = 4 then { s1.fw with journal := [] } else s1.fw }
  else s

/-- The start ends fail-silent. -/
def startFail (cause : Nat) (s : State) : State :=
  let t := enterFailSilent cause s
  { t with pwr := { t.pwr with stage := 8 } }

/-- The running image taken over: its parts in the Scribe SRAMs and the microcode store, its versions and its digest. -/
def runImage (s : State) : State :=
  let i := imageInfo s.fw
  { s with fw := { loadParts s.fw with runVersion := i.1, runSec := i.2.1, runProbation := i.2.2, digest := imageDigest s.fw, fallbackCause := 0 } }

/-- Table 16-4: the cause that a replay at the start records. -/
def replayCause (s : State) : Nat :=
  if imageFault s ≠ none then 5 else if !s.fw.activated then 4 else if s.fw.fallbackCause ≠ 0 then s.fw.fallbackCause else 3

/-- The running image verified, or the journal replayed once; with no valid image the start ends (16 R412; 14 Table 14-4). -/
def verifyImage (s : State) : State :=
  if imageFault s = none ∧ s.fw.confirmed then runImage s
  else
    let cause := replayCause s
    match replayJournal s with
    | none => startFail 5 s
    | some f =>
      let s1 := { s with fw := { f with lastFallback := cause, fallbacks := satAdd 16 f.fallbacks 1 } }
      if imageFault s1 = none then runImage s1 else startFail 5 s1

/-- BOOT_COUNT after AON_PORST_N, and a rollback record that a power loss cut off (15 Table 15-4; 16 R410). -/
def bootRecords (s : State) : State :=
  let s1 := if s.pwr.afterPor then
      { s with nvm := { s.nvm with counters := tput s.nvm.counters 0 (counterOf s.nvm 0 + 1) }, pwr := { s.pwr with afterPor := false } }
    else s
  if s1.fw.confirmed ∧ counterOf s1.nvm cntRollback < s1.fw.runSec then nvmQueue { work := .counterProgram cntRollback s1.fw.runSec } s1 else s1

/-! ### The Scribes (step 5) -/

/-- A self-test that failed. -/
def testFails (r : Option TestOutcome) : Bool := r.any (fun x => !passed x)

/-- BIST_FAIL with a result. -/
def bistEvent (src : Nat) (r : Option TestOutcome) (s : State) : State :=
  raiseEvent src kBistFail ((r.map resultWord).getD 0 % 256) s

/-- The baton awarded to Scribe A if it passed, otherwise to B; a failed Scribe is OFFLINE (14 R364, Table 14-4). -/
def startScribes (a b : Option TestOutcome) (s : State) : State :=
  let s1 := if testFails a then bistEvent 0x0A0 a s else s
  let s2 := if testFails b then bistEvent 0x0A1 b s1 else s1
  if testFails a && testFails b then startFail 6 { s2 with baton := { s2.baton with a := .offline, b := .offline } }
  else
    let k := if testFails a then 1 else 0
    let other := if testFails a || testFails b then ScribeState.offline else .syncing
    { s2 with baton := setScribe (1 - k) other (award s2.clk.now k s2.baton) }

/-! ### Settings and the carve-out (step 6) -/

/-- The valid bank with the higher VERSION (15 R385). -/
def bestBank (n : Nvm) : Option (Nat × SBank) :=
  (n.banks.filter (fun e => e.2.complete)).foldl (fun a e => match a with
    | none => some e
    | some b => if b.2.version.getD 0 < e.2.version.getD 0 then some e else a) none

/-- The active bank loaded; after CORE_RST_N alone, what Table 19-3 keeps is not overwritten. -/
def loadSettings (por : Bool) (s : State) : State :=
  match bestBank s.nvm with
  | none => raiseEvent 0x0D0 kStorage (physOf s.nvm 768) { s with nvm := { s.nvm with settingsDefault := true } }
  | some (b, x) =>
    let s1 := applyCore x.body { s with nvm := { s.nvm with activeBank := b, settingsDefault := false } }
    if por then applyKept x.body s1 else { s1 with pwr := { s1.pwr with deepest := s.pwr.deepest, idleUs := s.pwr.idleUs } }

/-- After CORE_RST_N alone an initialised carve-out is READY again (14 R360); an initialisation that the reset cut off starts afresh (06
R177). -/
def carveAgain (s : State) : State :=
  if !s.keys.carveEn then s
  else if !s.keys.carveInit then { s with keys := { s.keys with carveReady := true } }
  else if ownerOpen s.fab .treeInit then s else startTree s

/-! ### Start BIST and roles (step 7) -/

/-- Units with their recorded roles; the rest are SPARE until they have passed. -/
def recordedUnits (s : State) : Tbl EUnit :=
  State.deliveredUnits.map (fun e => (e.1, { role := (tget s.nvm.roles e.1).getD .spare, configGen := s.eng.configGen.toNat }))

/-- The result of a unit's test; a unit not named passed. -/
def bistOf (l : List UnitBist) (c : Nat) : TestOutcome :=
  ((l.find? (fun u => u.engsel.toNat == c)).map (·.result)).getD { logicFail := false, memoryFail := false, katFail := false, rowsRepaired := 0 }

/-- The start BIST of one unit: a recorded role is kept, and one that fails is RETIRED (14 Table 14-4). -/
def bistUnit (l : List UnitBist) (c : Nat) (s : State) : State :=
  if ((tget s.nvm.roles c).map roleGone).getD false then s
  else
    let r := bistOf l c
    let s1 := bistRows r.rowsRepaired.toNat c s
    let s2 := { s1 with darn := { s1.darn with lastResult := resultWord r, lastUnit := c } }
    if passed r then s2 else raiseEvent (unitSrc c) kBistFail (resultWord r % 256) (recordRole c (some .retired) (setRole c .retired s2))

/-- Nibs of a list paired in ascending number, up to `n` pairs. -/
def pairUp (n : Nat) (l : List Nat) (us : Tbl EUnit) : Tbl EUnit :=
  match n, l with
  | k + 1, a :: b :: r => pairUp k r (makePair a b us)
  | _, _ => us

/-- The first units of a kind in service. -/
def serveFirst (n k : Nat) (us : Tbl EUnit) : Tbl EUnit :=
  ((freeSpares us k).take n).foldl (fun t c => tmod t c (fun u => { u with role := .active })) us

/-- Roles given afresh (13 R461; 01 R13). -/
def giveRoles (us : Tbl EUnit) : Tbl EUnit :=
  let half := fun (h : Nat) (t : Tbl EUnit) => pairUp 4 ((freeSpares t 0).filter (fun c => nibHalf c == h)) t
  settleHalf 1 (settleHalf 0 (serveFirst 8 2 (serveFirst 12 1 (half 1 (half 0 us)))))

/-- Every unit loaded (14 R362), the BIST of every unit, both in ascending order, and the roles. -/
def startUnits (t : StartTests) (s : State) : State :=
  let us := recordedUnits s
  let s0 := us.foldl (fun a e => returnUnit t.readback e.1 id a) { s with eng := { s.eng with units := us } }
  let s1 := us.foldl (fun a e => bistUnit t.units e.1 a) s0
  { s1 with eng := { s1.eng with units := giveRoles s1.eng.units } }

/-! ### The start -/

/-- A stage, unless the start has ended fail-silent. -/
def stage_ (n : Nat) (f : State → State) (s : State) : State := if s.pwr.failSilent then s else f { s with pwr := { s.pwr with stage := n } }

/-- The control units (14 Table 14-4). -/
def controlTest (c : Option (BitVec 12)) (s : State) : State :=
  match c with
  | none => s
  | some src => startFail 6 (raiseEvent src.toNat kBistFail 0 s)

/-- The lanes begin to train as CORE_RST_N is released, beside the stages of the start (02 R66; 14 Table 14-3); without their
reference clock the link stays down. -/
def startLink (s : State) : State :=
  if !s.pins.formL then s
  else if s.pins.laneRefLost then linkDown 0 s
  else { s with link := { s.link with training := true, keepMap := false, trainAt := s.clk.now, step := 1, rateInUse := s.link.rate } }

/-- In LA-1024/L the start waits for the link (14 Table 14-3, step 8). -/
def linkStage (s : State) : State := if s.pins.formL then { s with pwr := { s.pwr with stage := 6 } } else s

/-- Steps 1 to 8 of Table 14-3, as far as they need no further event (log 38). -/
def runStart (t : StartTests) (s0 : State) : State :=
  let por := s0.pwr.afterPor
  let s1 := { s0 with pins := { s0.pins with coreInReset := false }, pwr := { s0.pwr with releasedAt := s0.clk.now }
                      eng := { s0.eng with configGen := s0.eng.configGen + 1 } }
  let s1 := startLink s1
  let s2 := if s1.pins.pllLost then startFail 2 s1 else s1
  let s3 := stage_ 2 (fun s => lifecycleErase (loadRepairs (if por then recoverErases s else s))) s2
  let s4 := stage_ 3 (fun s => verifyImage s) s3
  let s5 := stage_ 4 (fun s => startScribes t.scribeA t.scribeB (bootRecords s)) s4
  let s6 := stage_ 4 (fun s => (if por then id else carveAgain) (loadSettings por s)) s5
  let s7 := stage_ 5 (fun s => fillCells (startUnits t (controlTest t.control s))) s6
  let s8 := if s7.pwr.failSilent then { s7 with pwr := { s7.pwr with stage := 8 } } else linkStage s7
  startComplete s8

/-- CORE_RESET_RELEASE. -/
def execCoreResetRelease (tests : StartTests) (s : State) : Host.Outcome State Fault Refusal :=
  if !tests.units.all (fun u => engselValid u.engsel.toNat) then .fault .malformed
  else .next (if aonOn s && s.pins.coreInReset then runStart tests s else s)

/-- CARVE_INIT_COMPLETE: from step 6 on (06 R177; 14 R360). -/
def execCarveInitComplete (s : State) : Host.Outcome State Fault Refusal :=
  .next (if coreOn s && decide (5 ≤ s.pwr.stage) && s.keys.carveEn && s.keys.carveInit && s.keys.treeLeft == 0 then
      { s with keys := { s.keys with carveReady := true, carveInit := false } }
    else s)

/-! ### Clock losses (02 R53) -/

/-- PLL_REFCLK_LOSS: fail-silent at once (12 R322). -/
def execPllRefclkLoss (s : State) : Host.Outcome State Fault Refusal :=
  .next (if aonOn s && !s.pins.pllLost then
      let s1 := raiseEvent 0x0D3 kClockLost 1 { s with pins := { s.pins with pllLost := true } }
      if s.pins.coreInReset then s1 else enterFailSilent 2 s1
    else s)

/-- AON_XTAL_LOSS. -/
def execAonXtalLoss (s : State) : Host.Outcome State Fault Refusal :=
  .next (if aonOn s && !s.pins.xtalLost then raiseEvent 0x0D2 kClockLost 0 { s with pins := { s.pins with xtalLost := true } } else s)

/-- AON_XTAL_RETURN. -/
def execAonXtalReturn (s : State) : Host.Outcome State Fault Refusal :=
  .next (if aonOn s then { s with pins := { s.pins with xtalLost := false } } else s)

/-! ### The end of probation (16 R409, R411) -/

/-- A fall-back: its cause recorded, and the reset; the journal is replayed by the start that follows. -/
def fallBack (cause : Nat) (s : State) : State :=
  coreReset { s with fw := { s.fw with lastFallback := cause, fallbackCause := cause } }

/-- SELF_CHECK_COMPLETE. -/
def execSelfCheckComplete (pass : Bool) (s : State) : Host.Outcome State Fault Refusal :=
  .next (if working s && s.fw.state == .probation && !s.fw.selfDone then
      (if pass then { s with fw := { s.fw with selfDone := true, selfPass := true } } else fallBack 2 s)
    else s)

/-- PROBATION_EXPIRY. -/
def execProbationExpiry (s : State) : Host.Outcome State Fault Refusal :=
  .next (if coreOn s && s.fw.state == .probation && decide (s.fw.probationEnd ≤ s.clk.now) then fallBack 1 s else s)

end Sys2Proof.Machine
end

