-- ==== Sys2Proof/Machine/Power.lean ====
section
/-! DEFINITION. Power states: entry, wake and exit (14 R352 to R358; 05 R153; 06 R169, R182; 08 R227; 09 R247; 10 R279; 12 R324, R329; 15
R377; 17 R421; 18 R445; 19 Table 19-3). -/
namespace Sys2Proof.Machine

/-! ### Timers that count P0 time, or P0 and P1 time -/

/-- Timers of P0 time moved on by `d0`, those of P0 and P1 time by `d1`. -/
def shiftTimers (d0 d1 : Nat) (s : State) : State :=
  { s with
    darn := { s.darn with
      nextDue := s.darn.nextDue.map (· + d0)
      arrays := tmap s.darn.arrays (fun _ a => { a with copies := a.copies.map (fun c => { c with until_ := c.until_ + d0 }) }) }
    rng := { s.rng with
      rotateAt := s.rng.rotateAt + d1
      feeds := tmap s.rng.feeds (fun _ f => { f with nextReseed := f.nextReseed + d1 })
      cells := tmap s.rng.cells (fun _ c => if c.state = .underTest then { c with testEnd := c.testEnd + d1 } else c) } }

/-- Back in P0. -/
def backToP0 (deep : Bool) (s : State) : State :=
  let s1 := shiftTimers (s.clk.now - s.pwr.leftP0) (if deep then s.clk.now - s.pwr.slept else 0) s
  { s1 with pwr := { s1.pwr with state := .p0, idleSince := s.clk.now, deepSince := s.clk.now } }

/-! ### Entry (R352, R353, R355) -/

/-- P1_ENTRY: P1-idle for 256 cycles. -/
def execP1Entry (s : State) : Host.Outcome State Fault Refusal :=
  .next (if running s && s.pwr.entering.isNone && p1Idle s && decide (1 ≤ s.pwr.deepest) && decide (s.pwr.idleSince + 256 ≤ s.clk.now) then
      { s with pwr := { s.pwr with state := .p1, leftP0 := s.clk.now } }
    else s)

/-- The state that DEEPEST names. -/
def deepTarget (d : Nat) : Option PState :=
  match d with
  | 2 => some .p2
  | 3 => some .p3r
  | 4 => some .p3
  | _ => none

/-- The cached session records and ring contexts written back. -/
def writeBack (s : State) : State :=
  let s1 := s.keys.sessions.foldl (fun a e => if e.2.cached then writeSession (.sessStore e.1) e.1 e.2.ceiling a else a) s
  s.rings.foldl (fun a e => if e.2.cached then writeRing e.1 e.2 a else a) s1

/-- VALID slots written to the spill area, with their extended records (06 R169). -/
def spillSlots (s : State) : State :=
  s.keys.slots.foldl (fun a e =>
    if e.2.state = .valid then
      let a1 := carveWrite .lowest .carve (spillOff e.1) (spillBody e.1 e.2) a
      match e.2.ext with
      | some x => carveWrite .lowest .carve (extOff x) e.2.material a1
      | none => a1
    else a) s

/-- The work before the commit. -/
def entryWork (t : PState) (s : State) : State :=
  match t with
  | .p3r => partialClose (writeBack s)
  | .p3 => nvmQueue { work := .versionTree } (spillSlots (partialClose (writeBack s)))
  | _ => s

/-- DEEP_IDLE_ENTRY: the entry sequence starts; the engine contexts are dropped first. -/
def execDeepIdleEntry (s : State) : Host.Outcome State Fault Refusal :=
  .next (match deepTarget s.pwr.deepest with
    | none => s
    | some t =>
      if coreOn s && started s && (s.pwr.state == .p0 || s.pwr.state == .p1) && !s.pwr.waking && s.pwr.entering.isNone && deepIdle s
          && decide (s.pwr.deepSince + cyUs s.pwr.idleUs ≤ s.clk.now) then
        let s1 := if s.pwr.state = .p1 then shiftTimers (s.clk.now - s.pwr.leftP0) 0 s else s
        let s2 := entryWork t (loseAllMessages s1)
        { s2 with pwr := { s2.pwr with state := .p0, entering := some t } }
      else s)

/-- What every deep state loses: the windows read zero, the engine islands are off, the slot is without power (09 R247; 14 R352; 17
R421). -/
def loseP2 (s : State) : State :=
  { s with eng := { s.eng with
             leases := tmap s.eng.leases (fun _ l => { l with data := [], contentsLost := true })
             units := tmap s.eng.units (fun _ u => { u with sequencer := [], ctx := [] }) }
           fol := cardOff s.fol }

/-- What P3R and P3 lose beside: the caches, the Scribe SRAMs and the microcode store, Feed and the pool, the Row Counter's counts and queue, the held password and the re-wrap
pair, the link (12 R329; 10 R279; 18 R445). -/
def loseP3r (s : State) : State :=
  { s with
    keys := { s.keys with sessions := tmap s.keys.sessions (fun _ r => { r with cached := false, reading := false }) }
    rings := tmap s.rings (fun _ r => { r with cached := false })
    rng := { s.rng with
      cells := cellsKept s.rng.cells, feeds := State.reset.rng.feeds, pool := 0, portion := 0, data := [], underrun := false, started := false }
    flt := { s.flt with queue := [], sources := tmap s.flt.sources (fun _ r => { sticky := r.sticky, severe := r.severe, acked := r.acked }) }
    fol := { s.fol with password := none }
    id := { s.id with rewrap := none }
    fw := { s.fw with sramA := [], sramB := [], micro := [], shadow := [] }
    link := { s.link with up := false, half := false, training := false } }

/-- What P3 loses beside: the slots, which lie in the spill area, and what was issued below each session's ceiling (06 R169, R182);
the carve-out registers go to the resume store, from which the GLB group serves them (14 R360). -/
def loseP3 (s : State) : State :=
  { s with pwr := { s.pwr with resume := some (resumeOf s.keys) }, keys := { s.keys with
      slots := tmap s.keys.slots (fun _ x => if x.state = .valid then { x with spilled := true, reading := false } else x)
      sessions := tmap s.keys.sessions (fun _ r => lostSession r) } }

/-- The version-tree top stands in the NVM. -/
def treeStored (s : State) : Bool := !s.nvm.ops.any (fun o => o.work == .versionTree)

/-- POWER_ENTRY_COMMIT: the islands switch. -/
def execPowerEntryCommit (s : State) : Host.Outcome State Fault Refusal :=
  .next (match s.pwr.entering with
    | none => s
    | some t =>
      if coreOn s && deepIdle s && treeStored s then
        let s1 := loseP2 s
        let s2 := if t = .p2 then s1 else loseP3r s1
        let s3 := if t = .p3 then loseP3 s2 else s2
        { s3 with pwr := { s3.pwr with state := t, entering := none, leftP0 := s.clk.now, slept := s.clk.now } }
      else s)

/-! ### Wake (R356) -/

def wakeCode (c : WakeCause) : Nat :=
  match c with
  | .doorbell => 0
  | .wakeBit => 1
  | .timed => 2
  | .fault => 3
  | .controlWrite => 4

/-- A wake event taken; an abandoned entry starts the idle times afresh. -/
def wakeNow (cause : Nat) (s : State) : State :=
  let p := wakePower cause s.pwr
  { s with pwr := if s.pwr.entering.isSome then { p with idleSince := s.clk.now, deepSince := s.clk.now } else p }

/-- WAKE_EVENT. -/
def execWakeEvent (cause : WakeCause) (s : State) : Host.Outcome State Fault Refusal :=
  .next (if coreOn s && started s then wakeNow (wakeCode cause) s else s)

/-- Exit time of a state in ns (Table 14-1). -/
def exitNs (p : PState) : Nat :=
  match p with
  | .p0 => 0
  | .p1 => 40
  | .p2 => 12000
  | .p3r => 2000000
  | .p3 => 1600000

/-- An event for which the Cast-on island sets a timed wake: an epoch end, an ACTIVATE_AT instant with its preparation, the end of
probation (R356; 16 R404, R409). -/
def wakeDue (s : State) : Bool :=
  let d := exitNs s.pwr.state
  s.ep.acct.over (eNs s + d) || s.ep.key.over (eNs s + d)
    || ((s.fw.state == .scheduled || s.fw.state == .preparing) && decide (actNsAt s.fw ≤ gNs s + d + 100000000))
    || (s.fw.state == .probation && decide (s.fw.probationEnd ≤ s.clk.now + cyMs 1 * d / 1000000))

/-- TIMED_WAKE. -/
def execTimedWake (s : State) : Host.Outcome State Fault Refusal :=
  .next (if coreOn s && started s && wakeDue s then wakeNow 2 s else s)

/-! ### Exit (R357, R358; Table 14-2) -/

/-- A unit loaded at an exit: where its readback differs it leaves service, which holds nothing yet, and stays out (R362). -/
def loadUnit (l : List Readback) (c : Nat) (s : State) : State :=
  let s1 := writeSequencer l c s
  if readsBack l c s then s1
  else if roleGone (unitOf s c).role then stayOut c s1
  else
    let before := spareCount s.eng.units (unitKind c)
    settle (unitKind c) before (stayOut c (leaveService c none false s1))

/-- Every engine island returns together with the next configuration generation, no context, and its microcode loaded (R358, R362). -/
def enginesBack (l : List Readback) (s : State) : State :=
  let g := s.eng.configGen + 1
  s.eng.units.foldl (fun a e => loadUnit l e.1 a)
    { s with eng := { s.eng with configGen := g, units := tmap s.eng.units (fun _ u => { u with configGen := g.toNat }) } }

/-- After P2 the cells that were ONLINE run their startup test (10 R279). -/
def cellsBack (s : State) : State :=
  fillCells { s with rng := { s.rng with cells := tmap s.rng.cells (fun _ c => if c.state = .online then beginStartup s.clk.now c else c) } }

/-- Counters that read 0 after P3R and P3 (19 Table 19-3). -/
def clearCounts (s : State) : State :=
  { s with
    ports := tmap s.ports (fun _ p => { p with late := 0, refDeadline := 0, refQuota := 0, refWindow := 0, dbReject := 0, admitted := 0, completed := 0 })
    eng := { s.eng with units := tmap s.eng.units (fun _ u => { u with
      jobs := 0, busy := 0, mismatchA := 0, mismatchB := 0, cured := 0, failed := 0, suspends := 0, discarded := 0, lost := 0, exhausted := 0 }) }
    chans := tmap s.chans (fun _ c => { c with count := 0, disabled := 0, dropped := 0, trunc := 0, poison := 0, overflow := 0 })
    rng := { s.rng with rct := 0, apt := 0, reseeds := 0, mismatch := 0 }
    fol := { s.fol with crc := 0, retries := 0, recoveries := 0, insertions := 0 }
    fab := { s.fab with ports := tmap s.fab.ports (fun _ p => { p with stall := 0 }) } }

/-- The standby resynchronises (Table 14-2, step 4). -/
def resyncStandby (s : State) : State :=
  let k := standby s
  if scribeState s.baton k = .ready then { s with baton := setScribe k .syncing s.baton } else s

/-- The link trains again after P3R and P3. -/
def retrainLink (s : State) : State :=
  if s.pins.formL && !s.pins.laneRefLost then { s with link := { s.link with training := true, keepMap := false, trainAt := s.clk.now, step := 1 } } else s

/-- The carve-out registers come back from the resume store (14 R360). -/
def resumeRegs (s : State) : State :=
  match s.pwr.resume with
  | none => s
  | some r => { s with pwr := { s.pwr with resume := none }
                       keys := { s.keys with carveBase := r.carveBase, carveEn := r.carveEn, carveLog2 := r.carveLog2, selfSid := r.selfSid } }

/-- What an exit does besides the return to P0, by the state left. -/
def exitWork (p : PState) (l : List Readback) (s : State) : State :=
  let parts := fun (x : State) => { x with fw := loadParts x.fw }
  let back := fun (x : State) => { x with fol := cardRestart x.fol, fab := { x.fab with measureAt := x.clk.now + 15000 } }
  match p with
  | .p2 => back (cellsBack (enginesBack l s))
  | .p3r => back (fillCells (recoverErases (retrainLink (resyncStandby (enginesBack l (clearCounts (checkSlots (resumeRegs (parts s)))))))))
  | .p3 => back (fillCells (recoverErases (retrainLink (resyncStandby (enginesBack l (clearCounts (resumeRegs (parts s))))))))
  | _ => s

/-- POWER_EXIT_COMPLETE: admission opens; a digest that differs, read at the exit from P3R or P3, makes it a start (R358). -/
def execPowerExitComplete (found : ExitCheck) (s : State) : Host.Outcome State Fault Refusal :=
  .next (if coreOn s && s.pwr.waking then
      let p := s.pwr.state
      let deep := p == .p3r || p == .p3
      if deep && !found.digestOk then
        runStart { scribeA := none, scribeB := none, control := none, units := [], readback := found.readback } (coreReset s)
      else
        let s1 := backToP0 (deep || p == .p2) s
        let s2 := { s1 with pwr := { s1.pwr with waking := false, wakeBit := false, wakes := wrapInc 32 s1.pwr.wakes }
                            baton := { s1.baton with lastRenew := s.clk.now } }
        crpAccept (replayPorch (exitWork p found.readback s2))
    else s)

end Sys2Proof.Machine
end

