-- ==== Sys2Proof/Machine/Folio.lean ====
section
/-! DEFINITION. The Folio port and the Amiec card bus: slot protection, identification and negotiation, transfers with their errors
and recovery, the password lock, and the key archive (17 R415 to R439; 18 R448). -/
namespace Sys2Proof.Machine

def kCardFault : Nat := 0x24

/-! ### Checks (R425, R426, R433) -/

/-- The remainder of `l` under a polynomial of width `w`, most significant bit first. -/
def crcBits (w : Nat) (poly init : BitVec w) (l : List Bool) : BitVec w :=
  l.foldl (fun c b => if c.msb != b then (c <<< 1) ^^^ poly else c <<< 1) init

/-- Bits of a byte, least significant first. -/
def byteBits (b : Byte) : List Bool := (List.range 8).map b.getLsbD

/-- Bits of a word, most significant first. -/
def wordBits (w v : Nat) : List Bool := (List.range w).reverse.map v.testBit

def bitsNat (l : List Bool) : Nat := l.foldr (fun b a => b2n b + 2 * a) 0

/-- Bytes of a line, each least significant bit first. -/
def lineBytes (n : Nat) (l : List Bool) : Bytes :=
  match n with
  | 0 => []
  | k + 1 => BitVec.ofNat 8 (bitsNat (l.take 8)) :: lineBytes k (l.drop 8)

/-- CRC7 over bits [44:8] of a frame (R425). -/
def crc7 (frame : BitVec 48) : BitVec 7 := crcBits 7 0x53 0x7F (wordBits 37 (frame.toNat / 256 % 2 ^ 37))

/-- CRC16 of the data bits of a line (R426). -/
def crc16 (l : List Bool) : BitVec 16 := crcBits 16 0x8005 0xFFFF l

/-- CRC-32 of IEEE 802.3 (R433). -/
def crc32 (b : Bytes) : Nat := (~~~(crcBits 32 0x04C11DB7 0xFFFFFFFF (b.map byteBits).flatten)).reverse.toNat

/-- A data line: its lead-in, data bits and stop pattern, and its CRC16. -/
def lineFramed (n : Nat) (l : List Bool) : Bool :=
  l.length == 8 * n + 22 && l.take 4 == [false, false, true, false] && l.drop (8 * n + 20) == [true, true]

def lineCrcOk (n : Nat) (l : List Bool) : Bool :=
  ((l.drop 4).drop (8 * n)).take 16 == wordBits 16 (crc16 ((l.drop 4).take (8 * n))).toNat

/-- The bytes dealt out to the lines, taken up again in turn (R426). -/
def dealt (n : Nat) (ls : List Bytes) : Bytes :=
  (List.range n).map (fun k => (((ls[k % ls.length]?).getD [])[k / ls.length]?).getD 0)

/-! ### The identification string (R422 to R424) -/

def idClass (f : Folio) : Nat := fld f.ident 2 1
def idGeneration (f : Folio) : Nat := fld f.ident 3 1
def idCapacity (f : Folio) : Nat := fld f.ident 4 4
def idWide (f : Folio) : Bool := (fld f.ident 10 1).testBit 1

/-- A card that the block can run (R423). -/
def cardSupported (f : Folio) : Bool :=
  fld f.ident 0 2 == 0x4D41 && (idClass f == 1 || idClass f == 2) && (idGeneration f == 1 || idGeneration f == 2)
    && (fld f.ident 8 1).testBit 0 && (fld f.ident 10 1).testBit 0 && fld f.ident 8 1 / 4 == 0 && fld f.ident 10 1 / 4 == 0
    && fld f.ident 11 1 / 4 == 0 && allZero (f.ident.drop 26)

/-- The clock ceiling in MHz (R424, R439). -/
def clockCeiling (f : Folio) : Nat := min (fld f.ident 9 1) (if 1 ≤ f.clkMax ∧ f.clkMax ≤ 100 then f.clkMax else 100)

/-- The settings in order, with the ceiling in place of a clock above it; a setting that this makes equal to the one before it is not
tried twice (log 40). -/
def cardSettings (f : Folio) : List (Bool × Nat) :=
  let c := 10 * clockCeiling f
  let l := if idGeneration f = 2 ∧ idWide f then [(true, 1000), (true, 500), (true, 250), (false, 250), (false, 4)]
    else [(false, 250), (false, 125), (false, 4)]
  (l.map (fun x => (x.1, min x.2 c))).eraseDups

/-- DIV for a clock in tenths of a MHz. -/
def clockDiv (m : Nat) : Nat := max 8 (cdiv 8000 m)

/-! ### Sending a card command (R427) -/

def cardLive (s : State) : Bool := coreOn s && started s && (s.pwr.state == .p0 || s.pwr.state == .p1)

/-- What a card command first waits for: RESET has no response frame. -/
def firstWait (c : CardCmd) : CardWait := if c.code = 0x10 then .readData else .response

/-- A card command sent for a task, with the attempts that count as failed. -/
def sendCard (task : CardTask) (attempt : Nat) (c : CardCmd) (s : State) : State :=
  { s with fol := { s.fol with task := task, cur := some c, wait := firstWait c, attempt := attempt, since := s.clk.now } }

/-- SET_BUS for the setting at the head of the list. -/
def setBusCmd (x : Bool × Nat) : CardCmd := { code := 0x12, arg := b2n x.1 + 256 * cdiv x.2 10 }

def readBlockCmd (a : Nat) : CardCmd := { code := 0x04, arg := a }
def statusCmd : CardCmd := { code := 0x13, arg := 0 }
def forceEraseCmd : CardCmd := { code := 0x0C, arg := 0xA5E5 }
def unlockCmd (pw : Bytes) : CardCmd := { code := 0x08, arg := pw.length % 32, data := padTo 512 pw }

/-- ADDRESS of a failure: the card block of a command that names one. -/
def cardAddress (c : Option CardCmd) : Nat :=
  match c with
  | some x => if x.code = 0x04 ∨ x.code = 0x05 then x.arg else 0xFFFFFFFF
  | none => 0xFFFFFFFF

/-! ### Settling, failure and recovery (R417, R420, R429) -/

/-- The status of a card command that needs the card, by the state (Table 17-4). -/
def cardStatus (c : CardState) : Status :=
  match c with
  | .short | .unsupported | .failed => .cardFailed
  | .ready | .locked => .ok
  | _ => .cardAbsent

/-- The Folio command on the bus completes. -/
def cardAnswer (st : Status) (payload : Bytes) (s : State) : State :=
  match s.fol.cid.bind (entryOf s) with
  | some e => answer e st payload { s with fol := { s.fol with cid := none } }
  | none => { s with fol := { s.fol with cid := none } }

/-- Level 3 of R429. -/
def cardFailure (addr : Nat) (s : State) : State :=
  let s1 := cardAnswer .cardFailed [] (raiseEvent 0x0D1 kStorage addr s)
  { s1 with fol := { cardRest s1.fol with state := .failed } }

/-- A slot or card fault: its state, its CARD_FAULT (R419, R438), and the Folio command's end (log 41). -/
def cardFault (c : CardState) (cause : Nat) (s : State) : State :=
  let st := if s.fol.state = .recovering then .cardFailed else cardStatus c
  let s1 := cardAnswer st [] (raiseEvent 0x0D1 kCardFault cause s)
  { s1 with fol := { cardRest s1.fol with state := c, power := s1.fol.power && c == .unsupported } }

/-- Recovery: slot power removed for 50 ms, then Table 17-2 from step 2; a second need for it in one Folio command is the failure. -/
def startRecovery (s : State) : State :=
  if s.fol.recovered then cardFailure (cardAddress s.fol.cur) s
  else match s.fol.cur with
    | none => s
    | some c =>
      let f := s.fol
      { s with fol := { cardOff f with
          state := .recovering, recovered := true, cid := f.cid, resume := if f.task = .stat then none else some (f.task, c)
          recoveries := satAdd 16 f.recoveries 1, since := s.clk.now } }

/-- The steps whose failure is a failed identification. -/
def identTask (t : CardTask) : Bool :=
  match t with
  | .resetAnswer | .setBus | .readId | .erasePoll | .rePresent => true
  | _ => false

/-- A failed identification: the failure of a newly seated card, or of the recovery. -/
def identFail (s : State) : State := cardFailure (cardAddress (s.fol.resume.map (·.2))) s

/-! ### The blocks read for FOL_ARCH_STAT (R439) -/

/-- First block of a copy (R433). -/
def copyBase (b : Bool) : Nat := if b then 2560 else 2048

/-- A block that passes its CRC. -/
def blockOk (addr : Nat) (raw : Bytes) : Bool := fld raw 508 4 == crc32 (raw.take 508 ++ leBytes 4 addr)

/-- The payload of a block read, if it passes. -/
def payloadAt (t : Tbl Bytes) (addr : Nat) : Option Bytes :=
  match tget t addr with
  | some raw => if blockOk addr raw then some (raw.take 508) else none
  | none => none

/-- Body blocks for a number of entries. -/
def bodyBlocks (keys : Nat) : Nat := cdiv (128 * keys) 508

/-- KEYS of a header whose first block passes, at most 1,024. -/
def keysAt (t : Tbl Bytes) (base : Nat) : Option Nat :=
  match payloadAt t base with
  | some p => if fld p 12 4 ≤ 1024 then some (fld p 12 4) else none
  | none => none

def headerAddrs (base : Nat) : List Nat := (List.range 5).map (base + ·)

/-- Blocks of a copy to read for FOL_ARCH_STAT: the header, and the commit block where the header passes. -/
def statAddrs (t : Tbl Bytes) (base : Nat) : List Nat :=
  headerAddrs base ++ (if (headerAddrs base).all (fun a => (payloadAt t a).isSome) then ((keysAt t base).map (fun k => [base + 5 + bodyBlocks k])).getD []
    else [])

def statPlan (t : Tbl Bytes) : List Nat := statAddrs t 2048 ++ statAddrs t 2560

/-- GENERATION of a copy from its header and its commit block; 0 where they disagree or fail. -/
def copyGen (t : Tbl Bytes) (base : Nat) : Nat :=
  match payloadAt t base, (keysAt t base).bind (fun k => payloadAt t (base + 5 + bodyBlocks k)) with
  | some h, some c => if (headerAddrs base).all (fun a => (payloadAt t a).isSome) ∧ fld h 8 4 = fld c 4 4 then fld h 8 4 else 0
  | _, _ => 0

/-- The next block of a plan that is not read yet. -/
def nextBlock (plan : List Nat) (t : Tbl Bytes) : Option Nat := plan.find? (fun a => (tget t a).isNone)

/-- What follows the reading: the card command to repeat after a recovery, once; else the bus is at rest. -/
def afterStat (s : State) : State :=
  match s.fol.resume with
  | some (t, c) => sendCard t 2 c { s with fol := { s.fol with resume := none } }
  | none => { s with fol := { s.fol with task := .none, cur := none, wait := .none } }

/-- FOL_ARCH_STAT by the reading; a copy that ARCHIVE_WRITE has begun and not verified stays at 0 (R434). -/
def takeGens (s : State) : State :=
  let f := s.fol
  let busy := fun (b : Bool) => match f.resume with
    | some (.write _, _) | some (.verify _, _) => f.copyB == b
    | _ => false
  { s with fol := { f with genA := if busy false then 0 else copyGen f.statRead 2048, genB := if busy true then 0 else copyGen f.statRead 2560 } }

def statStep (s : State) : State :=
  match nextBlock (statPlan s.fol.statRead) s.fol.statRead with
  | some a => sendCard .stat 0 (readBlockCmd a) s
  | none => afterStat (takeGens s)

/-- The reading at the end of an identification; a locked card, and one without the archive's blocks, is not read (log 42). -/
def startStat (s : State) : State :=
  let s1 := { s with fol := { s.fol with statRead := [] } }
  if s.fol.state = .ready ∧ 3072 ≤ idCapacity s.fol then statStep s1 else afterStat (takeGens s1)

/-! ### Identification (R416, R421, R423, R424) -/

/-- Power on a GROUND probe; the RESET frame follows the line check (log 43). -/
def powerCard (s : State) : State :=
  sendCard .resetAnswer 0 { code := 0x10, arg := 0 }
    { s with fol := { s.fol with
      power := true, wide := false, div := 2000, settings := [], state := if s.fol.state = .recovering then .recovering else .identifying } }

/-- Negotiation complete: the held password is presented again to a card that reports its lock; then READY or LOCKED. -/
def identEnd (s : State) : State :=
  match s.fol.lockSeen, s.fol.password, s.fol.task with
  | true, some pw, .readId | true, some pw, .erasePoll => sendCard .rePresent 0 (unlockCmd pw) s
  | locked, _, _ =>
    let c : CardState := if locked then .locked else .ready
    let s1 := { s with fol := { s.fol with state := c } }
    startStat (match s1.fol.cid.bind (entryOf s1) with
      | some e => if e.opcode = 0x0806 then cardAnswer .ok [] s1 else s1
      | none => s1)

/-- The next setting, or a failed identification after the last. -/
def trySettings (l : List (Bool × Nat)) (s : State) : State :=
  match l with
  | [] => identFail s
  | x :: _ => sendCard .setBus 0 (setBusCmd x) { s with fol := { s.fol with settings := l } }

/-- The reset answer received. -/
def identified (data : Bytes) (s : State) : State :=
  let s1 := { s with fol := { s.fol with ident := data, lockSeen := (fld data 11 1).testBit 1, pwSet := (fld data 11 1).testBit 1 } }
  if cardSupported s1.fol then trySettings (cardSettings s1.fol) s1 else cardFault .unsupported 4 s1

/-- SET_BUS accepted: the block switches and sends READ_ID. -/
def busSet (s : State) : State :=
  match s.fol.settings with
  | [] => s
  | x :: _ => sendCard .readId 0 { code := 0x11, arg := 0 } { s with fol := { s.fol with wide := x.1, div := clockDiv x.2 } }

/-- The setting at the head does not work. -/
def nextSetting (s : State) : State := trySettings s.fol.settings.tail s

/-- READ_ID returned the reset answer unchanged, or not; a card in the middle of an erase is polled before it is READY (R432). -/
def readIdDone (data : Bytes) (erasing : Bool) (s : State) : State :=
  if data ≠ s.fol.ident then nextSetting s
  else if erasing then sendCard .erasePoll 0 statusCmd { s with fol := { s.fol with eraseStart := s.clk.now } }
  else identEnd s

/-! ### Transfer errors (R429) -/

/-- What follows the third failed attempt, or an expired t_BUSY or t_FERASE. -/
def cardGiveUp (s : State) : State :=
  match s.fol.task with
  | .setBus | .readId => nextSetting s
  | t => if identTask t then identFail s else startRecovery s

/-- A transfer error: the card command is repeated, up to 2 more times. -/
def transferError (s : State) : State :=
  match s.fol.cur with
  | none => s
  | some c =>
    if s.fol.attempt < 2 then
      sendCard s.fol.task (s.fol.attempt + 1) c { s with fol := { s.fol with retries := satAdd 16 s.fol.retries 1 } }
    else cardGiveUp s

/-- Errors counted in FOL_CNT.CRC_ERRORS. -/
def countCrc (n : Nat) (s : State) : State := { s with fol := { s.fol with crc := satAdd 16 s.fol.crc n } }

/-! ### The archive written (R433, R434) -/

def keyEntry (id : Nat) (r : KeyRec) : Bytes :=
  padTo 128 (leBytes 2 id ++ leBytes 2 r.slot.owner ++ leBytes 4 r.version ++ leBytes 1 r.slot.keyType ++ leBytes 2 r.slot.usage.toNat
    ++ leBytes 1 r.slot.matLen ++ leBytes 4 r.slot.validUntil ++ padTo 72 r.slot.material)

/-- The winning complete record of each NVM_KEY_ID whose epoch has not closed, by rising NVM_KEY_ID (log 44). -/
def archiveEntries (s : State) : List Bytes :=
  (List.range 1024).filterMap (fun id => match bestKeyRec s.nvm id with
    | some r => if validityOver s r.slot.validUntil then none else some (keyEntry id r)
    | none => none)

/-- Header, body and commit payloads of generation `g`, from one draw: K_AC, NONCE and the encapsulation's randomness. -/
def archiveBlocks (g : Nat) (draw : Bytes) (s : State) : List Bytes :=
  let entries := archiveEntries s
  let kac := draw.take 32
  let nonce := slice draw 32 12
  let prov := (provBundle s).getD []
  let sent := Config.encapsulate (slice prov 2109 97) (slice prov 2206 1568) (draw.drop 44)
  let kEsc := kdf sent.2 (label "escrow") (leBytes 4 g ++ blockId s) 256
  let head := padTo 2540 (leBytes 4 0x4B415231 ++ leBytes 1 1 ++ zeros 3 ++ leBytes 4 g ++ leBytes 4 entries.length ++ zeros 56 ++ blockId s
    ++ nonce ++ padTo 40 (Config.kwpWrap (kArch g) kac) ++ padTo 1665 sent.1 ++ padTo 40 (Config.kwpWrap kEsc kac))
  let n := 128 * entries.length
  let sealedBody := padTo (n + 16) (gcmSeal kac nonce head entries.flatten)
  chunksOf 5 508 head ++ (List.range (bodyBlocks entries.length)).map (fun i => padTo 508 ((sealedBody.take n).drop (508 * i)))
    ++ [padTo 508 (leBytes 4 0x4B414352 ++ leBytes 4 g ++ sealedBody.drop n)]

/-- A card block with its CRC. -/
def rawBlock (addr : Nat) (p : Bytes) : Bytes := padTo 508 p ++ leBytes 4 (crc32 (padTo 508 p ++ leBytes 4 addr))

def setGen (b : Bool) (g : Nat) (f : Folio) : Folio := if b then { f with genB := g } else { f with genA := g }

/-- Block `i` of the copy at hand written: its FOL_ARCH_STAT generation is 0 from here on. -/
def writeArch (i : Nat) (s : State) : State :=
  let a := copyBase s.fol.copyB + i
  sendCard (.write i) 0 { code := 0x05, arg := a, data := rawBlock a ((s.fol.blocks[i]?).getD []) }
    { s with fol := setGen s.fol.copyB 0 s.fol }

def verifyArch (i : Nat) (s : State) : State := sendCard (.verify i) 0 (readBlockCmd (copyBase s.fol.copyB + i)) s

/-- A copy read back: the second copy follows the first; after it the command completes. -/
def copyVerified (s : State) : State :=
  let s1 := { s with fol := setGen s.fol.copyB s.fol.archGen s.fol }
  if !s1.fol.second then writeArch 0 { s1 with fol := { s1.fol with copyB := !s1.fol.copyB, second := true } }
  else
    let s2 := cardAnswer .ok (leBytes 4 s1.fol.archKeys ++ leBytes 4 s1.fol.archGen) s1
    { s2 with fol := { cardRest s2.fol with blocks := [] } }

/-! ### The archive restored (R435, R436; 18 R448) -/

/-- Blocks of a copy to read; a header whose first block fails is given its length by the other copy. -/
def copyAddrs (t : Tbl Bytes) (b : Bool) : List Nat :=
  let base := copyBase b
  match (keysAt t base).orElse (fun _ => keysAt t (copyBase (!b))) with
  | some k => (List.range (6 + bodyBlocks k)).map (base + ·)
  | none => headerAddrs base

/-- The order of the reads: both headers, copy A, copy B. -/
def restorePlan (t : Tbl Bytes) : List Nat := headerAddrs 2048 ++ headerAddrs 2560 ++ copyAddrs t false ++ copyAddrs t true

/-- The payloads of a copy, one for each block; none for a block that fails. -/
def copyPayloads (t : Tbl Bytes) (b : Bool) : List (Option Bytes) := (copyAddrs t b).map (payloadAt t)

/-- An archive whose blocks all pass: its header, KEYS, generation, and body with its tag. -/
structure Archive where
  header : Bytes
  keys : Nat
  gen : Nat
  body : Bytes

/-- The checks of R435 but for the GCM tag. -/
def archiveOf (ps : List (Option Bytes)) : Option Archive :=
  let l := ps.filterMap id
  let head := (l.take 5).flatten
  let keys := fld head 12 4
  let commit := (l.getLast?).getD []
  if l.length = ps.length ∧ l.length = 6 + bodyBlocks keys ∧ keys ≤ 1024 ∧ fld head 0 4 = 0x4B415231 ∧ fld head 4 1 = 1 ∧ fld commit 0 4 = 0x4B414352
      ∧ fld commit 4 4 = fld head 8 4 then
    some { header := head, keys := keys, gen := fld head 8 4, body := ((l.drop 5).flatten).take (128 * keys) ++ slice commit 8 16 }
  else none

/-- One copy from the blocks of both that pass; none where a block fails in both, or the copies differ. -/
def mergePayloads (a b : List (Option Bytes)) : Option (List (Option Bytes)) :=
  if a.length = b.length ∧ (List.zip a b).all (fun p => match p.1, p.2 with
      | some x, some y => x == y
      | none, none => false
      | _, _ => true) then some (List.zipWith (fun x y => x.orElse (fun _ => y)) a b)
  else none

/-- The copies to be considered, the highest generation first; a rebuilt one only where neither stands by itself. -/
def archiveCandidates (t : Tbl Bytes) : List Archive :=
  let a := copyPayloads t false
  let b := copyPayloads t true
  match archiveOf a, archiveOf b with
  | some x, some y => if x.gen < y.gen then [y, x] else [x, y]
  | some x, none => [x]
  | none, some y => [y]
  | none, none => ((mergePayloads a b).bind archiveOf).toList

/-- A bundle for an archive, to the pair held (18 R448). -/
def bundleHolds (b : Bytes) (id : Nat) (x : Archive) (s : State) : Bool :=
  b.length == 5229 && operatorSigned (provBundle s) 0x4B525731 b && slice b 64 48 == blockId s && fld b 8 4 == id
    && slice b 16 48 == slice x.header 72 48 && fld b 12 4 == x.gen

/-- K_AC of an archive: unwrapped from WRAP_BLOCK, or from the bundle with the held pair. -/
def archiveKey (bundle : Option Bytes) (x : Archive) (s : State) : Option Bytes :=
  match bundle with
  | none => if slice x.header 72 48 = blockId s then Config.kwpUnwrap (kArch x.gen) (slice x.header 132 40) else none
  | some b => match s.id.rewrap with
    | none => none
    | some (id, draw) =>
      if bundleHolds b id x s then
        Config.kwpUnwrap (kdf (Config.decapsulate draw (slice b 112 97) (slice b 209 1568)) (label "rewrap") (leBytes 4 id ++ blockId s) 256)
          (slice b 1777 40)
      else none

/-- The entries of an archive in force, opened; none where the key or the tag fails. -/
def openArchives (bundle : Option Bytes) (l : List Archive) (s : State) : Option (Archive × Bytes) :=
  match l with
  | [] => none
  | x :: r => match archiveKey bundle x s with
    | none => none
    | some k => match gcmOpen k (slice x.header 120 12) x.header x.body with
      | some p => some (x, padTo (128 * x.keys) p)
      | none => openArchives bundle r s

/-- The key record that an entry gives, under the next version; none where the entry is skipped (R436). -/
def restoreEntry (s : State) (b : Bytes) : Option KeyRec :=
  let id := fld b 0 2
  let owner := fld b 2 2
  if validityOver s (fld b 12 4) || (keyRecsOf s.nvm id).any (fun r => r.complete && r.slot.owner != owner) then none
  else
    let m := fld b 11 1
    let mat := slice b 16 (min m 72)
    some (archiveRec id (nextKeyVersion s.nvm id)
      { material := mat, keyType := fld b 8 1, state := .valid, usage := BitVec.ofNat 16 (fld b 9 2), owner := owner, matLen := m
        validUntil := fld b 12 4, kL := if fld b 9 2 / 256 % 2 = 1 then kdf mat (label "ligature") [] (8 * m) else [] })

/-- The operations of a restore, the last of which the command waits for. -/
def restoreOps (cid : Nat) (l : List NvmWork) : List NvmOp :=
  match l with
  | [] => []
  | [w] => [{ work := w, cid := some cid }]
  | w :: r => { work := w } :: restoreOps cid r

/-- The held pair is gone at its first use: with a bundle that holds for the archive (18 R445). -/
def usePair (bundle : Option Bytes) (l : List Archive) (s : State) : State :=
  match bundle, s.id.rewrap, l with
  | some b, some (id, _), x :: _ => if bundleHolds b id x s then { s with id := { s.id with rewrap := none } } else s
  | _, _, _ => s

/-- Every block read: the entries go to the key archive in order, and with a bundle ARCHIVE_GEN follows. -/
def finishRestore (e : CmdEntry) (s0 : State) : State :=
  let s := { s0 with fol := { cardRest s0.fol with readBack := [] } }
  let bundle := if par e 8 4 = 0 then none else some (landed e)
  let l := archiveCandidates s0.fol.readBack
  match openArchives bundle l s with
  | none => answer e .blobInvalid [] (usePair bundle l s)
  | some (x, plain) =>
    let recs := (chunksOf x.keys 128 plain).filterMap (restoreEntry s)
    let gen : List NvmWork := if bundle.isSome ∧ counterOf s.nvm cntArch < x.gen then [.counterProgram cntArch x.gen] else []
    let works := recs.map (fun r => NvmWork.keyProgram r) ++ gen
    let s1 := usePair bundle l s
    if works.isEmpty then answer e .ok (leBytes 4 0) s1
    else queueOps (restoreOps e.cid works)
      (setEntry e.cid (fun x => { x with committed := true, reply := some (replyTo s e .ok 0 (leBytes 4 recs.length) false) }) s1)

def restoreStep (s : State) : State :=
  match nextBlock (restorePlan s.fol.readBack) s.fol.readBack with
  | some a => sendCard .restore 0 (readBlockCmd a) s
  | none => match s.fol.cid.bind (entryOf s) with
    | some e => finishRestore e s
    | none => { s with fol := cardRest s.fol }

/-! ### A transfer completes -/

/-- A Folio command over on the bus, with its reply. -/
def cardOk (s : State) : State :=
  let s1 := cardAnswer .ok [] s
  { s1 with fol := cardRest s1.fol }

/-- What follows a card command carried out, with the data that it returned. -/
def cardDone (data : Bytes) (erasing : Bool) (s : State) : State :=
  match s.fol.task with
  | .none => s
  | .resetAnswer => identified data s
  | .setBus => busSet s
  | .readId => readIdDone data erasing s
  | .erasePoll => identEnd s
  | .rePresent => identEnd { s with fol := { s.fol with lockSeen := false } }
  | .stat => statStep { s with fol := { s.fol with statRead := tput s.fol.statRead ((s.fol.cur.map (·.arg)).getD 0) data } }
  | .unlock =>
    startStat (cardOk { s with fol := { s.fol with state := .ready, lockSeen := false, password := some s.fol.newPassword } })
  | .setPassword =>
    cardOk { s with fol := { s.fol with
      password := if s.fol.newPassword.isEmpty then none else some s.fol.newPassword, pwSet := !s.fol.newPassword.isEmpty } }
  | .forceErase => cardOk { s with fol := { s.fol with state := .ready, lockSeen := false, pwSet := false, genA := 0, genB := 0 } }
  | .write i => if i + 1 < s.fol.blocks.length then writeArch (i + 1) s else verifyArch 0 s
  | .verify i =>
    if data ≠ rawBlock (copyBase s.fol.copyB + i) ((s.fol.blocks[i]?).getD []) then transferError s
    else if i + 1 < s.fol.blocks.length then verifyArch (i + 1) s
    else copyVerified s
  | .restore => restoreStep { s with fol := { s.fol with readBack := tput s.fol.readBack ((s.fol.cur.map (·.arg)).getD 0) data } }

/-! ### Events of the slot -/

/-- Results of a probe (Table 17-1). -/
inductive Probe where
  | ground | key | openContact | noCard
  deriving DecidableEq, Repr

/-- The classification; at 180 mV the table's ranges meet, and at 270 mV with FOL_CD_N high none holds: `v` decides (log 45). -/
def classify (mv : Nat) (low : Bool) (v : Nat) : Probe :=
  if low then
    (if mv < 60 then .ground else if mv < 180 ∨ 270 < mv then .openContact else if mv = 180 ∧ v % 2 = 1 then .openContact else .key)
  else if mv < 270 ∨ (mv = 270 ∧ v % 2 = 1) then .openContact else .noCard

/-- A probe's result in a state that probes. -/
def probed (p : Probe) (s : State) : State :=
  let f := s.fol
  match p with
  | .ground =>
    if f.state = .empty ∨ !f.seated then s
    else if f.intent ∨ f.state = .recovering then powerCard s
    else { s with fol := { f with state := .poweredOff } }
  | r =>
    if f.state = .recovering then identFail s
    else match r with
      | .key => if f.state = .reversed ∨ f.state = .empty then s else cardFault .reversed 1 s
      | .openContact => if f.state = .openContact ∨ (f.state = .empty ∧ f.seated) then s else cardFault .openContact 2 s
      | _ =>
        let s1 := cardAnswer .cardAbsent [] s
        { s1 with fol := { s1.fol with state := .empty } }

/-- The states in which the port probes: before power is applied, and every 1 s while EMPTY or OPEN_CONTACT (R415). -/
def probes (now : Nat) (f : Folio) : Bool :=
  !f.power && (match f.state with
    | .probing | .empty | .openContact => true
    | .recovering => decide (f.since + cyMs 49 ≤ now)
    | _ => false)

/-- CARD_PROBE. -/
def execCardProbe (millivolts : BitVec 12) (seated : Bool) (s : State) : Host.Outcome State Fault Refusal :=
  .next (if cardLive s && probes s.clk.now s.fol then
      probed (classify millivolts.toNat seated (leNat (freeBytes s 1))) (useFree 1 s)
    else s)

/-- CARD_DEBOUNCE_DONE: outside P0 and P1 the card is only found seated, and identified at the return (R416, R421). -/
def execCardDebounceDone (s : State) : Host.Outcome State Fault Refusal :=
  .next (if s.fol.seated || !aonOn s then s
    else if cardLive s then
      { s with fol := { cardOff s.fol with
        seated := true, state := .probing, ident := [], genA := 0, genB := 0, insertions := wrapInc 16 s.fol.insertions } }
    else { s with fol := { s.fol with
      seated := true, ident := [], genA := 0, genB := 0, insertions := wrapInc 16 s.fol.insertions } })

/-- The commands that a removal ends: those that have begun with the card (R418). -/
def cardCommands (s : State) : List CmdEntry :=
  s.cmd.exec.filter (fun e => e.started && decide (0x0801 ≤ e.opcode) && decide (e.opcode ≤ 0x0806) && (e.committed || s.fol.cid == some e.cid))

/-- Entries of a restore not yet begun are not written any more. -/
def dropRestore (s : State) : State :=
  match s.nvm.ops with
  | [] => s
  | o :: r => { s with nvm := { s.nvm with ops := o :: r.filter (fun x => match x.work with
      | .keyProgram _ => (x.cid.bind (entryOf s)).isSome
      | _ => true) } }

/-- CARD_REMOVAL. -/
def execCardRemoval (s : State) : Host.Outcome State Fault Refusal :=
  .next (if aonOn s then
      let s1 := if cardLive s then dropRestore ((cardCommands s).foldl (fun a e => answer e .cardAbsent [] a) s) else s
      { s1 with fol := { cardOff s1.fol with seated := false, password := none, state := .empty } }
    else s)

/-- SLOT_POWER_FAIL (R417). -/
def execSlotPowerFail (s : State) : Host.Outcome State Fault Refusal :=
  .next (if cardLive s && s.fol.power then cardFault .short 3 { s with fol := { s.fol with wide := false, div := 2000 } } else s)

/-! ### Events of the bus -/

/-- PW_FAIL answered to an UNLOCK or SET_PASSWORD: the reply waits 1 s (R430, R431); to the held password it fails the recovery, or
leaves the card LOCKED. -/
def pwFailed (s : State) : State :=
  if s.fol.task = .rePresent then (if s.fol.state = .recovering then identFail s else identEnd s)
  else { s with fol := { s.fol with cur := none, wait := .none, pwFailAt := some s.clk.now } }

/-- A valid response frame with its card status: what the transfer waits for next. -/
def responded (c : CardCmd) (st : Nat) (s0 : State) : State :=
  let keep := s0.fol.lockSeen && identTask s0.fol.task
  let s := { s0 with fol := { s0.fol with lockSeen := keep || st.testBit 1, pwSet := st.testBit 2 } }
  let waitFor := fun (w : CardWait) => { s with fol := { s.fol with wait := w, since := s.clk.now } }
  if st.testBit 3 ∨ st.testBit 6 then transferError s
  else if st.testBit 4 ∨ st.testBit 5 then
    (if identTask s.fol.task then identFail s else cardFailure (cardAddress (some c)) s)
  else if st.testBit 7 ∧ (c.code = 0x08 ∨ c.code = 0x09) then pwFailed s
  else match c.code with
    | 0x04 => waitFor .readData
    | 0x11 => { s with fol := { s.fol with wait := .readData, since := s.clk.now, eraseSeen := st.testBit 8 } }
    | 0x05 | 0x08 | 0x09 => waitFor .ack
    | 0x0C => { s with fol := { s.fol with wait := .busy, since := s.clk.now, eraseStart := s.clk.now } }
    | 0x13 => if st.testBit 8 then waitFor .busy else cardDone [] false s
    | _ => cardDone [] false s

/-- CARD_RESPONSE_FRAME. -/
def execCardResponseFrame (frame : BitVec 48) (s : State) : Host.Outcome State Fault Refusal :=
  .next (match s.fol.cur with
    | none => s
    | some c =>
      if !cardLive s || s.fol.wait != .response then s
      else
        let w := frame.toNat
        if bits w 1 7 ≠ (crc7 frame).toNat then transferError (countCrc 1 s)
        else if bits w 45 3 ≠ 1 ∨ bits w 0 1 ≠ 1 ∨ bits w 40 5 ≠ c.code then transferError s
        else responded c (bits w 8 32) s)

/-- Bytes on each line, and in all, of a read. -/
def readSize (c : CardCmd) : Nat := if c.code = 0x10 ∨ c.code = 0x11 then 32 else 512

/-- CARD_DATA_BLOCK. -/
def execCardDataBlock (lines : List (List Bool)) (s : State) : Host.Outcome State Fault Refusal :=
  .next (match s.fol.cur with
    | none => s
    | some c =>
      if !cardLive s || s.fol.wait != .readData then s
      else
        let k := if s.fol.wide then 4 else 1
        let n := readSize c / k
        let bad := (lines.filter (fun l => lineFramed n l && !lineCrcOk n l)).length
        if lines.length ≠ k ∨ !lines.all (lineFramed n) ∨ bad ≠ 0 then transferError (countCrc bad s)
        else cardDone (dealt (readSize c) (lines.map (fun l => lineBytes n (l.drop 4)))) s.fol.eraseSeen s)

/-- CARD_ACK_BYTE. -/
def execCardAckByte (ack : Byte) (s : State) : Host.Outcome State Fault Refusal :=
  .next (if !cardLive s || s.fol.wait != .ack then s
    else if ack = 0xA5 then { s with fol := { s.fol with wait := .busy, since := s.clk.now } }
    else transferError (countCrc 1 s))

/-- CARD_BUSY_END: between the segments of an erase the block polls STATUS (R432). -/
def execCardBusyEnd (s : State) : Host.Outcome State Fault Refusal :=
  .next (match s.fol.cur with
    | none => s
    | some c =>
      if !cardLive s || s.fol.wait != .busy then s
      else if c.code = 0x0C ∨ c.code = 0x13 then sendCard s.fol.task 0 statusCmd s
      else cardDone [] false s)

/-- FOL_CLK cycles of a command frame, and of the data of a write on each line: the limits run from their ends (R425, R426). -/
def frameClocks : Nat := 48

def writeClocks (f : Folio) : Nat := 8 * 512 / (if f.wide then 4 else 1) + 22

/-- The limits of Table 17-7 in SKEIN cycles, and whether the port waits for them. -/
def timerRuns (f : Folio) (t : CardTimer) : Option Nat :=
  let reset := (f.cur.map (·.code)) == some 0x10
  match t with
  | .response => if f.wait == .response then some (f.since + cyCtrl ((frameClocks + 96) * f.div)) else none
  | .readData => if f.wait == .readData && !reset then some (f.since + cyMs 100) else none
  | .ack => if f.wait == .ack then some (f.since + cyCtrl ((writeClocks f + 16) * f.div)) else none
  | .busy =>
    if f.wait == .busy then some (f.since + cyMs (if 1 ≤ f.busyMs ∧ f.busyMs ≤ 10000 then f.busyMs else 1000)) else none
  | .ident => if f.wait == .readData && reset then some (f.since + cyCtrl (frameClocks * f.div) + cyMs 250) else none
  | .forceErase =>
    if f.task == .forceErase || f.task == .erasePoll then some (f.eraseStart + cyMs 10000 + 1500000000 * (512 * idCapacity f) / 2 ^ 30) else none

/-- CARD_TIMEOUT. -/
def execCardTimeout (limit : CardTimer) (s : State) : Host.Outcome State Fault Refusal :=
  .next (match timerRuns s.fol limit with
    | none => s
    | some due =>
      if !cardLive s || decide (s.clk.now < due) then s
      else match limit with
        | .response | .readData | .ack => transferError s
        | .busy => cardGiveUp s
        | .forceErase => cardGiveUp { s with fol := { s.fol with cur := if s.fol.task = .forceErase then some forceEraseCmd else s.fol.cur } }
        | .ident => identFail s)

/-- CARD_PW_FAIL_REPLY. -/
def execCardPwFailReply (s : State) : Host.Outcome State Fault Refusal :=
  .next (match s.fol.pwFailAt with
    | none => s
    | some t =>
      if !cardLive s || decide (s.clk.now < t + cyMs 1000) then s
      else
        let s1 := cardAnswer .cardLocked [] s
        { s1 with fol := cardRest s1.fol })

/-! ### The Folio commands -/

/-- What the settled state of the slot answers a command (17 Table 17-4). -/
def slotFault (lockedRuns : Bool) (s : State) : Option (Status × Nat) :=
  if cardBusy s.fol then none
  else match cardStatus s.fol.state with
    | .ok => if s.fol.state = .locked ∧ !lockedRuns then some (.cardLocked, 0) else none
    | st => some (st, 0)

/-- A card without the password feature. -/
def passwordFault (s : State) : Option (Status × Nat) :=
  if !cardBusy s.fol && !(fld s.fol.ident 11 1).testBit 0 then some (.notPermitted, 0) else none

/-- ARCHIVE_WRITE needs the room, the escrow key and randomness. -/
def archiveFault (s : State) : Option (Status × Nat) :=
  if cardBusy s.fol then none
  else if idCapacity s.fol < 3072 ∨ !escrowKeyIn s then some (.notPermitted, 0)
  else if !feedReady s 7 then some (.rngUnavailable, 0)
  else none

/-- A command that needs the card: it waits until the state settles, and is then decided by it (Table 17-4). -/
def withCard (lockedRuns : Bool) (e : CmdEntry) (f : State → State) (s : State) : State :=
  if cardBusy s.fol then s
  else match slotFault lockedRuns s with
    | some d => refuseAt e d.1 d.2 s
    | none => f s

/-- A Folio command takes the bus. -/
def takeBus (e : CmdEntry) (s : State) : State :=
  setEntry e.cid (fun x => { x with committed := true }) { s with fol := { cardRest s.fol with cid := some e.cid } }

/-- CARD_QUERY. -/
def execCardQuery (s : State) : Host.Outcome State Fault Refusal :=
  .next (onCommand 0x0800 (fun e s => answer e .ok (leBytes 1 s.fol.state.code ++ zeros 7 ++ padTo 32 s.fol.ident) s) s)

/-- CARD_UNLOCK. -/
def execCardUnlock (s : State) : Host.Outcome State Fault Refusal :=
  .next (onCommand 0x0801 (fun e s => withCard true e (fun s =>
    let pw := (slice e.bytes 17 16).take (par e 0 1)
    if s.fol.state = .ready ∧ !s.fol.pwSet then answer e .ok [] s
    else sendCard .unlock 0 (unlockCmd pw) (takeBus e { s with fol := { s.fol with newPassword := pw } })) s) s)

/-- CARD_SET_PASSWORD. -/
def execCardSetPassword (s : State) : Host.Outcome State Fault Refusal :=
  .next (onCommand 0x0802 (fun e s => withCard true e (fun s =>
    let old := (slice e.bytes 17 16).take (par e 0 1)
    let new := (slice e.bytes 34 16).take (par e 17 1)
    match passwordFault s with
    | some f => refuseAt e f.1 f.2 s
    | none => sendCard .setPassword 0 { code := 0x09, arg := par e 0 1 + 256 * par e 17 1, data := padTo 512 (padTo 16 old ++ padTo 16 new) }
      (takeBus e { s with fol := { s.fol with newPassword := new } })) s) s)

/-- CARD_FORCE_ERASE. -/
def execCardForceErase (s : State) : Host.Outcome State Fault Refusal :=
  .next (onCommand 0x0803 (fun e s => withCard true e (fun s =>
    sendCard .forceErase 0 forceEraseCmd (takeBus e s)) s) s)

/-- ARCHIVE_WRITE: the counter first; then the draw, the entries and the copies. -/
def execArchiveWrite (s : State) : Host.Outcome State Fault Refusal :=
  .next (onCommand 0x0804 (fun e s => withCard false e (fun s =>
    if e.phase = 0 then
      (match archiveFault s with
       | some f => refuseAt e f.1 f.2 s
       | none => setEntry e.cid (fun x => { x with committed := true, phase := 1 })
         (nvmQueue { work := .counterProgram cntArch (counterOf s.nvm cntArch + 1), cid := some e.cid } s))
    else if !feedReady s 7 then refuseAt e .rngUnavailable 0 s
    else
      let g := counterOf s.nvm cntArch % 2 ^ 32
      let l := archiveBlocks g (freeBytes s 124) s
      let s1 := takeBus e (feedDraw 7 (feedDraw 7 (useFree 124 s)))
      writeArch 0 { s1 with fol := { s1.fol with
        blocks := l, archKeys := (archiveEntries s).length, archGen := g, copyB := decide (s.fol.genB < s.fol.genA), second := false } }) s) s)

/-- ARCHIVE_RESTORE: a bundle is read once and its signatures are checked as Hook work of the block; then both copies are read. -/
def execArchiveRestore (s : State) : Host.Outcome State Fault Refusal :=
  .next (onCommand 0x0805 (fun e s =>
    if 16384 < par e 8 4 then refuseAt e .invalidField 24 s
    else withCard false e (fun s =>
      let begin := fun (s : State) =>
        if idCapacity s.fol < 3072 then answer e .blobInvalid [] s
        else (let s1 := takeBus e s; restoreStep { s1 with fol := { s1.fol with readBack := [] } })
      if par e 8 4 = 0 then begin s
      else if !e.readIssued then cmdRead e (par e 0 8) (par e 8 4) s
      else onHook e verifyCycles begin s) s) s)

/-- CARD_POWER. -/
def execCardPower (s : State) : Host.Outcome State Fault Refusal :=
  .next (onCommand 0x0806 (fun e s =>
    if par e 0 1 = 0 then
      answer e .ok [] { s with fol := { cardOff s.fol with
        intent := false, password := none, state := if s.fol.seated then .poweredOff else .empty } }
    else if !s.fol.seated then answer e .cardAbsent [] { s with fol := { s.fol with intent := true } }
    else
      let s1 := { s with fol := { cardOff s.fol with intent := true, state := .probing, cid := some e.cid } }
      setEntry e.cid (fun x => { x with committed := true }) s1) s)

end Sys2Proof.Machine
end

