-- ==== Sys2Proof/Machine/TakeUp.lean ====
section
/-! DEFINITION. Taking up packets: the checks of 03 R463, the maintenance token and the start of execution (03 R70 to R73, R78,
R80). -/
namespace Sys2Proof.Machine

/-! ### Check 6 of the commands that need the token (03 R463) -/

/-- What the owning chapter's checks answer at take-up, before the token check (03 R463): for the commands marked T. -/
def ownFault (s : State) (e : CmdEntry) : Option (Status × Nat) :=
  match e.opcode with
  | 0x0004 => handoverFault s
  | 0x0204 => keyStoreFault e s
  | 0x0505 => injectFault e s
  | 0x0506 | 0x0507 => if !kindBusy s (unitKind (par e 0 2)) && floorForbids s (par e 0 2) then some (.capacityFloor, 0) else none
  | 0x0509 => rowFault e s
  | 0x0601 => if par e 8 4 = 0 ∨ 65536 < par e 8 4 then some (.invalidField, 24) else none
  | 0x0604 => counterFault e s
  | 0x0700 => fwBeginFault e s
  | 0x0707 => if par e 8 4 < 32 ∨ 4128 < par e 8 4 then some (.invalidField, 24) else none
  | 0x0802 => (slotFault true s).orElse (fun _ => passwordFault s)
  | 0x0803 => slotFault true s
  | 0x0804 => (slotFault false s).orElse (fun _ => archiveFault s)
  | 0x0805 => if 16384 < par e 8 4 then some (.invalidField, 24) else slotFault false s
  | _ => none

/-! ### Taking up a packet (03 R78, R80, R463) -/

/-- The acceptance time of the tail write that made the packet at `off` of `len` bytes visible (03 Table 3-2). -/
def visibleAt (c : Cmd) (off len now : Nat) : Nat :=
  let need := (off + len) % adminSize c
  let d := fun (x : Nat) => (x + adminSize c - off % adminSize c) % adminSize c
  ((c.tailTimes.find? (fun t => decide (d need ≤ d t.1) && decide (0 < d t.1))).map (·.2)).getD now

/-- Whether WAIT is set (03 Table 3-2; v2 only). -/
def waitFlag (b : Bytes) : Bool := fld b 2 1 == 2 && bits (fld b 3 1) 1 1 == 1

/-- The token check of a packet that passed the checks of 03 R463 (R80, R83): a refusal, or the entry with its token. A FW_BEGIN opens a new
activity, whose H packets an earlier abort does not reach. -/
def tokenCheck (c : Cmd) (e : CmdEntry) : (Status × Nat) ⊕ (CmdEntry × Option Token × Bool) :=
  match (opInfo e.opcode).map (·.tok) with
  | some TokNeed.t =>
    let aborted := c.aborted && e.opcode != 0x0700
    if c.tokenHold then .inr ({ e with waitToken := true }, c.token, aborted)
    else match c.token with
    | none => .inr (e, some { opcode := e.opcode, holder := some e.cid }, aborted)
    | some t => if waitFlag e.bytes then .inr ({ e with waitToken := true }, c.token, aborted) else .inl (.maintBusy, t.opcode)
  | some TokNeed.h =>
    if c.aborted then .inl (.maintAborted, 0)
    else match c.token with
      | some t => if t.opcode = fwToken then .inr (e, c.token, false) else .inl (.notPermitted, 0)
      | none => .inl (.notPermitted, 0)
  | _ => .inr (e, c.token, c.aborted)

/-- An entry for the packet in `bytes`. -/
def newEntry (c : Cmd) (via : Via) (bytes : Bytes) (due_ : Option Nat) : CmdEntry :=
  { cid := c.nextCid, via := via, bytes := bytes, opcode := fld bytes 0 2, port := fld bytes 8 2, due := due_, adminGen := c.adminGen }

/-- What a command without token need would be refused with if it ran alone now: the checks of its owning chapter, in that chapter's
order, are those that its meaning makes before its effect. -/
def trialFault (run : State → Host.Outcome State Fault Refusal) (e : CmdEntry) (s : State) : Option (Status × Nat) :=
  match run { s with cmd := { s.cmd with exec := [{ e with started := true, via := .ring 0 }], held := [], replyOut := none, replyEn := false } } with
  | .next t => match t.cmd.held with
    | h :: _ => if h.reply.status = .ok ∨ h.reply.status = .lengthTruncated then none else some (h.reply.status, h.reply.detail)
    | [] => none
  | _ => none

/-- The commands without token need (03 Tables 3-5 to 3-15), by their opcodes. -/
def plainCommand (op : Nat) : Option (State → Host.Outcome State Fault Refusal) :=
  match op with
  | 0x0002 => some execStatusSnapshot | 0x0003 => some execSetPowerPolicy
  | 0x0100 => some execCpOpen | 0x0101 => some execCpClose | 0x0102 => some execCpSetPolicy | 0x0103 => some execCpSetQuota
  | 0x0200 => some execKeyImport | 0x0201 => some execKeyGenerate | 0x0202 => some execKeyExport | 0x0203 => some execKeyDestroy
  | 0x0205 => some execKeyLoadNvm | 0x0206 => some execSessionCreate | 0x0207 => some execSessionBindRing
  | 0x0208 => some execSessionClose | 0x0209 => some execSessionQuery
  | 0x0300 => some execRingCreate | 0x0301 => some execCplRingCreate | 0x0302 => some execRingDestroy
  | 0x0303 => some execRingRestart | 0x0304 => some execRingSetCoalesce
  | 0x0400 => some execStreamOpen | 0x0401 => some execStreamClose | 0x0402 => some execStreamDropRest | 0x0403 => some execStreamSetWindow
  | 0x0406 => some execEpochSchedule
  | 0x0500 => some execFltSetClass | 0x0501 => some execFltSetTimers | 0x0502 => some execFltAck | 0x0503 => some execFltClear
  | 0x0504 => some execFltReleaseErr | 0x0508 => some execSweepControl | 0x0603 => some execCounterRead
  | 0x0705 => some execConfirmHealth | 0x0800 => some execCardQuery | 0x0801 => some execCardUnlock | 0x0806 => some execCardPower
  | 0x0900 => some execWindowLease | 0x0901 => some execWindowRelease | 0x0902 => some execOperandClear
  | 0x0A00 => some execRngFill | 0x0A01 => some execRngReseed
  | _ => none

/-- Check 6 of 03 R463: of a command that needs the token by its fault function, of one that needs none by a trial. The checks of an H
command are made when it runs: its activity comes first (R80). -/
def chapterFault (s : State) (e : CmdEntry) : Option (Status × Nat) :=
  match (opInfo e.opcode).map (·.tok) with
  | some TokNeed.t => ownFault s e
  | some TokNeed.none => (plainCommand e.opcode).bind (fun run => trialFault run e s)
  | _ => none

/-- The checks of 03 R463 at take-up, in their order (log 46). -/
def takeUpFault (s : State) (e : CmdEntry) : Option (Status × Nat) :=
  match packetFault1 s.fuse.lifecycle e.bytes with
  | some f => some f
  | none => match packetFault2 (tgetD s.ports e.port {}).isOpen (e.via == .mailbox) e.bytes with
    | some f => some f
    | none => chapterFault s e

/-- A packet taken up: its checks, the token, then execution or its refusal; one whose latest start has passed does not start (03 R75, R80,
R463). -/
def takeUp1 (e : CmdEntry) (s : State) : State :=
  let next := { s with cmd := { s.cmd with nextCid := s.cmd.nextCid + 1 } }
  match takeUpFault s e with
  | some f => refuseAt e f.1 f.2 next
  | none =>
    match tokenCheck s.cmd e with
    | .inl f => refuseAt e f.1 f.2 (if f.1 = .maintAborted then { next with cmd := { next.cmd with aborted := false } } else next)
    | .inr q => if tooLate s.clk.now e then refuseAt e .deadlineMissed 0 next
      else { s with cmd := enqueueEntry s.clk.now q.1 { s.cmd with token := q.2.1, aborted := q.2.2 } }

/-- Whether a packet that cannot start yet blocks the ones behind it (03 R78). -/
def startBlocked (now : Nat) (c : Cmd) : Bool := c.exec.any (fun e => !e.started && !(runnable now c).any (fun x => x.cid == e.cid))

/-- A mailbox packet that GO submitted and the Scribe has not taken up. -/
def mboxWaits (c : Cmd) : Bool := c.mboxGo && !c.exec.any (fun e => e.via == .mailbox)

/-- The mailbox packet taken up (03 R73). -/
def takeMbox (s : State) : State :=
  let len := fld s.cmd.mbox 4 2
  let b := s.cmd.mbox.take (8 * (if 2 ≤ len ∧ len ≤ 16 then len else 2))
  takeUp1 (newEntry s.cmd .mailbox b (packetDue s.cmd.mboxAt b)) s

/-- The reply to a framing error: INVALID_FIELD with the ring offset, HALTED, an event on 0x0A3 (03 R71). -/
def framingHalt (off : Nat) (s : State) : State :=
  let b := s.cmd.landing
  let r : Reply := { opcode := fld b 0 2, status := .invalidField, rflags := 0, sequence := fld b 6 2, port := fld b 8 2
                     epoch := batonEpoch s % 65536, detail := off, payload := [] }
  raiseEvent 0x0A3 kAdminFraming off
    (sendReply (haltAdmin { s with cmd := { s.cmd with haltReply := none, held := s.cmd.held ++ [{ reply := r, notify := s.cmd.notifyAll || fld b 3 1 % 2 == 1, entry := none }] } }))

/-- The next admin-ring packet taken up (03 R70, R71, R78). -/
def takeAdmin (s : State) : State :=
  let c := s.cmd
  match c.haltReply with
  | some off => if c.exec.isEmpty then framingHalt off s else s
  | none =>
    if c.halted || !c.adminEn || decide (c.landing.length < 8) then s
    else
      let n := 8 * fld c.landing 4 2
      let avail := adminAvail c c.takePtr
      if n < 16 ∨ avail < n then
        (let s1 := { s with cmd := { c with haltReply := some c.takePtr } }
         if c.exec.isEmpty then framingHalt c.takePtr s1 else s1)
      else if c.landing.length < n ∨ startBlocked s.clk.now c ∨ replyHeld c then s
      else
        let b := c.landing.take n
        let e := newEntry c (.ring c.takePtr) b (packetDue (visibleAt c c.takePtr n s.clk.now) b)
        takeUp1 e { s with cmd := { c with
          landing := c.landing.drop n, takePtr := (c.takePtr + n) % adminSize c
          tailTimes := c.tailTimes.dropWhile (fun t => decide ((t.1 + adminSize c - c.takePtr % adminSize c) % adminSize c ≤ n)) } }

/-- ADMIN_PACKET_FETCH: a waiting mailbox packet first (03 R73), else the next packet of the ring. -/
def execAdminPacketFetch (s : State) : Host.Outcome State Fault Refusal :=
  .next (if running s then
      (if mboxWaits s.cmd then takeMbox s else adminFetch (readFailHalt (takeAdmin (adminFetch s))))
    else s)

end Sys2Proof.Machine
end

