-- ==== Sys2Proof/Machine/Dispatch.lean ====
section
/-! DEFINITION. The meaning of every command: one arm per row of the table, in its order. -/
namespace Sys2Proof.Machine

def exec (i : Instr) (s : State) : Host.Outcome State Fault Refusal :=
  match i with
  | .aonPowerOnReset => Sys2Proof.Machine.execAonPowerOnReset s
  | .coreResetAssert => Sys2Proof.Machine.execCoreResetAssert s
  | .coreResetRelease tests => Sys2Proof.Machine.execCoreResetRelease tests s
  | .carveInitComplete => Sys2Proof.Machine.execCarveInitComplete s
  | .pllRefclkLoss => Sys2Proof.Machine.execPllRefclkLoss s
  | .aonXtalLoss => Sys2Proof.Machine.execAonXtalLoss s
  | .aonXtalReturn => Sys2Proof.Machine.execAonXtalReturn s
  | .vddNvmBrownout => Sys2Proof.Machine.execVddNvmBrownout s
  | .vddNvmRecover => Sys2Proof.Machine.execVddNvmRecover s
  | .vddNvmLowTimeout => Sys2Proof.Machine.execVddNvmLowTimeout s
  | .fabReadData port tag status parityOk last data => Sys2Proof.Machine.execFabReadData port tag status parityOk last data s
  | .fabWriteAck port tag status => Sys2Proof.Machine.execFabWriteAck port tag status s
  | .fabricTimeout port tag => Sys2Proof.Machine.execFabricTimeout port tag s
  | .fabCreditReturn port req wdat => Sys2Proof.Machine.execFabCreditReturn port req wdat s
  | .fabPortResetAssert port => Sys2Proof.Machine.execFabPortResetAssert port s
  | .fabPortResetRelease port => Sys2Proof.Machine.execFabPortResetRelease port s
  | .fabClockLost port => Sys2Proof.Machine.execFabClockLost port s
  | .creditRateMeasure => Sys2Proof.Machine.execCreditRateMeasure s
  | .registerWrite addr lanes data => Sys2Proof.Machine.execRegisterWrite addr lanes data s
  | .rcCounterRead addr lanes => Sys2Proof.Machine.execRcCounterRead addr lanes s
  | .doorbellDirectWrite page slot sid wide data => Sys2Proof.Machine.execDoorbellDirectWrite page slot sid wide data s
  | .doorbellIndirectTail page sid wide data => Sys2Proof.Machine.execDoorbellIndirectTail page sid wide data s
  | .doorbellIndirectHead page sid wide data => Sys2Proof.Machine.execDoorbellIndirectHead page sid wide data s
  | .cmdAdminTailWrite lanes data => Sys2Proof.Machine.execCmdAdminTailWrite lanes data s
  | .cmdAdminEnableWrite lanes data => Sys2Proof.Machine.execCmdAdminEnableWrite lanes data s
  | .cmdAdminReset lanes data => Sys2Proof.Machine.execCmdAdminReset lanes data s
  | .cmdReplyHeadWrite lanes data => Sys2Proof.Machine.execCmdReplyHeadWrite lanes data s
  | .cmdReplyEnableWrite lanes data => Sys2Proof.Machine.execCmdReplyEnableWrite lanes data s
  | .cmdMboxGo lanes data => Sys2Proof.Machine.execCmdMboxGo lanes data s
  | .glbPowerWakeWrite lanes data => Sys2Proof.Machine.execGlbPowerWakeWrite lanes data s
  | .glbCarveEnableWrite lanes data => Sys2Proof.Machine.execGlbCarveEnableWrite lanes data s
  | .glbLedgerHeadWrite lanes data => Sys2Proof.Machine.execGlbLedgerHeadWrite lanes data s
  | .cpwIrqEnableWrite lanes data => Sys2Proof.Machine.execCpwIrqEnableWrite lanes data s
  | .rngRotateWrite lanes data => Sys2Proof.Machine.execRngRotateWrite lanes data s
  | .rngDataRead lanes => Sys2Proof.Machine.execRngDataRead lanes s
  | .fltMsgRead lanes => Sys2Proof.Machine.execFltMsgRead lanes s
  | .timNowSecRead lanes => Sys2Proof.Machine.execTimNowSecRead lanes s
  | .laneRetrain lanes data => Sys2Proof.Machine.execLaneRetrain lanes data s
  | .adminPacketFetch => Sys2Proof.Machine.execAdminPacketFetch s
  | .commandDeadlineExpiry => Sys2Proof.Machine.execCommandDeadlineExpiry s
  | .fenceDrainComplete => Sys2Proof.Machine.execFenceDrainComplete s
  | .nop => Sys2Proof.Machine.execNop s
  | .getInfo => Sys2Proof.Machine.execGetInfo s
  | .statusSnapshot => Sys2Proof.Machine.execStatusSnapshot s
  | .setPowerPolicy => Sys2Proof.Machine.execSetPowerPolicy s
  | .scribeHandover => Sys2Proof.Machine.execScribeHandover s
  | .cpOpen => Sys2Proof.Machine.execCpOpen s
  | .cpClose => Sys2Proof.Machine.execCpClose s
  | .cpSetPolicy => Sys2Proof.Machine.execCpSetPolicy s
  | .cpSetQuota => Sys2Proof.Machine.execCpSetQuota s
  | .cpQuery => Sys2Proof.Machine.execCpQuery s
  | .keyImport => Sys2Proof.Machine.execKeyImport s
  | .keyGenerate => Sys2Proof.Machine.execKeyGenerate s
  | .keyExport => Sys2Proof.Machine.execKeyExport s
  | .keyDestroy => Sys2Proof.Machine.execKeyDestroy s
  | .keyStoreNvm => Sys2Proof.Machine.execKeyStoreNvm s
  | .keyLoadNvm => Sys2Proof.Machine.execKeyLoadNvm s
  | .sessionCreate => Sys2Proof.Machine.execSessionCreate s
  | .sessionBindRing => Sys2Proof.Machine.execSessionBindRing s
  | .sessionClose => Sys2Proof.Machine.execSessionClose s
  | .sessionQuery => Sys2Proof.Machine.execSessionQuery s
  | .ringCreate => Sys2Proof.Machine.execRingCreate s
  | .cplRingCreate => Sys2Proof.Machine.execCplRingCreate s
  | .ringDestroy => Sys2Proof.Machine.execRingDestroy s
  | .ringRestart => Sys2Proof.Machine.execRingRestart s
  | .ringSetCoalesce => Sys2Proof.Machine.execRingSetCoalesce s
  | .ringQuery => Sys2Proof.Machine.execRingQuery s
  | .streamOpen => Sys2Proof.Machine.execStreamOpen s
  | .streamClose => Sys2Proof.Machine.execStreamClose s
  | .streamDropRest => Sys2Proof.Machine.execStreamDropRest s
  | .streamSetWindow => Sys2Proof.Machine.execStreamSetWindow s
  | .timeQuery => Sys2Proof.Machine.execTimeQuery s
  | .timeSetPolicy => Sys2Proof.Machine.execTimeSetPolicy s
  | .epochSchedule => Sys2Proof.Machine.execEpochSchedule s
  | .fltSetClass => Sys2Proof.Machine.execFltSetClass s
  | .fltSetTimers => Sys2Proof.Machine.execFltSetTimers s
  | .fltAck => Sys2Proof.Machine.execFltAck s
  | .fltClear => Sys2Proof.Machine.execFltClear s
  | .fltReleaseErr => Sys2Proof.Machine.execFltReleaseErr s
  | .fltInject => Sys2Proof.Machine.execFltInject s
  | .unitRetire => Sys2Proof.Machine.execUnitRetire s
  | .unitTest => Sys2Proof.Machine.execUnitTest s
  | .sweepControl => Sys2Proof.Machine.execSweepControl s
  | .rowRepair => Sys2Proof.Machine.execRowRepair s
  | .storeSettings => Sys2Proof.Machine.execStoreSettings s
  | .settingsImageLoad => Sys2Proof.Machine.execSettingsImageLoad s
  | .nvmQuery => Sys2Proof.Machine.execNvmQuery s
  | .counterRead => Sys2Proof.Machine.execCounterRead s
  | .counterIncrement => Sys2Proof.Machine.execCounterIncrement s
  | .fwBegin => Sys2Proof.Machine.execFwBegin s
  | .fwChunk => Sys2Proof.Machine.execFwChunk s
  | .fwEnd => Sys2Proof.Machine.execFwEnd s
  | .activate => Sys2Proof.Machine.execActivate s
  | .activateAt => Sys2Proof.Machine.execActivateAt s
  | .confirmHealth => Sys2Proof.Machine.execConfirmHealth s
  | .fwAbort => Sys2Proof.Machine.execFwAbort s
  | .relayPacket => Sys2Proof.Machine.execRelayPacket s
  | .cardQuery => Sys2Proof.Machine.execCardQuery s
  | .cardUnlock => Sys2Proof.Machine.execCardUnlock s
  | .cardSetPassword => Sys2Proof.Machine.execCardSetPassword s
  | .cardForceErase => Sys2Proof.Machine.execCardForceErase s
  | .archiveWrite => Sys2Proof.Machine.execArchiveWrite s
  | .archiveRestore => Sys2Proof.Machine.execArchiveRestore s
  | .cardPower => Sys2Proof.Machine.execCardPower s
  | .windowLease => Sys2Proof.Machine.execWindowLease s
  | .windowRelease => Sys2Proof.Machine.execWindowRelease s
  | .operandClear => Sys2Proof.Machine.execOperandClear s
  | .windowQuery => Sys2Proof.Machine.execWindowQuery s
  | .rngFill => Sys2Proof.Machine.execRngFill s
  | .rngReseed => Sys2Proof.Machine.execRngReseed s
  | .rngHealth => Sys2Proof.Machine.execRngHealth s
  | .readCert => Sys2Proof.Machine.execReadCert s
  | .attest => Sys2Proof.Machine.execAttest s
  | .rewrapKey => Sys2Proof.Machine.execRewrapKey s
  | .provision => Sys2Proof.Machine.execProvision s
  | .pair => Sys2Proof.Machine.execPair s
  | .lifecycle => Sys2Proof.Machine.execLifecycle s
  | .skeinVisit => Sys2Proof.Machine.execSkeinVisit s
  | .needleAdmission => Sys2Proof.Machine.execNeedleAdmission s
  | .heldJobRelease => Sys2Proof.Machine.execHeldJobRelease s
  | .urgentSuspendComplete nib => Sys2Proof.Machine.execUrgentSuspendComplete nib s
  | .outputChunkRelease job => Sys2Proof.Machine.execOutputChunkRelease job s
  | .encrypt job agree => Sys2Proof.Machine.execEncrypt job agree s
  | .decrypt job agree => Sys2Proof.Machine.execDecrypt job agree s
  | .macGen job agree => Sys2Proof.Machine.execMacGen job agree s
  | .macVerify job agree => Sys2Proof.Machine.execMacVerify job agree s
  | .digest job agree => Sys2Proof.Machine.execDigest job agree s
  | .digestVerify job agree => Sys2Proof.Machine.execDigestVerify job agree s
  | .hmacGen job agree => Sys2Proof.Machine.execHmacGen job agree s
  | .hmacVerify job agree => Sys2Proof.Machine.execHmacVerify job agree s
  | .hookOp job agree => Sys2Proof.Machine.execHookOp job agree s
  | .random job => Sys2Proof.Machine.execRandom job s
  | .quillContextCopyEnd quill => Sys2Proof.Machine.execQuillContextCopyEnd quill s
  | .hookWindowCopyEnd hook => Sys2Proof.Machine.execHookWindowCopyEnd hook s
  | .completionPost => Sys2Proof.Machine.execCompletionPost s
  | .coalesceTimerExpiry ring => Sys2Proof.Machine.execCoalesceTimerExpiry ring s
  | .streamWord beat => Sys2Proof.Machine.execStreamWord beat s
  | .streamFrameVerify job agree parityOk => Sys2Proof.Machine.execStreamFrameVerify job agree parityOk s
  | .streamFrameTag job agree parityOk => Sys2Proof.Machine.execStreamFrameTag job agree parityOk s
  | .windowOpening channel => Sys2Proof.Machine.execWindowOpening channel s
  | .timPpsEdge ref => Sys2Proof.Machine.execTimPpsEdge ref s
  | .ppsMissing ref => Sys2Proof.Machine.execPpsMissing ref s
  | .timeInputUsable ref => Sys2Proof.Machine.execTimeInputUsable ref s
  | .timeInputUnusable clockLost => Sys2Proof.Machine.execTimeInputUnusable clockLost s
  | .timRankChange ref => Sys2Proof.Machine.execTimRankChange ref s
  | .referenceSwitchCommit => Sys2Proof.Machine.execReferenceSwitchCommit s
  | .slewEnd => Sys2Proof.Machine.execSlewEnd s
  | .epochTick => Sys2Proof.Machine.execEpochTick s
  | .epochClose => Sys2Proof.Machine.execEpochClose s
  | .keyEpochClose => Sys2Proof.Machine.execKeyEpochClose s
  | .ledgerBankWrite => Sys2Proof.Machine.execLedgerBankWrite s
  | .faultEvent source kind address => Sys2Proof.Machine.execFaultEvent source kind address s
  | .errpwExpiry => Sys2Proof.Machine.execErrpwExpiry s
  | .reactionTimerExpiry source => Sys2Proof.Machine.execReactionTimerExpiry source s
  | .escalationDeferredStart => Sys2Proof.Machine.execEscalationDeferredStart s
  | .errNReadbackMismatch level => Sys2Proof.Machine.execErrNReadbackMismatch level s
  | .sweepStep => Sys2Proof.Machine.execSweepStep s
  | .unitDrainEnd engsel => Sys2Proof.Machine.execUnitDrainEnd engsel s
  | .sweepTestEnd result => Sys2Proof.Machine.execSweepTestEnd result s
  | .rowRepairCopyEnd array => Sys2Proof.Machine.execRowRepairCopyEnd array s
  | .patrolScrubRow array row found => Sys2Proof.Machine.execPatrolScrubRow array row found s
  | .microcodeRolloverUnit unit => Sys2Proof.Machine.execMicrocodeRolloverUnit unit s
  | .cellStartupTestEnd cell pass => Sys2Proof.Machine.execCellStartupTestEnd cell pass s
  | .cellRetestEnd cell pass => Sys2Proof.Machine.execCellRetestEnd cell pass s
  | .healthWindowClose cell count => Sys2Proof.Machine.execHealthWindowClose cell count s
  | .cellRotation => Sys2Proof.Machine.execCellRotation s
  | .inkClockLost => Sys2Proof.Machine.execInkClockLost s
  | .inkClockReturn => Sys2Proof.Machine.execInkClockReturn s
  | .conditionerOutput agree => Sys2Proof.Machine.execConditionerOutput agree s
  | .feedReseedDue feed agree => Sys2Proof.Machine.execFeedReseedDue feed agree s
  | .rngDataRefill => Sys2Proof.Machine.execRngDataRefill s
  | .p1Entry => Sys2Proof.Machine.execP1Entry s
  | .deepIdleEntry => Sys2Proof.Machine.execDeepIdleEntry s
  | .powerEntryCommit => Sys2Proof.Machine.execPowerEntryCommit s
  | .wakeEvent cause => Sys2Proof.Machine.execWakeEvent cause s
  | .timedWake => Sys2Proof.Machine.execTimedWake s
  | .powerExitComplete found => Sys2Proof.Machine.execPowerExitComplete found s
  | .batonRenewal scribe epoch => Sys2Proof.Machine.execBatonRenewal scribe epoch s
  | .batonLapse => Sys2Proof.Machine.execBatonLapse s
  | .scribeGoQuiet scribe => Sys2Proof.Machine.execScribeGoQuiet scribe s
  | .standbyReady scribe => Sys2Proof.Machine.execStandbyReady scribe s
  | .nvmOperationComplete result => Sys2Proof.Machine.execNvmOperationComplete result s
  | .nvmEraseComplete blankFirst blankSecond => Sys2Proof.Machine.execNvmEraseComplete blankFirst blankSecond s
  | .logCompaction log => Sys2Proof.Machine.execLogCompaction log s
  | .journalReplayEnd => Sys2Proof.Machine.execJournalReplayEnd s
  | .activationPreparationStart => Sys2Proof.Machine.execActivationPreparationStart s
  | .tokenHoldWindowStart => Sys2Proof.Machine.execTokenHoldWindowStart s
  | .activationReadyTimeout => Sys2Proof.Machine.execActivationReadyTimeout s
  | .activationPauseStart => Sys2Proof.Machine.execActivationPauseStart s
  | .selfCheckComplete pass => Sys2Proof.Machine.execSelfCheckComplete pass s
  | .probationExpiry => Sys2Proof.Machine.execProbationExpiry s
  | .cardDebounceDone => Sys2Proof.Machine.execCardDebounceDone s
  | .cardRemoval => Sys2Proof.Machine.execCardRemoval s
  | .cardProbe millivolts seated => Sys2Proof.Machine.execCardProbe millivolts seated s
  | .slotPowerFail => Sys2Proof.Machine.execSlotPowerFail s
  | .cardResponseFrame frame => Sys2Proof.Machine.execCardResponseFrame frame s
  | .cardDataBlock lines => Sys2Proof.Machine.execCardDataBlock lines s
  | .cardAckByte ack => Sys2Proof.Machine.execCardAckByte ack s
  | .cardBusyEnd => Sys2Proof.Machine.execCardBusyEnd s
  | .cardTimeout limit => Sys2Proof.Machine.execCardTimeout limit s
  | .cardPwFailReply => Sys2Proof.Machine.execCardPwFailReply s
  | .laneHeaderLock lane => Sys2Proof.Machine.execLaneHeaderLock lane s
  | .laneLockLost lane => Sys2Proof.Machine.execLaneLockLost lane s
  | .laneDead lane => Sys2Proof.Machine.execLaneDead lane s
  | .laneAlignmentMarker lane typeByte logical complement count skew => Sys2Proof.Machine.execLaneAlignmentMarker lane typeByte logical complement count skew s
  | .flitReceived flit => Sys2Proof.Machine.execFlitReceived flit s
  | .nakReceived lastGood => Sys2Proof.Machine.execNakReceived lastGood s
  | .linkTrainingComplete healthy => Sys2Proof.Machine.execLinkTrainingComplete healthy s
  | .laneRefclkLoss => Sys2Proof.Machine.execLaneRefclkLoss s
  | .vddAonRemoved => Sys2Proof.Machine.execVddAonRemoved s
  | .tapInstruction ir => Sys2Proof.Machine.execTapInstruction ir s
  | .repetitionCountFailure cell => Sys2Proof.Machine.execRepetitionCountFailure cell s
  | .errNReadbackAgree => Sys2Proof.Machine.execErrNReadbackAgree s
  | .leaseZeroingComplete window => Sys2Proof.Machine.execLeaseZeroingComplete window s

end Sys2Proof.Machine
end

