-- ==== Sys2Proof/Machine/Tick.lean ====
section
/-! DEFINITION. What passes while no command waits: one SKEIN cycle (log 1). -/
namespace Sys2Proof.Machine

/-- The cycle count and, while VDD_AON is there, gateway and epoch time move on by one SKEIN cycle; jobs whose start has come start (05
R130), XOFF follows the occupancy (11 R293), the idle times run (14 R353), a training moves through its steps (02 R66), and accesses that waited for CRP_READY
are accepted (02 R42). -/
def tick (s : State) : State :=
  crpAccept (heldBells (trainSteps (trackIdle (refreshXoff (startDue { s with clk := { s.clk with now := s.clk.now + 1 }, tim := if aonOn s then tickTim s.tim else s.tim })))))

end Sys2Proof.Machine
end

