-- ==== Sys2Proof/Safety.lean ====
section
/-! DEFINITION. What the statements are said in: sound states (the baton's copies agree, the fault queue and ERR_N follow the sources, the
operand memory of the windows has its canonical form), a command packet at hand, and a reply routed with nothing else changed. -/
namespace Sys2Proof.Safety
open Sys2Proof.Machine

/-- The three copies of the baton are equal (14 R363). -/
def BatonSound (b : Baton) : Prop := b.c1 = b.c0 ∧ b.c2 = b.c0

/-- At most one message of each source waits in the fault queue (12 R316). -/
def QueueSound (f : Flt) : Prop := (f.queue.map msgSrc).Nodup

/-- While a source is severe and unacknowledged, ERR_N is asserted and no release of it waits (12 R318, R319). -/
def ErrSound (f : Flt) : Prop := unacked f ≠ 0 → f.err = true ∧ f.relWait = false

/-- Both rules of the Row Counter. -/
def FaultsSound (f : Flt) : Prop := QueueSound f ∧ ErrSound f

/-- The operand memory of every lease has its canonical form. -/
def LeasesSound (t : Tbl Lease) : Prop := ∀ x ∈ t, Memory.wf x.2.data = true

/-- A state that is sound in each of these ways. -/
structure Sound (s : State) : Prop where
  baton : BatonSound s.baton
  faults : FaultsSound s.flt
  leases : LeasesSound s.eng.leases

/-! ### Register accesses -/

/-- The control register port accepts an access at its pins now (02 R40, R42, R58). -/
abbrev Takes (s : State) : Prop := crpPins s = true ∧ aonOn s = true ∧ crpReady s = true ∧ s.pwr.crpWait = []

/-- A write, and a read, of an offset that the port accepts and the window serves (14 R359; 19 R454). -/
abbrev Writes (off : Nat) (s : State) : Prop := Takes s ∧ writeGate s off = .served
abbrev Reads (off : Nat) (s : State) : Prop := Takes s ∧ readGate s off = .served

/-! ### Command packets -/

/-- A use of the slot behind a key handle of the port finds its SLOT_MAC good (06 R168). -/
abbrev SlotChecks (s : State) (port h : Nat) : Prop :=
  keyStatus s port h = .ok → injectedAt s.flt 0x0B0 0 = none ∧ macBad s (handleSlot h) = false

/-- The packet of opcode `op` that its row executes: the Scribe runs, `e` is the oldest entry of the opcode that may be acted on, and no
read made for it failed (03 R462). -/
abbrev Head (op : Nat) (s : State) (e : CmdEntry) : Prop :=
  running s = true ∧ front s op = some e ∧ e.failure = none

/-- The opcode of a packet row; the operations of GLB_IDOP stand at 0x10000 (03 Tables 3-5 to 3-15, 18 Table 18-2). Other rows have none. -/
def opcodeOf (i : Instr) : Option Nat :=
  match i with
  | .fltSetClass => some 0x0500
  | .fltSetTimers => some 0x0501
  | .fltAck => some 0x0502
  | .fltClear => some 0x0503
  | .fltReleaseErr => some 0x0504
  | .fltInject => some 0x0505
  | .windowLease => some 0x0900
  | .windowRelease => some 0x0901
  | .operandClear => some 0x0902
  | .windowQuery => some 0x0903
  | .cardQuery => some 0x0800
  | .cardUnlock => some 0x0801
  | .cardSetPassword => some 0x0802
  | .cardForceErase => some 0x0803
  | .archiveWrite => some 0x0804
  | .archiveRestore => some 0x0805
  | .cardPower => some 0x0806
  | .sessionCreate => some 0x0206
  | .sessionBindRing => some 0x0207
  | .sessionClose => some 0x0208
  | .sessionQuery => some 0x0209
  | .readCert => some 0x10001
  | .attest => some 0x10002
  | .rewrapKey => some 0x10003
  | .provision => some 0x10004
  | .pair => some 0x10005
  | .lifecycle => some 0x10006
  | .storeSettings => some 0x0600
  | .settingsImageLoad => some 0x0601
  | .nvmQuery => some 0x0602
  | .counterRead => some 0x0603
  | .counterIncrement => some 0x0604
  | .rowRepair => some 0x0509
  | .rngFill => some 0x0A00
  | .rngReseed => some 0x0A01
  | .rngHealth => some 0x0A02
  | .fwBegin => some 0x0700
  | .fwChunk => some 0x0701
  | .fwEnd => some 0x0702
  | .fwAbort => some 0x0706
  | .activate => some 0x0703
  | .activateAt => some 0x0704
  | .confirmHealth => some 0x0705
  | .relayPacket => some 0x0707
  | .nop => some 0x0000
  | .getInfo => some 0x0001
  | .statusSnapshot => some 0x0002
  | .setPowerPolicy => some 0x0003
  | .scribeHandover => some 0x0004
  | .timeQuery => some 0x0404
  | .timeSetPolicy => some 0x0405
  | .epochSchedule => some 0x0406
  | .streamOpen => some 0x0400
  | .streamClose => some 0x0401
  | .streamDropRest => some 0x0402
  | .streamSetWindow => some 0x0403
  | .unitRetire => some 0x0506
  | .unitTest => some 0x0507
  | .sweepControl => some 0x0508
  | .cpOpen => some 0x0100
  | .cpClose => some 0x0101
  | .cpSetPolicy => some 0x0102
  | .cpSetQuota => some 0x0103
  | .cpQuery => some 0x0104
  | .keyImport => some 0x0200
  | .keyGenerate => some 0x0201
  | .keyExport => some 0x0202
  | .keyDestroy => some 0x0203
  | .keyStoreNvm => some 0x0204
  | .keyLoadNvm => some 0x0205
  | .ringCreate => some 0x0300
  | .cplRingCreate => some 0x0301
  | .ringDestroy => some 0x0302
  | .ringRestart => some 0x0303
  | .ringSetCoalesce => some 0x0304
  | .ringQuery => some 0x0305
  | _ => none

/-- The entry as its execution begins. -/
def begun (e : CmdEntry) : CmdEntry := { e with started := true }

/-- The state with the entry so marked; nothing else differs. -/
def atHand (e : CmdEntry) (s : State) : State := setEntry e.cid (fun x => { x with started := true }) s

/-- A reply on its way to the reply ring: what it says, its NOTIFY, and the packet that it answers (03 R72). -/
def OnItsWay (e : CmdEntry) (r : Reply) (t : State) (h : HeldReply) : Prop :=
  h.reply = r ∧ h.notify = wantsNotify t.cmd e ∧ h.entry.map (·.cid) = some e.cid

/-- Where the reply stands in `t`: at the reply ring, waiting or being written; in the mailbox with DONE; or in the GLB_IDOP registers
(03 R72, R73; 18 R445). -/
def Routed (e : CmdEntry) (r : Reply) (t : State) : Prop :=
  match e.via with
  | .ring _ => (∃ h ∈ t.cmd.held, OnItsWay e r t h) ∨ ∃ h, t.cmd.replyOut = some h ∧ OnItsWay e r t h
  | .mailbox => t.cmd.mboxDone = true ∧ t.cmd.mboxGo = false ∧ t.cmd.irqMbox = true ∧ t.cmd.mbox.take (replyBytes r).length = replyBytes r
  | .idop => t.id.done = true ∧ t.id.go = false ∧ t.id.status = r.status.code ∧ t.id.outBytes = r.detail

/-- `t` differs from `s` in nothing but what a command's end and its reply touch: the entries and the token, the commit
log, the reply path and its writes, the mailbox, and for a GLB_IDOP operation the identity registers. -/
def ReplyFrame (e : CmdEntry) (s t : State) : Prop :=
  t = { s with cmd := t.cmd, fab := t.fab, id := t.id }
  ∧ t.cmd = { s.cmd with
      commitLog := t.cmd.commitLog, held := t.cmd.held, replyOut := t.cmd.replyOut
      replyParts := t.cmd.replyParts, replyBad := t.cmd.replyBad, mbox := t.cmd.mbox, mboxGo := t.cmd.mboxGo, mboxDone := t.cmd.mboxDone
      irqMbox := t.cmd.irqMbox, exec := t.cmd.exec, token := t.cmd.token }
  ∧ ((∀ o, e.via ≠ .ring o) → t.fab = s.fab ∧ t.cmd.held = s.cmd.held ∧ t.cmd.replyOut = s.cmd.replyOut)
  ∧ (e.via ≠ .mailbox → t.cmd.mbox = s.cmd.mbox ∧ t.cmd.mboxGo = s.cmd.mboxGo ∧ t.cmd.mboxDone = s.cmd.mboxDone ∧ t.cmd.irqMbox = s.cmd.irqMbox)
  ∧ (e.via ≠ .idop → t.id = s.id)

/-- The command is over: its entry is gone, its reply is routed, and beside what the reply touches `t` is `s`. -/
def Done (e : CmdEntry) (r : Reply) (s t : State) : Prop := entryOf t e.cid = none ∧ Routed e r t ∧ ReplyFrame e s t

/-- The command `i` completes with a status, a DETAIL and a payload, and leaves `u` beside what the reply touches. -/
def Answers (i : Instr) (e : CmdEntry) (st : Status) (detail : Nat) (payload : Bytes) (s u : State) : Prop :=
  ∃ t, exec i s = .next t ∧ Done e (replyTo u e st detail payload false) u t

end Sys2Proof.Safety
end

