-- ==== Sys2Proof/Certificates/Slice0/Obligations.lean ====
section
/-! DEFINITION. The statements for the provers. -/
open Sys2Proof Sys2Proof.Machine Sys2Proof.Safety

/-! ### The block as a whole -/

/-- A step takes the command at the front of the queue and runs it with the rest of the queue (the row's cut: a block takes commands). -/
def Obligations.StepRunsFrontCommand : Prop :=
  ∀ (c : Instr) (rest : List Instr) (s : State), s.pending = c :: rest → step s = exec c { s with pending := rest }

/-- On an empty queue one SKEIN cycle passes: the cycle count advances by one, the time moves on, no command is added and no fuse changes. Where
the block does not run or no job is there, no link trains, and neither the porch nor CRP_READY holds an access, nothing but the time, the
idle times and XOFF changes (the model's choice, log 1). -/
def Obligations.EmptyQueuePassesOneCycle : Prop :=
  ∀ s : State, s.pending = [] → ∃ t, step s = .next t ∧ t.clk.now = s.clk.now + 1 ∧ t.pending = [] ∧ t.fuse = s.fuse
    ∧ t.tim.e = (if s.pins.powered then tickTim s.tim else s.tim).e
    ∧ ((running s = false ∨ s.jobs = []) → s.link.training = false → s.pwr.porch = [] → s.pwr.crpWait = [] →
      t = { s with clk := { s.clk with now := s.clk.now + 1 }, tim := t.tim, chans := t.chans, pwr := t.pwr }
      ∧ t.tim = (if s.pins.powered then tickTim s.tim else s.tim)
      ∧ t.pwr = { s.pwr with idleSince := t.pwr.idleSince, deepSince := t.pwr.deepSince })

/-- The queue is first in, first out: whatever a step does, what is left waiting is the rest of the queue. -/
def Obligations.QueueIsFirstInFirstOut : Prop :=
  ∀ s t : State, step s = .next t → t.pending = s.pending.tail

/-- A step ends in a next state, but for a command whose operands have a shape that the interface does not have; such a command stops
with the fault `malformed`. Nothing is refused. -/
def Obligations.OnlyMalformedCommandsStop : Prop :=
  (∀ (i : Instr) (s : State), i.wf = true → ∃ t, exec i s = .next t)
  ∧ (∀ (i : Instr) (s : State) (f : Fault), exec i s = .fault f → f = .malformed ∧ i.wf = false)
  ∧ (∀ (i : Instr) (s : State) (r : Refusal), exec i s ≠ .refused r)

/-- What the spec states of the machine after AON_PORST_N: the baton belongs to nobody at epoch 0, G and E are 0 in holdover with a
saturated uncertainty, every channel is disabled with XOFF, no source has an event and ERR_N is released, the policies and timers have
their reset values, no port is open, no ring exists, and no slot is used. -/
def Obligations.ResetHoldsStatedValues : Prop :=
  let r := State.reset
  (batonAgrees r.baton = true ∧ r.baton.c0.epoch = 0 ∧ r.baton.c0.owner = 3)
  ∧ (r.tim.g = 0 ∧ r.tim.e = 0 ∧ r.tim.holdover = true ∧ r.tim.uncertInf = true ∧ r.tim.minRank = 2 ∧ r.tim.slewPpm = 100)
  ∧ (∀ n : Fin 64, (tgetD r.chans n.val {}).xoff = true ∧ (tgetD r.chans n.val {}).isOpen = false)
  ∧ (r.flt.queue = [] ∧ r.flt.err = false ∧ r.flt.errpwUs = 1000 ∧ unacked r.flt = 0)
  ∧ (r.ports = [] ∧ r.rings = [] ∧ r.keys.slots = [] ∧ r.keys.carveEn = false)
  ∧ (r.cmd.adminEn = false ∧ r.cmd.replyEn = false ∧ r.cmd.mboxGo = false)
  ∧ (r.regs.fabTimeout = 1000 ∧ r.pwr.failSilent = false)

/-- The state after reset is sound: the copies of the baton agree, the fault queue and ERR_N follow the sources, the operand memories have
their canonical form. -/
def Obligations.ResetIsSound : Prop := Sound State.reset

/-- In every step, of any command or of the clock, the three copies of the baton stay equal (14 R363: an award and a reset rewrite all three). -/
def Obligations.BatonCopiesStayEqual : Prop :=
  ∀ s t : State, BatonSound s.baton → step s = .next t → BatonSound t.baton

/-- In every step the fault queue keeps at most one message of each source, and ERR_N stays asserted, with no release waiting, while
a source is severe and unacknowledged (12 R316, R318, R319). -/
def Obligations.FaultQueueAndErrStaySound : Prop :=
  ∀ s t : State, FaultsSound s.flt → step s = .next t → FaultsSound t.flt

/-- In every step the operand memory of every lease keeps its canonical form, so that equal memories are equal data. -/
def Obligations.OperandMemoryStaysCanonical : Prop :=
  ∀ s t : State, LeasesSound s.eng.leases → step s = .next t → LeasesSound t.eng.leases

/-- Epoch time never decreases between resets of the whole block, whatever the reference does (11 R300). -/
def Obligations.EpochTimeNeverDecreases : Prop :=
  ∀ s t : State, step s = .next t → s.pending.head? ≠ some .aonPowerOnReset → s.pending.head? ≠ some .vddAonRemoved →
    s.tim.e ≤ t.tim.e

/-- The cycle count moves by the clock alone: no command changes it but a reset of the whole block, which sets it to 0 (log 1). -/
def Obligations.CycleCountFollowsTheClock : Prop :=
  ∀ (i : Instr) (s t : State), exec i s = .next t →
    if i = .aonPowerOnReset ∨ i = .vddAonRemoved then t.clk.now = 0 else t.clk.now = s.clk.now

/-- The fuses change in one way: the NVM completes the record of a lifecycle transition, and LIFECYCLE goes from its source to its target
(18 R440, R447). -/
def Obligations.FusesChangeByTransitionRecords : Prop :=
  ∀ (i : Instr) (s t : State), exec i s = .next t → t.fuse ≠ s.fuse →
    (∃ r, i = .nvmOperationComplete r) ∧ ∃ o rest a b n d, s.nvm.ops = o :: rest ∧ o.work = .transition a b n d
      ∧ s.fuse.lifecycle = a ∧ t.fuse = { s.fuse with lifecycle := b }

/-! ### Command packets: the control path, ports, keys and sessions -/

/-- A packet row acts on the oldest packet of its opcode and on nothing else: while the Scribe does not run, or with no such packet, nothing
happens; a packet whose read failed is answered with the status of the failure (03 R462). -/
def Obligations.PacketRowsActOnTheirPacketOnly : Prop :=
  ∀ (i : Instr) (op : Nat) (s : State), opcodeOf i = some op →
    ((running s = false ∨ front s op = none) → exec i s = .next s)
    ∧ (∀ e st, running s = true → front s op = some e → e.failure = some st →
        ∃ t, exec i s = .next t ∧ Done e (replyTo s e st 0 [] false) s t)

/-- NOP, GET_INFO, SET_POWER_POLICY and SCRIBE_HANDOVER complete, each with its reply and its one effect; STATUS_SNAPSHOT writes the snapshot
and answers with its time and length when the writes are acknowledged (03 Table 3-5, R87; 14 R364). -/
def Obligations.BlockCommandsComplete : Prop :=
  (∀ s e, Head 0x0000 s e → Answers .nop e .ok 0 [] s s)
  ∧ (∀ s e, Head 0x0001 s e → Answers .getInfo e .ok 0 (infoPayload s) s s)
  ∧ (∀ s e, Head 0x0003 s e →
      if par e 0 1 ≥ 3 ∧ s.pins.formL = true ∧ s.pins.cfgFabRoute ≠ 0 then Answers .setPowerPolicy e .notPermitted 0 [] s s
      else Answers .setPowerPolicy e .ok 0 [] s { s with pwr := { s.pwr with deepest := par e 0 1, idleUs := par e 4 4 } })
  ∧ (∀ s e, Head 0x0004 s e →
      if batonOwner s ≥ 2 ∨ scribeState s.baton (1 - batonOwner s) ≠ .ready then Answers .scribeHandover e .notPermitted 0 [] s s
      else (∀ x ∈ s.cmd.exec, x.started = true → x.cid = e.cid) →
        Answers .scribeHandover e .ok 0 [] s { s with baton := setScribe (batonOwner s) .ready (award s.clk.now (1 - batonOwner s) s.baton) })
  ∧ (∀ s e, Head 0x0002 s e →
      let b := snapshot s e.port (par e 12 4)
      if par e 8 4 < b.length then Answers .statusSnapshot e .invalidField 24 [] s s
      else if cmdSpanOk s e (par e 0 8) (par e 8 4) = false then Answers .statusSnapshot e .notPermitted 0 [] s s
      else exec .statusSnapshot s = .next (cmdWrite (begun e) (par e 0 8) b
        (replyTo s e .ok 0 (leBytes 8 s.clk.now ++ leBytes 8 (eNs s) ++ leBytes 4 b.length ++ zeros 4) false) (atHand e s)))

/-- The port commands: CP_OPEN opens the port at the next generation with the window, stream ID and flags given, full buckets and the ledger's
record; CP_SET_QUOTA sets the quotas; CP_QUERY reports; CP_CLOSE and CP_SET_POLICY advance the generation and fence (06 R170 to R174). -/
def Obligations.PortCommandsComplete : Prop :=
  (∀ s e, Head 0x0100 s e →
      match openFault s e.port (par e 0 2) (par e 8 8) (par e 16 8) with
      | some d => Answers .cpOpen e .invalidField d [] s s
      | none =>
        let p := tgetD s.ports e.port {}
        let q := openPort s.clk.now (par e 0 2) (par e 4 4) (par e 8 8) (par e 16 8) p
        if p.isOpen = true ∨ s.keys.carveEn = false ∨ s.keys.carveReady = false then Answers .cpOpen e .notPermitted 0 [] s s
        else q.isOpen = true ∧ q.gen = p.gen + 1 ∧ q.winBase = par e 8 8 ∧ q.winLen = par e 16 8 ∧ q.sid = BitVec.ofNat 16 (par e 0 2)
          ∧ Answers .cpOpen e .ok 0 (leBytes 4 q.gen) s (ledger e.port id { s with ports := tput s.ports e.port q }))
  ∧ (∀ s e, Head 0x0103 s e → Answers .cpSetQuota e .ok 0 [] s (modPort e.port (setQuota s.clk.now e) s))
  ∧ (∀ s e, Head 0x0104 s e →
      let p := tgetD s.ports e.port {}
      Answers .cpQuery e .ok 0 (leBytes 4 p.gen ++ leBytes 4 (p.admitted - p.completed) ++ leBytes 4 (portSessions s e.port)
        ++ leBytes 4 (portRings s e.port) ++ leBytes 4 (portWindows s e.port)) s s)
  ∧ (∀ s e, Head 0x0101 s e → exec .cpClose s = .next (fence (begun e) (.port e.port) []
      (modPort e.port (fun p => { p with isOpen := false, gen := p.gen + 1 }) (atHand e s))))
  ∧ (∀ s e, Head 0x0102 s e →
      let s1 := modPort e.port (fun p => { p with
        algMask := BitVec.ofNat 64 (par e 0 8), pflags := BitVec.ofNat 32 (par e 8 4), gen := p.gen + 1 }) (atHand e s)
      exec .cpSetPolicy s = .next (fence (begun e) (.port e.port) (leBytes 4 (tgetD s1.ports e.port {}).gen) s1))

/-- KEY_LOAD_NVM and KEY_GENERATE with no blob complete with the handle of the slot they fill; KEY_IMPORT reads the blob and, when it
unwraps, installs it; KEY_EXPORT writes the wrapped key; KEY_DESTROY advances the slot's generation and fences; KEY_STORE_NVM queues the record
under the two-phase commit (06 R163 to R167, R186). -/
def Obligations.KeyCommandsComplete : Prop :=
  (∀ s e r q, Head 0x0205 s e → bestKeyRec s.nvm (par e 0 2) = some r → r.slot.owner = e.port → validityOver s r.slot.validUntil = false →
      installKey e.port r.slot.keyType r.slot.usage.toNat r.slot.validUntil (keyBytes r.slot) (atHand e s) = some q →
      Answers .keyLoadNvm e .ok 0 (leBytes 4 q.2 ++ leBytes 4 r.version) s q.1)
  ∧ (∀ s e q, Head 0x0201 s e → generateFault s e = none → par e 8 8 = 0 →
      installKey e.port (par e 0 2) (par e 2 2) 0 (freeBytes s (genLen (par e 0 2))) (atHand e s) = some q →
      Answers .keyGenerate e .ok 0 (leBytes 4 q.2 ++ leBytes 4 0) s (feedDraw 7 (useFree (genLen (par e 0 2)) q.1)))
  ∧ (∀ s e q m, Head 0x0200 s e → injectedAt s.flt 0x0B2 0 = none → e.readIssued = true → blobFieldsOk (landed e) = true → openBlob e.port (landed e) = some m →
      validityOver s (fld (landed e) 12 4) = false →
      installKey e.port (fld (landed e) 5 1) (fld (landed e) 6 2) (fld (landed e) 12 4) m (atHand e s) = some q →
      Answers .keyImport e .ok 0 (leBytes 4 q.2) s q.1)
  ∧ (∀ s e, Head 0x0200 s e → e.readIssued = false → 40 ≤ par e 8 4 → par e 8 4 ≤ 2048 → par e 8 4 % 8 = 0 →
      cmdSpanOk s e (par e 0 8) (par e 8 4) = true → exec .keyImport s = .next (cmdRead (begun e) (par e 0 8) (par e 8 4) (atHand e s)))
  ∧ (∀ s e, Head 0x0202 s e → SlotChecks s e.port (par e 0 4) → keyStatus s e.port (par e 0 4) = .ok →
      usageHas (keyOf s (par e 0 4)) 6 = true → (slotOf s (handleSlot (par e 0 4))).spilled = false →
      (slotOf s (handleSlot (par e 0 4))).ext = none →
      let sl := keyOf s (par e 0 4)
      let n := blobLen (keyBytes sl).length
      n ≤ par e 4 4 → cmdSpanOk s e (par e 8 8) n = true →
      exec .keyExport s = .next (cmdWrite (begun e) (par e 8 8) (blobOf sl.keyType sl.usage.toNat e.port sl.validUntil (keyBytes sl))
        (replyTo s e .ok 0 (leBytes 4 n) false) (atHand e s)))
  ∧ (∀ s e, Head 0x0203 s e → keyStatus s e.port (par e 0 4) = .ok ∨ keyStatus s e.port (par e 0 4) = .keyStale →
      exec .keyDestroy s = .next (fence (begun e) (.key (par e 0 4)) [] (retireHandle (handleSlot (par e 0 4)) (atHand e s))))
  ∧ (∀ s e, Head 0x0204 s e → SlotChecks s e.port (par e 0 4) → keyStoreFault e s = none →
      (slotOf s (handleSlot (par e 0 4))).spilled = false →
      let v := nextKeyVersion s.nvm (par e 4 2)
      exec .keyStoreNvm s = .next (setEntry e.cid
        (fun x => { x with committed := true, reply := some (replyTo s e .ok 0 (leBytes 4 v) false) })
        (logCommit (begun e) (nvmQueue { work := .keyProgram (archiveRec (par e 4 2) v (keyOf s (par e 0 4))), cid := some e.cid } (atHand e s)))))

/-- What the key commands are refused with: a handle that is not the port's current one by its status, a use that USAGE does not allow,
a key whose validity is over, no slot left, and a blob that does not open (06 R163 to R167, R186). -/
def Obligations.KeyCommandsRefuse : Prop :=
  (∀ s e, Head 0x0202 s e → keyStatus s e.port (par e 0 4) ≠ .ok →
      Answers .keyExport e (keyStatus s e.port (par e 0 4)) 0 [] s s)
  ∧ (∀ s e, Head 0x0202 s e → SlotChecks s e.port (par e 0 4) → keyStatus s e.port (par e 0 4) = .ok →
      usageHas (keyOf s (par e 0 4)) 6 = false → Answers .keyExport e .notPermitted 0 [] s s)
  ∧ (∀ s e, Head 0x0203 s e → keyStatus s e.port (par e 0 4) = .keyRevoked → Answers .keyDestroy e .keyRevoked 0 [] s s)
  ∧ (∀ s e f, Head 0x0204 s e → SlotChecks s e.port (par e 0 4) → keyStoreFault e s = some f → Answers .keyStoreNvm e f.1 f.2 [] s s)
  ∧ (∀ s e, Head 0x0205 s e → bestKeyRec s.nvm (par e 0 2) = none → Answers .keyLoadNvm e .invalidField 16 [] s s)
  ∧ (∀ s e r, Head 0x0205 s e → bestKeyRec s.nvm (par e 0 2) = some r → r.slot.owner ≠ e.port → Answers .keyLoadNvm e .notPermitted 0 [] s s)
  ∧ (∀ s e r, Head 0x0205 s e → bestKeyRec s.nvm (par e 0 2) = some r → r.slot.owner = e.port → validityOver s r.slot.validUntil = true →
      Answers .keyLoadNvm e .keyRevoked 0 [] s s)
  ∧ (∀ s e f, Head 0x0201 s e → generateFault s e = some f → Answers .keyGenerate e f.1 f.2 [] s s)
  ∧ (∀ s e, Head 0x0200 s e → e.readIssued = false → par e 8 4 < 40 ∨ 2048 < par e 8 4 ∨ par e 8 4 % 8 ≠ 0 →
      Answers .keyImport e .invalidField 24 [] s s)
  ∧ (∀ s e, Head 0x0200 s e → e.readIssued = true → blobFieldsOk (landed e) = false → Answers .keyImport e .invalidField 16 [] s s)
  ∧ (∀ s e, Head 0x0200 s e → injectedAt s.flt 0x0B2 0 = none → e.readIssued = true → blobFieldsOk (landed e) = true →
      openBlob e.port (landed e) = none →
      Answers .keyImport e .blobInvalid 0 [] s s)

/-- SESSION_CREATE takes the lowest free index and writes its record, and reads a spilled slot of its key first; SESSION_BIND_RING binds, and
unbinding fences; SESSION_CLOSE retires the index's generation and fences; SESSION_QUERY reports, and reads a record that is not cached first
(06 R169, R178 to R185). -/
def Obligations.SessionCommandsComplete : Prop :=
  (∀ s e ix, Head 0x0206 s e → SlotChecks s e.port (askedSession e).key → createFault (atHand e s) (begun e) = none → freeSession (atHand e s) = some ix →
      ((askedSession e).key = 0 ∨ (slotOf s (handleSlot (askedSession e).key)).spilled = false) →
      let w := evictSession (atHand e s)
      let r := newSession w (askedSession e) ix
      let s1 := if drawsSalt r || drawsStart r then feedDraw 7 (useFree 12 w) else w
      let s2 := { s1 with keys := { s1.keys with sessions := tput s1.keys.sessions ix r, sessGen := tput s1.keys.sessGen ix r.gen } }
      exec .sessionCreate s = .next (writeSession (.sessWrite ix) ix r.ceiling (setEntry e.cid (fun x => { x with
        committed := true, work := [ix]
        reply := some (replyTo w e .ok 0 (leBytes 4 (sessHandle ix r.gen) ++ leBytes 4 r.salt ++ leBytes 8 r.next) false) })
        (logCommit (begun e) s2))))
  ∧ (∀ s e ix, Head 0x0206 s e → SlotChecks s e.port (askedSession e).key → createFault (atHand e s) (begun e) = none → freeSession (atHand e s) = some ix →
      (askedSession e).key ≠ 0 → (slotOf s (handleSlot (askedSession e).key)).spilled = true →
      exec .sessionCreate s = .next (fetchSpill (handleSlot (askedSession e).key)
        (setEntry e.cid (fun x => { x with phase := 1, work := [spillOff (handleSlot (askedSession e).key)] }) (atHand e s))))
  ∧ (∀ s e f, Head 0x0206 s e → SlotChecks s e.port (askedSession e).key → createFault (atHand e s) (begun e) = some f →
      Answers .sessionCreate e f.1 f.2 [] s s)
  ∧ (∀ s e r g, Head 0x0207 s e → sessionOf s e.port (par e 0 4) = some r → tget s.rings (par e 4 4) = some g → g.port = e.port → g.isCpl = false →
      par e 8 1 = 1 → g.bound.contains (par e 0 4) = false → ¬(g.gen = 1 ∧ ¬(r.alg = 0x10 ∧ r.mode ≤ 3)) → g.bound.length < 8 →
      Answers .sessionBindRing e .ok 0 [] s { s with rings := tput s.rings (par e 4 4) { g with bound := g.bound ++ [par e 0 4] } })
  ∧ (∀ s e r g, Head 0x0207 s e → sessionOf s e.port (par e 0 4) = some r → tget s.rings (par e 4 4) = some g → g.port = e.port → g.isCpl = false →
      par e 8 1 = 0 → g.bound.contains (par e 0 4) = true →
      exec .sessionBindRing s = .next (fence (begun e) (.binding (par e 0 4) (par e 4 4)) [] { atHand e s with
        rings := tput s.rings (par e 4 4) { g with bound := g.bound.filter (· != par e 0 4), ringGen := g.ringGen + 1 } }))
  ∧ (∀ s e, Head 0x0207 s e → sessionOf s e.port (par e 0 4) = none → Answers .sessionBindRing e .sessionClosed 0 [] s s)
  ∧ (∀ s e r, Head 0x0208 s e → sessionOf s e.port (par e 0 4) = some r →
      exec .sessionClose s = .next (fence (begun e) (.session (par e 0 4)) [] (retireSession (sessIndex (par e 0 4)) (atHand e s))))
  ∧ (∀ s e, Head 0x0208 s e → sessionOf s e.port (par e 0 4) = none → Answers .sessionClose e .sessionClosed 0 [] s s)
  ∧ (∀ s e r, Head 0x0209 s e → sessionOf s e.port (par e 0 4) = some r → r.cached = true →
      Answers .sessionQuery e .ok 0 (leBytes 8 r.next ++ leBytes 8 r.ceiling ++ leBytes 4 r.gen ++ leBytes 4 (sessionState s e.port r)) s s)
  ∧ (∀ s e r, Head 0x0209 s e → sessionOf s e.port (par e 0 4) = some r → r.cached = false → exec .sessionQuery s = .next
      (fetchSession (sessIndex (par e 0 4)) (setEntry e.cid (fun x => { x with phase := 1, work := [sessOff (sessIndex (par e 0 4))] }) (atHand e s))))
  ∧ (∀ s e, Head 0x0209 s e → sessionOf s e.port (par e 0 4) = none → Answers .sessionQuery e .sessionClosed 0 [] s s)

/-! ### Command packets: rings, streams, time, faults, Darning and settings -/

/-- RING_CREATE and CPL_RING_CREATE put the ring into the directory with the context given; RING_RESTART sets a stopped ring running, a descriptor ring
from the index given with the reads on their way given up; RING_SET_COALESCE sets the pair for the next pass; RING_QUERY reports, and reads a context
that is not cached first; RING_DESTROY advances the ring's generation, clears its doorbells and fences (04 Table 4-1, R100 to R110). -/
def Obligations.RingCommandsComplete : Prop :=
  (∀ s e c, Head 0x0300 s e → tget s.rings (par e 0 4) = none → tget s.rings (par e 16 4) = some c → c.isCpl = true → c.port = e.port →
      (par e 6 1 = 1 → (tgetD s.ports e.port {}).pflags.getLsbD 0 = true ∧ urgentRings s < 512) →
      inWindow (tgetD s.ports e.port {}) (par e 8 8) (entrySize (par e 4 1) * 2 ^ par e 5 1) = true → ringsFull s e.port = false →
      Answers .ringCreate e .ok 0 (leBytes 2 ((freeSlotOf s e.port).getD 0xFFFF)) s (addRing (par e 0 4)
        { isCpl := false, port := e.port, log2 := par e 5 1, base := par e 8 8, gen := par e 4 1, urgent := par e 6 1 == 1
          cplRing := par e 16 4, slot := freeSlotOf s e.port } (atHand e s)))
  ∧ (∀ s e, Head 0x0301 s e → tget s.rings (par e 0 4) = none →
      inWindow (tgetD s.ports e.port {}) (par e 8 8) (16 * 2 ^ par e 4 1) = true → ringsFull s e.port = false →
      Answers .cplRingCreate e .ok 0 [] s (addRing (par e 0 4)
        { isCpl := true, port := e.port, log2 := par e 4 1, base := par e 8 8, coalCount := par e 16 2, coalUs := par e 18 2, vector := par e 20 2 } (atHand e s)))
  ∧ (∀ s e r, Head 0x0302 s e → ownRing s e = some r → (r.isCpl = true → ringNamed s (par e 0 4) = false) →
      exec .ringDestroy s = .next (fence (begun e) (.ring (par e 0 4)) [] { atHand e s with
        rings := tput s.rings (par e 0 4) { r with draining := true, ringGen := r.ringGen + 1 }, skein := unmarkRing (par e 0 4) s.skein }))
  ∧ (∀ s e r, Head 0x0303 s e → ownRing s e = some r → r.isCpl = true → r.stopped = true → par e 4 4 = 0 →
      Answers .ringRestart e .ok 0 [] s (remark (par e 0 4) r { atHand e s with rings := tput s.rings (par e 0 4) { r with stopped := false } }))
  ∧ (∀ s e r, Head 0x0303 s e → ownRing s e = some r → r.isCpl = false → r.stopped = true → par e 4 4 < 2 ^ r.log2 →
      let r1 : Ring := { r with stopped := false, head := par e 4 4, reads := [] }
      Answers .ringRestart e .ok 0 [] s (remark (par e 0 4) r1 { atHand e s with
        rings := dropReads (par e 0 4) [] r1 (dropReads (par e 0 4) [] r s.rings) }))
  ∧ (∀ s e r, Head 0x0304 s e → ownRing s e = some r → r.isCpl = true →
      Answers .ringSetCoalesce e .ok 0 [] s { s with rings := tput s.rings (par e 0 4) { r with coalNext := some (par e 4 2, par e 6 2) } })
  ∧ (∀ s e, Head 0x0305 s e → ownRing s e = none →
      Answers .ringQuery e .ok 0 (leBytes 4 0 ++ leBytes 4 0 ++ leBytes 4 0 ++ leBytes 4 0) s s)
  ∧ (∀ s e r, Head 0x0305 s e → ownRing s e = some r → (r.cached = true ∨ e.phase = 2) → Answers .ringQuery e .ok 0
      (leBytes 4 r.head ++ leBytes 4 r.tail ++ leBytes 4 (ringState s e.port (par e 0 4)) ++ leBytes 4 (ringCount s (par e 0 4) r)) s s)
  ∧ (∀ s e r, Head 0x0305 s e → ownRing s e = some r → r.cached = false → e.phase ≠ 2 →
      exec .ringQuery s = .next (fetchContext (par e 0 4)
        (setEntry e.cid (fun x => { x with phase := 1, work := [ringRecOff (par e 0 4)] }) (atHand e s))))

/-- What the ring commands are refused with: an ID in use, a completion ring that is not the port's, an area outside the window, no ring
left, a ring of another port, a ring that still runs, an index past the ring. -/
def Obligations.RingCommandsRefuse : Prop :=
  (∀ s e, Head 0x0300 s e → tget s.rings (par e 0 4) ≠ none → Answers .ringCreate e .invalidField 16 [] s s)
  ∧ (∀ s e, Head 0x0300 s e → tget s.rings (par e 0 4) = none → tget s.rings (par e 16 4) = none → Answers .ringCreate e .notPermitted 0 [] s s)
  ∧ (∀ s e, Head 0x0301 s e → tget s.rings (par e 0 4) ≠ none → Answers .cplRingCreate e .invalidField 16 [] s s)
  ∧ (∀ s e, Head 0x0301 s e → tget s.rings (par e 0 4) = none →
      inWindow (tgetD s.ports e.port {}) (par e 8 8) (16 * 2 ^ par e 4 1) = false → Answers .cplRingCreate e .notPermitted 0 [] s s)
  ∧ (∀ s e, Head 0x0301 s e → tget s.rings (par e 0 4) = none →
      inWindow (tgetD s.ports e.port {}) (par e 8 8) (16 * 2 ^ par e 4 1) = true → ringsFull s e.port = true →
      Answers .cplRingCreate e .quotaExceeded 0 [] s s)
  ∧ (∀ s e, Head 0x0302 s e → ownRing s e = none → Answers .ringDestroy e .notPermitted 0 [] s s)
  ∧ (∀ s e r, Head 0x0302 s e → ownRing s e = some r → r.isCpl = true → ringNamed s (par e 0 4) = true → Answers .ringDestroy e .notPermitted 0 [] s s)
  ∧ (∀ s e, Head 0x0303 s e → ownRing s e = none → Answers .ringRestart e .notPermitted 0 [] s s)
  ∧ (∀ s e r, Head 0x0303 s e → ownRing s e = some r → r.isCpl = false → 2 ^ r.log2 ≤ par e 4 4 → Answers .ringRestart e .invalidField 20 [] s s)
  ∧ (∀ s e r, Head 0x0303 s e → ownRing s e = some r → r.isCpl = false → par e 4 4 < 2 ^ r.log2 → r.stopped = false →
      Answers .ringRestart e .notPermitted 0 [] s s)
  ∧ (∀ s e, Head 0x0304 s e → ownRing s e = none → Answers .ringSetCoalesce e .notPermitted 0 [] s s)
  ∧ (∀ s e r, Head 0x0304 s e → ownRing s e = some r → r.isCpl = false → Answers .ringSetCoalesce e .invalidField 16 [] s s)

/-- STREAM_OPEN opens the channel at its next generation with a frame count of 0; STREAM_SET_WINDOW sets the windows of the
frames to come; STREAM_DROP_REST drops the words of the current frame, which ends with TRUNCATED_FRAME, or nothing where there is no frame;
STREAM_CLOSE sets XOFF, refuses what waits and fences (11 R283 to R299; 05 R140). -/
def Obligations.StreamCommandsComplete : Prop :=
  (∀ s e, Head 0x0400 s e →
      match streamOpenFault s e (chanOf s (par e 0 1)) with
      | some f => Answers .streamOpen e f.1 f.2 [] s s
      | none => Answers .streamOpen e .ok 0 [] s (refreshXoff (modChan (par e 0 1) (fun c => { c with
          isOpen := true, owner := e.port, session := par e 4 4, reject := decide (par e 1 1 = 1), hwm := par e 8 4, lwm := par e 12 4
          cpl := par e 16 4, gen := c.gen + 1, count := 0, frames := [], closing := false, win := {} }) s)))
  ∧ (∀ s e, Head 0x0401 s e →
      if ownChan s e = true then exec .streamClose s = .next (fence (begun e) (.channel (par e 0 1)) []
        (refusePartial (isRevoke (begun e)) (par e 0 1) (refuseWaiting (par e 0 1) (modChan (par e 0 1) (fun c => { c with closing := true, xoff := true, gen := c.gen + 1 }) (atHand e s)))))
      else Answers .streamClose e .notPermitted 0 [] s s)
  ∧ (∀ s e, Head 0x0402 s e → ownChan s e = false → Answers .streamDropRest e .notPermitted 0 [] s s)
  ∧ (∀ s e, Head 0x0402 s e → ownChan s e = true → currentFrame s (chanOf s (par e 0 1)) = none →
      Answers .streamDropRest e .ok 0 (leBytes 4 0) s s)
  ∧ (∀ s e x, Head 0x0402 s e → ownChan s e = true → currentFrame s (chanOf s (par e 0 1)) = some x → frameAlive s x = true →
      exec .streamDropRest s = .next (answer (begun e) .ok (leBytes 4 (32 * frameWords s x)) (logCommit (begun e) (refreshXoff
        (dropFrame (par e 0 1) x .truncatedFrame true (modChan (par e 0 1) (fun c => { c with trunc := satAdd 16 c.trunc 1 })
          (countDropped (par e 0 1) (frameWords s x) (atHand e s))))))))
  ∧ (∀ s e x, Head 0x0402 s e → ownChan s e = true → currentFrame s (chanOf s (par e 0 1)) = some x → frameAlive s x = false →
      Answers .streamDropRest e .ok 0 (leBytes 4 (32 * frameWords s x)) s
        (refreshXoff (modFrame (par e 0 1) x.number (fun y => { y with drops := true }) (countDropped (par e 0 1) (frameWords s x) s))))
  ∧ (∀ s e, Head 0x0403 s e →
      if ownChan s e = false then Answers .streamSetWindow e .notPermitted 0 [] s s
      else if par e 4 4 < 10000 ∨ 1000000000 < par e 4 4 then Answers .streamSetWindow e .invalidField 20 [] s s
      else if par e 4 4 < par e 8 4 + par e 12 4 then Answers .streamSetWindow e .invalidField 24 [] s s
      else Answers .streamSetWindow e .ok 0 [] s (modChan (par e 0 1) (fun c => { c with
        win := { cycleNs := par e 4 4, openNs := par e 8 4, lenNs := par e 12 4, phaseS := par e 16 8 } }) s))

/-- TIME_QUERY reports one capture, TIME_SET_POLICY sets the lowest rank and the slew rate, EPOCH_SCHEDULE changes the length of a running
schedule at its next epoch or takes a ceiling from the NVM for one that starts (11 R301; 05 R148, R149). -/
def Obligations.TimeCommandsComplete : Prop :=
  (∀ s e, Head 0x0404 s e → Answers .timeQuery e .ok 0 (timePayload s) s s)
  ∧ (∀ s e, Head 0x0405 s e →
      Answers .timeSetPolicy e .ok 0 [] s { s with tim := { s.tim with minRank := par e 0 1, slewPpm := par e 4 4 } })
  ∧ (∀ s e o, Head 0x0406 s e → scheduleFault (par e 0 1) (par e 8 8) (par e 16 8) (par e 24 1) = some o →
      Answers .epochSchedule e .invalidField o [] s s)
  ∧ (∀ s e, Head 0x0406 s e → scheduleFault (par e 0 1) (par e 8 8) (par e 16 8) (par e 24 1) = none → par e 0 1 = 0 → s.ep.acct.running = true →
      Answers .epochSchedule e .ok 0 [] s
        { s with ep := { s.ep with acct := { s.ep.acct with lenMs := par e 8 8 }, newLedger := some (par e 16 8, par e 24 1) } })
  ∧ (∀ s e, Head 0x0406 s e → scheduleFault (par e 0 1) (par e 8 8) (par e 16 8) (par e 24 1) = none → par e 0 1 = 1 → s.ep.key.running = true →
      Answers .epochSchedule e .ok 0 [] s { s with ep := { s.ep with key := { s.ep.key with lenMs := par e 8 8 } } })
  ∧ (∀ s e, Head 0x0406 s e → scheduleFault (par e 0 1) (par e 8 8) (par e 16 8) (par e 24 1) = none → par e 0 1 = 0 → s.ep.acct.running = false →
      e.phase ≠ 2 →
      let k := max (counterOf s.nvm cntAcct) 1
      exec .epochSchedule s = .next (setEntry e.cid (fun x => { x with phase := 2, work := [k], committed := true })
        (nvmQueue { work := .counterProgram cntAcct (k + 65536), cid := some e.cid } (atHand e s))))

/-- FLT_SET_CLASS and FLT_SET_TIMERS set their values; FLT_CLEAR clears a source whose cause is gone and restarts a Scribe that was off;
FLT_INJECT arms the checker named, but for a cell that has failed for good; each refuses as Table 12-6 and R321 say. -/
def Obligations.FaultCommandsComplete : Prop :=
  (∀ s e, Head 0x0500 s e →
      Answers .fltSetClass e .ok 0 [] s { s with flt := { s.flt with classes := tput s.flt.classes (par e 0 2) (par e 2 2, par e 4 4) } })
  ∧ (∀ s e, Head 0x0501 s e → Answers .fltSetTimers e .ok 0 [] s { s with flt := { s.flt with errpwUs := par e 0 4, reactMs := par e 4 4 } })
  ∧ (∀ s e, Head 0x0503 s e →
      if causePresent s (par e 0 2) = true then
        Answers .fltClear e .causePresent (par e 0 2) [] s { s with flt := { s.flt with clearRefused := satAdd 16 s.flt.clearRefused 1 } }
      else Answers .fltClear e .ok 0 [] s (modSrc (par e 0 2) clearSrc { s with baton := restartScribe (par e 0 2) s.baton }))
  ∧ (∀ s e, Head 0x0505 s e →
      if checkerListed (par e 0 2) (par e 2 1) = false then Answers .fltInject e .invalidField 18 [] s s
      else if 2 ^ 31 ≤ par e 4 4 ∧ (par e 2 1 ≠ 0 ∨ par e 0 2 = 0x0B0) then Answers .fltInject e .invalidField 20 [] s s
      else if par e 2 1 = 4 ∧ (tgetD s.rng.cells (par e 0 2 - 0x040) {}).state = .failed then Answers .fltInject e .ok 0 [] s s
      else Answers .fltInject e .ok 0 [] s
        { s with flt := armInject (par e 0 2) (par e 2 1) (par e 4 4 % 2 ^ 31) (decide (2 ^ 31 ≤ par e 4 4)) s.flt })

/-- UNIT_RETIRE of an idle spare retires it at once, of a unit in service or of a spare that a retry runs on withdraws it; UNIT_TEST takes an idle
spare, or a retired or isolated unit, to its test at once, any other after its drain; both respect the floor. SWEEP_CONTROL sets the sweep; ROW_REPAIR starts the copy (13 R334 to R346). -/
def Obligations.DarningCommandsComplete : Prop :=
  (∀ s e, Head 0x0506 s e → roleGone (unitOf s (par e 0 2)).role = true → Answers .unitRetire e .ok 0 [] s s)
  ∧ (∀ s e, Head 0x0506 s e → (unitOf s (par e 0 2)).role = .spare → (jobsOn s (par e 0 2)).isEmpty = true → kindBusy s (unitKind (par e 0 2)) = false →
      s.darn.test.any (fun t => t.unit == par e 0 2) = false →
      let k := unitKind (par e 0 2)
      exec .unitRetire s = .next (answer (begun e) .ok [] (settle k (spareCount s.eng.units k) (recordRole (par e 0 2) (some .retired)
        (setRole (par e 0 2) .retired (logCommit (begun e) (atHand e s)))))))
  ∧ (∀ s e, Head 0x0506 s e → (unitOf s (par e 0 2)).role = .spare → (jobsOn s (par e 0 2)).isEmpty = false →
      kindBusy s (unitKind (par e 0 2)) = false → s.darn.test.any (fun t => t.unit == par e 0 2) = false →
      if floorForbids s (par e 0 2) = true then Answers .unitRetire e .capacityFloor 0 [] s s
      else exec .unitRetire s = .next (setEntry e.cid (fun x => { x with committed := true })
        (withdraw (par e 0 2) (.retire e.cid) (logCommit (begun e) (atHand e s)))))
  ∧ (∀ s e, Head 0x0506 s e → (unitOf s (par e 0 2)).role = .active → kindBusy s (unitKind (par e 0 2)) = false →
      s.darn.test.any (fun t => t.unit == par e 0 2) = false →
      if floorForbids s (par e 0 2) = true then Answers .unitRetire e .capacityFloor 0 [] s s
      else exec .unitRetire s = .next (setEntry e.cid (fun x => { x with committed := true })
        (withdraw (par e 0 2) (.retire e.cid) (logCommit (begun e) (atHand e s)))))
  ∧ (∀ s e, Head 0x0507 s e →
      ((unitOf s (par e 0 2)).role = .spare ∧ (jobsOn s (par e 0 2)).isEmpty = true) ∨ roleGone (unitOf s (par e 0 2)).role = true →
      kindBusy s (unitKind (par e 0 2)) = false →
      exec .unitTest s = .next (setEntry e.cid (fun x => { x with committed := true })
        (spareAlert (unitKind (par e 0 2)) (spareCount s.eng.units (unitKind (par e 0 2)))
          (beginTest { unit := par e 0 2, until_ := s.clk.now + testLen, why := .test e.cid, before := (unitOf s (par e 0 2)).role } false
            (setRole (par e 0 2) .underTest (atHand e s))))))
  ∧ (∀ s e, Head 0x0507 s e → (unitOf s (par e 0 2)).role = .spare → (jobsOn s (par e 0 2)).isEmpty = false →
      kindBusy s (unitKind (par e 0 2)) = false →
      if floorForbids s (par e 0 2) = true then Answers .unitTest e .capacityFloor 0 [] s s
      else exec .unitTest s = .next (setEntry e.cid (fun x => { x with committed := true }) (withdraw (par e 0 2) (.test e.cid) (atHand e s))))
  ∧ (∀ s e, Head 0x0507 s e → (unitOf s (par e 0 2)).role = .active → kindBusy s (unitKind (par e 0 2)) = false →
      if floorForbids s (par e 0 2) = true then Answers .unitTest e .capacityFloor 0 [] s s
      else exec .unitTest s = .next (setEntry e.cid (fun x => { x with committed := true }) (withdraw (par e 0 2) (.test e.cid) (atHand e s))))
  ∧ (∀ s e, Head 0x0508 s e → par e 4 1 = 1 → par e 0 4 ≠ 0 →
      Answers .sweepControl e .ok 0 [] s { s with darn := { s.darn with
        enable := true, period := par e 0 4, nextKind := 0, nextDue := some (s.clk.now + cyMs (1000 * par e 0 4)) } })
  ∧ (∀ s e, Head 0x0508 s e → par e 4 1 = 0 →
      ∃ k, Answers .sweepControl e .ok 0 [] s { s with darn := { s.darn with enable := false, period := par e 0 4, nextKind := k, nextDue := none } })
  ∧ (∀ s e, Head 0x0509 s e →
      match rowFault e s with
      | some f => Answers .rowRepair e f.1 f.2 [] s s
      | none => exec .rowRepair s = .next (setEntry e.cid (fun x => { x with committed := true })
          (startCopy (par e 0 2) (par e 4 4) (some e.cid) none (logCommit (begun e) (atHand e s)))))

/-- NVM_QUERY and COUNTER_READ report; STORE_SETTINGS captures every setting and queues the record of the other bank; COUNTER_INCREMENT
queues the new value; SETTINGS_IMAGE_LOAD applies and stores a verified image (15 R378 to R392). -/
def Obligations.SettingsCommandsComplete : Prop :=
  (∀ s e, Head 0x0602 s e → Answers .nvmQuery e .ok 0
      (leBytes 4 (nvmSpares s.nvm) ++ leBytes 4 (nvmRetired s.nvm) ++ leBytes 4 (nvmMaxErase s.nvm) ++ leBytes 4 s.nvm.activeBank) s s)
  ∧ (∀ s e, Head 0x0603 s e →
      if counterKnown (par e 0 2) = true then Answers .counterRead e .ok 0 (leBytes 8 (counterOf s.nvm (par e 0 2))) s s
      else Answers .counterRead e .invalidField 16 [] s s)
  ∧ (∀ s e, Head 0x0600 s e → exec .storeSettings s = .next (storeRecord (begun e) (captureSettings s) (atHand e s)))
  ∧ (∀ s e, Head 0x0604 s e →
      match counterFault e s with
      | some f => Answers .counterIncrement e f.1 f.2 [] s s
      | none =>
        let v := counterOf s.nvm (par e 0 2) + 1
        exec .counterIncrement s = .next (setEntry e.cid
          (fun x => { x with committed := true, reply := some (replyTo s e .ok 0 (leBytes 8 v) false) })
          (logCommit (begun e) (nvmQueue { work := .counterProgram (par e 0 2) v, cid := some e.cid } (atHand e s)))))
  ∧ (∀ s e, Head 0x0601 s e → (par e 8 4 = 0 ∨ 65536 < par e 8 4) → Answers .settingsImageLoad e .invalidField 24 [] s s)
  ∧ (∀ s e, Head 0x0601 s e → 0 < par e 8 4 → par e 8 4 ≤ 65536 → e.readIssued = false →
      exec .settingsImageLoad s = .next (cmdRead (begun e) (par e 0 8) (par e 8 4) (atHand e s)))
  ∧ (∀ s e v, Head 0x0601 s e → 7347 ≤ par e 8 4 → par e 8 4 ≤ 65536 → e.readIssued = true →
      let n := par e 8 4
      let body := (landed e).take (n - 7347)
      let m := (landed e).drop (n - 7347)
      body.length ≤ 48896 → manifestFault s m 2 = none → fld m 16 4 = body.length → slice m 32 48 = sha384 body →
      Config.settingsValues body = some v → settingsOk v = true → s.keys.carveEn = false →
      exec .settingsImageLoad s = .next (storeRecord (begun e) (settingsOf v) (applyKept (settingsOf v) (applyCore (settingsOf v) (atHand e s)))))

/-! ### Command packets: firmware, the card port, windows, random numbers and the identity -/

/-- FW_BEGIN opens the transfer and the journal and takes the token; FW_CHUNK reads its chunk and takes it; FW_END stages a whole image; ACTIVATE
and ACTIVATE_AT prepare or schedule it; CONFIRM_HEALTH writes the confirmation; FW_ABORT replays the journal; RELAY_PACKET of kind 1
forwards (16 R394 to R412). -/
def Obligations.FirmwareCommandsComplete : Prop :=
  (∀ s e, Head 0x0700 s e →
      match fwBeginFault e s with
      | some f => Answers .fwBegin e f.1 f.2 [] s s
      | none =>
        let f := { closeTransfer s.fw with state := .transfer, beginLen := par e 0 4, beginChunks := par e 4 4 }
        exec .fwBegin s = .next (setEntry e.cid (fun x => { x with committed := true, reply := some (replyTo s e .ok 0 [] false) })
          (logCommit (begun e) (queueOps (withCid e.cid (openOps s.fw))
            { atHand e s with fw := f, cmd := { (atHand e s).cmd with token := some { opcode := fwToken, holder := none } } }))))
  ∧ (∀ s e, Head 0x0701 s e → s.fw.state = .transfer → par e 0 4 = nextChunk s.fw → par e 0 4 < s.fw.beginChunks →
      par e 4 4 = chunkLen s.fw.beginLen s.fw.beginChunks (par e 0 4) → e.readIssued = false →
      exec .fwChunk s = .next (cmdRead (begun e) (par e 8 8) (par e 4 4) (atHand e s)))
  ∧ (∀ s e f, Head 0x0701 s e → s.fw.state = .transfer → par e 0 4 = nextChunk s.fw → par e 0 4 < s.fw.beginChunks →
      par e 4 4 = chunkLen s.fw.beginLen s.fw.beginChunks (par e 0 4) → e.readIssued = true → takeChunk (atHand e s) (par e 0 4) (landed e) = .inr (f, []) →
      Answers .fwChunk e .ok 0 [] s { s with fw := f })
  ∧ (∀ s e f ops, Head 0x0701 s e → s.fw.state = .transfer → par e 0 4 = nextChunk s.fw → par e 0 4 < s.fw.beginChunks →
      par e 4 4 = chunkLen s.fw.beginLen s.fw.beginChunks (par e 0 4) → e.readIssued = true → takeChunk (atHand e s) (par e 0 4) (landed e) = .inr (f, ops) →
      ops ≠ [] →
      exec .fwChunk s = .next (setEntry e.cid (fun x => { x with committed := true, reply := some (replyTo s e .ok 0 [] false) })
        (logCommit (begun e) (queueOps (withCid e.cid ops) { atHand e s with fw := f }))))
  ∧ (∀ s e, Head 0x0702 s e → s.fw.state = .transfer ∨ s.fw.state = .staged → s.fw.chunksDone = s.fw.beginChunks → imageFault (atHand e s) = none →
      Answers .fwEnd e .ok 0 (leBytes 4 (stage s.fw).stagedVersion ++ leBytes 4 (counterOf s.nvm cntRollback)) s { s with fw := stage s.fw })
  ∧ (∀ s e, Head 0x0706 s e →
      if s.fw.relay = false ∧ (s.fw.state = .transfer ∨ s.fw.state = .staged ∨ s.fw.state = .scheduled) then
        exec .fwAbort s = .next (setEntry e.cid (fun x => { x with committed := true })
          (startReplay (.abort e.cid) (logCommit (begun e) (atHand e s))))
      else Answers .fwAbort e .notPermitted 0 [] s s)
  ∧ (∀ s e, Head 0x0703 s e →
      if s.fw.state = .staged then exec .activate s = .next (prepare true (setEntry e.cid (fun x => { x with committed := true })
        { atHand e s with fw := { s.fw with actCid := some e.cid } }))
      else Answers .activate e .notPermitted 0 [] s s)
  ∧ (∀ s e, Head 0x0704 s e →
      if s.fw.state ≠ .staged then Answers .activateAt e .notPermitted 0 [] s s
      else
        let t := par e 0 8 * 1000000000 + par e 8 4
        let s1 := setEntry e.cid (fun x => { x with committed := true })
          { atHand e s with fw := { s.fw with actCid := some e.cid, actSec := par e 0 8, actNs := par e 8 4 } }
        if gNs s + 604800000000000 < t then Answers .activateAt e .invalidField 16 [] s s
        else exec .activateAt s = .next (if t ≤ gNs s then prepare true s1 else { s1 with fw := { s1.fw with state := .scheduled, immediate := false } }))
  ∧ (∀ s e, Head 0x0705 s e → s.fw.state ≠ .probation → Answers .confirmHealth e .notPermitted 0 [] s s)
  ∧ (∀ s e, Head 0x0705 s e → s.fw.state = .probation → s.fw.selfPass = true → s.fw.rollDone = true →
      exec .confirmHealth s = .next (setEntry e.cid (fun x => { x with committed := true, reply := some (replyTo s e .ok 0 [] false) })
        (logCommit (begun e) (queueOps [{ work := .statusConfirmed },
          { work := .counterProgram cntRollback (max (counterOf s.nvm cntRollback) s.fw.runSec), cid := some e.cid }] (atHand e s)))))
  ∧ (∀ s e, Head 0x0707 s e → 32 ≤ par e 8 4 → par e 8 4 ≤ 4128 → e.readIssued = false →
      exec .relayPacket s = .next (cmdRead (begun e) (par e 0 8) (par e 8 4) (atHand e s)))
  ∧ (∀ s e, Head 0x0707 s e → 32 ≤ par e 8 4 → par e 8 4 ≤ 4128 → e.readIssued = true → e.phase ≠ 3 → fld (landed e) 16 4 + 32 = par e 8 4 →
      relayFormOk (landed e) = true → relayOutLen (landed e) ≤ par e 24 4 → relayKind (landed e) = 1 →
      exec .relayPacket s = .next (relayForward (begun e) (landed e) (atHand e s)))

/-- CARD_QUERY reports; CARD_POWER moves the slot and, with a card, probes it; the other card commands start their first transfer on an idle
bus in a state that admits them, and are refused by the slot's state otherwise (17 Table 17-6, R420 to R436). -/
def Obligations.CardCommandsComplete : Prop :=
  (∀ s e, Head 0x0800 s e → Answers .cardQuery e .ok 0 (leBytes 1 s.fol.state.code ++ zeros 7 ++ padTo 32 s.fol.ident) s s)
  ∧ (∀ s e, Head 0x0806 s e →
      if par e 0 1 = 0 then Answers .cardPower e .ok 0 [] s { s with fol := { cardOff s.fol with
        intent := false, password := none, state := if s.fol.seated then .poweredOff else .empty } }
      else if s.fol.seated = false then Answers .cardPower e .cardAbsent 0 [] s { s with fol := { s.fol with intent := true } }
      else exec .cardPower s = .next (setEntry e.cid (fun x => { x with committed := true })
        { atHand e s with fol := { cardOff s.fol with intent := true, state := .probing, cid := some e.cid } }))
  ∧ (∀ s e d, Head 0x0801 s e → cardBusy s.fol = false → slotFault true s = some d → Answers .cardUnlock e d.1 d.2 [] s s)
  ∧ (∀ s e, Head 0x0801 s e → cardBusy s.fol = false → slotFault true s = none → ¬(s.fol.state = .ready ∧ s.fol.pwSet = false) →
      let pw := (slice e.bytes 17 16).take (par e 0 1)
      exec .cardUnlock s = .next (sendCard .unlock 0 (unlockCmd pw) (takeBus e { atHand e s with fol := { s.fol with newPassword := pw } })))
  ∧ (∀ s e, Head 0x0802 s e → cardBusy s.fol = false → slotFault true s = none → passwordFault s = none →
      let old := (slice e.bytes 17 16).take (par e 0 1)
      let new := (slice e.bytes 34 16).take (par e 17 1)
      exec .cardSetPassword s = .next (sendCard .setPassword 0
        { code := 0x09, arg := par e 0 1 + 256 * par e 17 1, data := padTo 512 (padTo 16 old ++ padTo 16 new) }
        (takeBus e { atHand e s with fol := { s.fol with newPassword := new } })))
  ∧ (∀ s e, Head 0x0803 s e → cardBusy s.fol = false → slotFault true s = none →
      exec .cardForceErase s = .next (sendCard .forceErase 0 forceEraseCmd (takeBus e (atHand e s))))
  ∧ (∀ s e, Head 0x0804 s e → cardBusy s.fol = false → slotFault false s = none → e.phase = 0 → archiveFault s = none →
      exec .archiveWrite s = .next (setEntry e.cid (fun x => { x with committed := true, phase := 1 })
        (nvmQueue { work := .counterProgram cntArch (counterOf s.nvm cntArch + 1), cid := some e.cid } (atHand e s))))
  ∧ (∀ s e, Head 0x0805 s e → 16384 < par e 8 4 → Answers .archiveRestore e .invalidField 24 [] s s)
  ∧ (∀ s e, Head 0x0805 s e → par e 8 4 = 0 → cardBusy s.fol = false → slotFault false s = none → 3072 ≤ idCapacity s.fol →
      let s1 := takeBus e (atHand e s)
      exec .archiveRestore s = .next (restoreStep { s1 with fol := { s1.fol with readBack := [] } }))

/-- WINDOW_LEASE leases windows of one hook that has room; WINDOW_RELEASE and OPERAND_CLEAR begin the end of the lease or its zeroing; WINDOW_QUERY
reports the lease that holds a window (09 R246 to R251). -/
def Obligations.WindowCommandsComplete : Prop :=
  (∀ s e r c, Head 0x0900 s e → (tgetD s.ports e.port {}).pflags.getLsbD 2 = true → sessionOf s e.port (par e 0 4) = some r → isHook r.alg = true →
      overMax (tgetD s.ports e.port {}).winMax (portWindows s e.port) (par e 4 1) = false → leaseHook s = some c →
      par e 4 1 ≤ hookFree s c → ((freeLogical s).take (par e 4 1)).length = par e 4 1 →
      let ws := (freeLogical s).take (par e 4 1)
      Answers .windowLease e .ok 0 ((ws.map (fun w => leBytes 2 (windowId s w))).flatten) s
        { s with eng := { s.eng with leases := tput s.eng.leases (ws.headD 0) { session := par e 0 4, port := e.port, hook := c, windows := ws } } })
  ∧ (∀ s e, Head 0x0900 s e → (tgetD s.ports e.port {}).pflags.getLsbD 2 = false ∨ sessionOf s e.port (par e 0 4) = none →
      Answers .windowLease e .notPermitted 0 [] s s)
  ∧ (∀ s e l, Head 0x0901 s e → leaseHolding s e.port (par e 0 2) = some (par e 0 2 % 512, l) →
      exec .windowRelease s = .next (fence (begun e) (.lease (par e 0 2)) []
        { atHand e s with eng := { s.eng with leases := tput s.eng.leases (par e 0 2 % 512) { l with releasing := true } } }))
  ∧ (∀ s e, Head 0x0901 s e → leaseHolding s e.port (par e 0 2) = none → Answers .windowRelease e .notPermitted 0 [] s s)
  ∧ (∀ s e ix l, Head 0x0901 s e → leaseHolding s e.port (par e 0 2) = some (ix, l) → ix ≠ par e 0 2 % 512 →
      Answers .windowRelease e .invalidField 16 [] s s)
  ∧ (∀ s e l, Head 0x0902 s e → leaseHolding s e.port (par e 0 2) = some (par e 0 2 % 512, l) →
      let stop := candFree s (l.hook, none) + cyHook (32 * l.windows.length)
      let leases := tput s.eng.leases (par e 0 2 % 512) { l with zeroing := some (stop, e.cid) }
      exec .operandClear s = .next (setEntry e.cid (fun x => { x with
        committed := true, work := leaseJobs s (par e 0 2), reply := some (replyTo s e .ok 0 [] false) })
        (logCommit (begun e) { atHand e s with eng := { s.eng with leases := leases } })))
  ∧ (∀ s e, Head 0x0902 s e → leaseHolding s e.port (par e 0 2) = none → Answers .operandClear e .notPermitted 0 [] s s)
  ∧ (∀ s e, Head 0x0903 s e →
      match leaseHolding s e.port (par e 0 2) with
      | none => Answers .windowQuery e .ok 0 (leBytes 4 0 ++ leBytes 4 0) s s
      | some x => Answers .windowQuery e .ok 0 (leBytes 4 x.2.session ++ leBytes 4 (leaseState x.2)) s s)

/-- RNG_FILL draws from FEED_6 and writes its bytes when its time has passed; RNG_RESEED reseeds every instance from its reserve or none;
RNG_HEALTH reports (10 R274 to R282). -/
def Obligations.RandomCommandsComplete : Prop :=
  (∀ s e, Head 0x0A02 s e → Answers .rngHealth e .ok 0
      (leBytes 2 (min 4 (cellsIn s .online)) ++ leBytes 2 (cellsIn s .failed) ++ leBytes 4 s.rng.rct ++ leBytes 4 s.rng.apt
        ++ leBytes 4 (rngState s + 256 * (List.range 8).foldl (fun a i => if feedReady s i then a + 2 ^ i else a) 0)) s s)
  ∧ (∀ s e, Head 0x0A01 s e →
      if (List.range 8).all (fun i => (tgetD s.rng.feeds i {}).reserve) = true then
        Answers .rngReseed e .ok 0 [] s (refillState { s with rng := (List.range 8).foldl (fun r i => reseed s.clk.now i r) s.rng })
      else Answers .rngReseed e .rngUnavailable 0 [] s s)
  ∧ (∀ s e, Head 0x0A00 s e → e.phase ≠ 2 → e.port ≠ 0xFFFF → inWindow (tgetD s.ports e.port {}) (par e 0 8) (par e 8 4) = false →
      Answers .rngFill e .notPermitted 0 [] s s)
  ∧ (∀ s e, Head 0x0A00 s e → e.phase ≠ 2 → cmdSpanOk s e (par e 0 8) (par e 8 4) = true → feedReady s 6 = false →
      Answers .rngFill e .rngUnavailable 0 [] s s)
  ∧ (∀ s e, Head 0x0A00 s e → e.phase ≠ 2 → cmdSpanOk s e (par e 0 8) (par e 8 4) = true → feedReady s 6 = true → (tgetD s.rng.feeds 6 {}).reserve = true →
      let stop := candFree s (0x300, none) + cyCtrl (96 + cdiv (par e 8 4) 16)
      let s1 := feedDraw 6 (atHand e s)
      exec .rngFill s = .next (setEntry e.cid (fun x => { x with phase := 2, work := [stop] })
        { s1 with rng := { s1.rng with feeds := tmod s1.rng.feeds 6 (fun y => { y with freeAt := stop }) } }))
  ∧ (∀ s e, Head 0x0A00 s e → e.phase = 2 → e.work.headD 0 ≤ s.clk.now →
      exec .rngFill s = .next (cmdWrite (begun e) (par e 0 8) (freeBytes s (par e 8 4)) (replyTo s e .ok 0 [] false) (useFree (par e 8 4) (atHand e s))))

/-- The identity operations: each refuses lengths that do not fit and a lifecycle state that does not allow it; READ_CERT writes the certificate;
ATTEST, REWRAP_KEY, PROVISION, PAIR and LIFECYCLE read their input first; then ATTEST signs the statement, REWRAP_KEY the request, and
PROVISION, PAIR and LIFECYCLE store what verifies (18 Table 18-2, R440 to R449). -/
def Obligations.IdentityOperationsComplete : Prop :=
  (∀ s e, Head 0x10001 s e → par e 8 4 = 0 → 5541 ≤ par e 24 4 → s.fuse.lifecycle ∈ [1, 2, 3, 4] →
      exec .readCert s = .next (cmdWrite (begun e) (par e 16 8) s.id.cert (replyTo s e .ok s.id.cert.length [] false) (atHand e s)))
  ∧ (∀ s e, Head 0x10001 s e → (par e 8 4 ≠ 0 ∨ par e 24 4 < 5541) → Answers .readCert e .invalidField 0 [] s s)
  ∧ (∀ s e, Head 0x10001 s e → par e 8 4 = 0 → 5541 ≤ par e 24 4 → s.fuse.lifecycle ∉ [1, 2, 3, 4] → Answers .readCert e .notPermitted 0 [] s s)
  ∧ (∀ s e, Head 0x10002 s e → par e 8 4 = 32 → 3621 ≤ par e 24 4 → s.fuse.lifecycle ∈ [1, 2, 3, 4] → e.readIssued = false →
      exec .attest s = .next (cmdRead (begun e) (par e 0 8) 32 (atHand e s)))
  ∧ (∀ s e s1 s2 out, Head 0x10002 s e → par e 8 4 = 32 → 3621 ≤ par e 24 4 → s.fuse.lifecycle ∈ [1, 2, 3, 4] → e.readIssued = true →
      feedReady s 7 = true → bookHook signCycles (atHand e s) = some s1 → signObject (statement (landed e) s1) s1 = (some out, s2) →
      exec .attest s = .next (idOutput (begun e) out s2))
  ∧ (∀ s e s1 s3 out, Head 0x10003 s e → par e 8 4 = 0 → 5133 ≤ par e 24 4 → s.fuse.lifecycle = 2 → feedReady s 7 = true →
      bookHook signCycles (atHand e s) = some s1 →
      let n := wrapInc 32 s1.id.lastRequest
      let draw := freeBytes s1 112
      let s2 := feedDraw 7 (feedDraw 7 (useFree 112 s1))
      signObject (rewrapRequest n draw s2) s2 = (some out, s3) →
      exec .rewrapKey s = .next (idOutput (begun e) out { s3 with id := { s3.id with rewrap := some (n, draw), lastRequest := n } }))
  ∧ (∀ s e, Head 0x10004 s e → par e 8 4 = 7181 → s.fuse.lifecycle ∈ [1, 2] → e.readIssued = false →
      exec .provision s = .next (cmdRead (begun e) (par e 0 8) 7181 (atHand e s)))
  ∧ (∀ s e, Head 0x10004 s e → par e 8 4 = 7181 → s.fuse.lifecycle ∈ [1, 2] → e.readIssued = true → provBundle s = some (landed e) →
      Answers .provision e .ok 0 [] s s)
  ∧ (∀ s e s1, Head 0x10004 s e → par e 8 4 = 7181 → s.fuse.lifecycle ∈ [1, 2] → e.readIssued = true → provBundle s ≠ some (landed e) →
      fld (landed e) 5 1 % 2 = 0 → bookHook verifyCycles (atHand e s) = some s1 →
      operatorSigned ((provBundle s).orElse (fun _ => some (landed e))) 0x4B505231 (landed e) = true → slice (landed e) 12 48 = blockId s1 →
      ((provBundle s).map (fun p => fld p 8 4)).getD 0 < fld (landed e) 8 4 →
      let c := otherCopy s1.id.prov
      exec .provision s = .next (idWait (begun e) [{ work := .eraseSector (962 + 2 * c) }, { work := .eraseSector (962 + 2 * c + 1) },
        { work := .provCopy c (landed e), cid := some e.cid }] s1))
  ∧ (∀ s e, Head 0x10005 s e → par e 8 4 = 3541 → s.fuse.lifecycle ∈ [1, 2] → e.readIssued = false →
      exec .pair s = .next (cmdRead (begun e) (par e 0 8) 3541 (atHand e s)))
  ∧ (∀ s e s1, Head 0x10005 s e → par e 8 4 = 3541 → s.fuse.lifecycle ∈ [1, 2] → e.readIssued = true → pairCert s ≠ some (landed e) →
      bookHook verifyCycles (atHand e s) = some s1 → operatorSigned (provBundle s1) 0x4B504331 (landed e) = true →
      slice (landed e) 12 48 = blockId s1 → ((pairCert s).map (fun p => fld p 8 4)).getD 0 < fld (landed e) 8 4 →
      exec .pair s = .next (idWait (begun e) [{ work := .eraseSector (966 + otherCopy s1.id.pairs) },
        { work := .pairCopy (otherCopy s1.id.pairs) (landed e), cid := some e.cid }] s1))
  ∧ (∀ s e s1, Head 0x10006 s e → par e 8 4 = 3469 → s.fuse.lifecycle ∈ [2, 3] → e.readIssued = true →
      bookHook verifyCycles (atHand e s) = some s1 → operatorSigned (provBundle s1) 0x4B4C5431 (landed e) = true →
      slice (landed e) 8 48 = blockId s1 → lifecyclePath s1.fuse.lifecycle (fld (landed e) 5 1) = true →
      exec .lifecycle s = .next (idWait (begun e) [transitionOp s1 (fld (landed e) 5 1) (landed e)] s1))

/-! ### Resets, supplies, clocks and the fabric -/

/-- AON_POWER_ON_RESET and the loss of VDD_AON reset the whole block and leave the fuses; CORE_RST_N leaves the Cast-on island's time running;
its release starts the block; a lost PLL reference makes a running block fail-silent; the crystal and the NVM supply are followed
(02 R55; 14 R345 to R350; 15 R389). -/
def Obligations.ResetsAndSuppliesComplete : Prop :=
  (∀ s, ∃ t, exec .aonPowerOnReset s = .next t ∧ t.pins.powered = true ∧ t.pins.coreInReset = true ∧ t.clk.now = 0 ∧ t.tim = State.reset.tim
      ∧ t.baton = State.reset.baton ∧ t.flt = State.reset.flt ∧ t.keys = State.reset.keys ∧ t.ep = State.reset.ep ∧ t.ports = [] ∧ t.rings = []
      ∧ t.jobs = [] ∧ t.chans = State.reset.chans ∧ t.cmd = State.reset.cmd ∧ t.regs = State.reset.regs ∧ t.pwr = State.reset.pwr ∧ t.fuse = s.fuse)
  ∧ (∀ s, ∃ t, exec .vddAonRemoved s = .next t ∧ t.pins.powered = false ∧ t.pins.coreInReset = true ∧ t.clk.now = 0 ∧ t.tim = State.reset.tim
      ∧ t.baton = State.reset.baton ∧ t.ports = [] ∧ t.rings = [] ∧ t.jobs = [] ∧ t.fuse = s.fuse)
  ∧ (∀ s, s.pins.powered = true → s.pins.coreInReset = false → ∃ t, exec .coreResetAssert s = .next t ∧ t.pins.coreInReset = true
      ∧ t.ports = [] ∧ t.rings = [] ∧ t.jobs = [] ∧ t.merge = [] ∧ t.chans = State.reset.chans ∧ t.regs = { sectorSel := s.regs.sectorSel } ∧ t.baton.a = .off ∧ t.baton.b = .off
      ∧ t.pwr.stage = 0 ∧ t.pwr.failSilent = false ∧ t.keys.carveReady = false ∧ t.tim.e = s.tim.e ∧ t.clk.now = s.clk.now ∧ t.fuse = s.fuse)
  ∧ (∀ s tests, s.pins.powered = true → s.pins.coreInReset = true → tests.units.all (fun u => engselValid u.engsel.toNat) = true →
      exec (.coreResetRelease tests) s = .next (runStart tests s))
  ∧ (∀ s, coreOn s = true → 5 ≤ s.pwr.stage → s.keys.carveEn = true → s.keys.carveInit = true → s.keys.treeLeft = 0 →
      exec .carveInitComplete s = .next { s with keys := { s.keys with carveReady := true, carveInit := false } })
  ∧ (∀ s, s.pins.powered = true → s.pins.pllLost = false →
      let s1 := raiseEvent 0x0D3 kClockLost 1 { s with pins := { s.pins with pllLost := true } }
      exec .pllRefclkLoss s = .next (if s.pins.coreInReset then s1 else enterFailSilent 2 s1))
  ∧ (∀ s, s.pins.powered = true → s.pins.xtalLost = false →
      exec .aonXtalLoss s = .next (raiseEvent 0x0D2 kClockLost 0 { s with pins := { s.pins with xtalLost := true } }))
  ∧ (∀ s, s.pins.powered = true → exec .aonXtalReturn s = .next { s with pins := { s.pins with xtalLost := false } })
  ∧ (∀ s, s.pins.powered = true → s.pins.nvmLow = false → exec .vddNvmBrownout s =
      .next { s with pins := { s.pins with nvmLow := true }, nvm := { s.nvm with brownout := true, lowSince := s.clk.now } })
  ∧ (∀ s, s.pins.powered = true → s.pins.nvmLow = true →
      let s1 := { s with pins := { s.pins with nvmLow := false }, nvm := { s.nvm with brownout := false } }
      exec .vddNvmRecover s = .next (match s.nvm.ops with
        | [] => s1
        | o :: _ => restartOp o s1))
  ∧ (∀ s, s.pins.powered = true → s.pins.nvmLow = true → s.nvm.lowSince + cyMs 1000 ≤ s.clk.now →
      let s1 := (nvmWaiters s).foldl (fun a e => answer e .unitFault [] a) s
      exec .vddNvmLowTimeout s = .next (raiseEvent 0x0D0 kStorage 0
        { s1 with nvm := { s1.nvm with lowSince := s.clk.now, ops := s1.nvm.ops.map (fun o => { o with cid := none }) } }))

/-- Read data is gathered beat by beat and handed over with the last; an acknowledgement completes its write; a response that nothing waits
for isolates the port; a timed-out transaction leaves with its tag quarantined; credits are taken; a port reset or a lost port clock
isolates the port until the reset ends; the pins of a port routed over the lanes are ignored (02 R33 to R39, R45, R58; 05 R129). -/
def Obligations.FabricCommandsComplete : Prop :=
  (∀ (port : Fin 4) (tag : BitVec 11) (data : Bytes) s x, data.length = 128 → fabPins s port.val = true →
      portDeaf s port.val = false → (portN s port.val).quarantine.contains tag.toNat = false →
      (portN s port.val).txns.find? (fun t => t.tag == tag.toNat) = some x →
      x.req.kind = .rd → x.worst = .ok → injectedAt s.flt (fabSrc port.val) 1 = none →
      let x1 := { x with beats := x.beats + 1, got := x.got ++ data, worst := .ok }
      (x.beats + 1 = beatsOf x.req.addr x.req.len → exec (.fabReadData port tag .ok true true data) s =
        .next (complete port.val x1 .ok (slice x1.got (x.req.addr % 128) x.req.len) s))
      ∧ (x.beats + 1 < beatsOf x.req.addr x.req.len → exec (.fabReadData port tag .ok true false data) s =
        .next (modFab port.val (fun q => { q with txns := q.txns.map (fun y => if y.tag = tag.toNat then x1 else y) }) s)))
  ∧ (∀ (port : Fin 4) (tag : BitVec 11) st ok last (data : Bytes) s, data.length = 128 → fabPins s port.val = true →
      portDeaf s port.val = false → (portN s port.val).quarantine.contains tag.toNat = false →
      (portN s port.val).txns.find? (fun t => t.tag == tag.toNat) = none →
      exec (.fabReadData port tag st ok last data) s = .next (isolatePort port.val tag.toNat s)
      ∧ exec (.fabWriteAck port tag st) s = .next (isolatePort port.val tag.toNat s))
  ∧ (∀ (port : Fin 4) (tag : BitVec 11) st s x, fabPins s port.val = true → portDeaf s port.val = false → (portN s port.val).quarantine.contains tag.toNat = false →
      (portN s port.val).txns.find? (fun t => t.tag == tag.toNat) = some x → x.req.kind ≠ .rd → x.beats = 0 → st ≠ .poison →
      exec (.fabWriteAck port tag st) s = .next (complete port.val x (rspAccess st) [] s))
  ∧ (∀ (port : Fin 4) (tag : BitVec 11) s x, portDeaf s port.val = false → (portN s port.val).txns.find? (fun t => t.tag == tag.toNat) = some x →
      x.dueAt ≤ s.clk.now →
      let s1 := modFab port.val (fun p => { dropTxn tag.toNat p with quarantine := p.quarantine ++ [tag.toNat] }) s
      let s2 := if portTimeout x.req.owner then raiseEvent (fabSrc port.val) kFabricTimeout (x.req.addr / 4096) s1 else s1
      exec (.fabricTimeout port tag) s = .next (pumpState (deliver x.req .timeout [] s2)))
  ∧ (∀ (port : Fin 4) (req : Bool) (w : BitVec 2) s, fabPins s port.val = true → portDeaf s port.val = false →
      if 1023 < (portN s port.val).reqCred + b2n req ∨ 1023 < (portN s port.val).wdatCred + w.toNat then
        exec (.fabCreditReturn port req w) s = .next (isolatePort port.val 0 s)
      else exec (.fabCreditReturn port req w) s = .next (pumpState (modFab port.val (takeCredits s.clk.now (b2n req) w.toNat) s)))
  ∧ (∀ (port : Fin 4) s, portDeaf s port.val = false → exec (.fabPortResetAssert port) s = .next (modFab port.val (fun p => { p with
      rstLow := true, reqCred := 0, wdatCred := 0, maxReq := 0, maxWdat := 0, useTimes := [], wUses := [] }) (isolatePort port.val 0 s)))
  ∧ (∀ (port : Fin 4) s, exec (.fabPortResetRelease port) s = .next (startComplete (pumpState (modFab port.val
      (fun p => { p with rstLow := false, isolated := false, clkLost := false, quarantine := [] }) s))))
  ∧ (∀ (port : Fin 4) s, fabPins s port.val = true → portDeaf s port.val = false →
      exec (.fabClockLost port) s = .next (modFab port.val (fun p => { p with clkLost := true }) (isolatePort port.val 0 s)))
  ∧ (∀ s, running s = true → s.fab.measureAt ≤ s.clk.now → exec .creditRateMeasure s =
      .next { s with fab := { s.fab with ports := tmap s.fab.ports (fun _ p => measurePort p), measureAt := s.clk.now + 15000 } })
  ∧ (∀ (port : Fin 4) (tag : BitVec 11) st ok last (data : Bytes) req (w : BitVec 2) s, data.length = 128 → fabPins s port.val = false →
      exec (.fabReadData port tag st ok last data) s = .next s ∧ exec (.fabWriteAck port tag st) s = .next s
      ∧ exec (.fabCreditReturn port req w) s = .next s ∧ exec (.fabClockLost port) s = .next s)

/-! ### Register accesses, doorbells and the control path -/

/-- A write that the port accepts and the window serves runs the write of its register on the lanes covered; one that it does not serve does
nothing but set the sticky bit of its case (02 R41, R42; 14 R359; 19 R451, R454). The same for reads, whose data and error stand on the bus. A
read of the doorbell window returns 0, with an error where it is narrow. While CRP_READY is low an access waits, and with the CRP pins tied
off none is heeded (02 R40, R58). -/
def Obligations.RegisterAccessesAreGated : Prop :=
  (∀ (a : BitVec 19) l d s, Takes s → exec (.registerWrite a l d) s = .next (match writeGate s (8 * a.toNat) with
      | .served => writeServed (8 * a.toNat) (laneMask l) d s
      | .dead => s
      | .failSilent => { s with pwr := { s.pwr with fsAccess := true } }
      | .asleep => { s with pwr := { s.pwr with aslpAccess := true } }))
  ∧ (∀ (a : BitVec 19) l s, Takes s → exec (.rcCounterRead ⟨false, a⟩ l) s = .next (match readGate s (8 * a.toNat) with
      | .served => readServed (8 * a.toNat) (laneMask l) s
      | .dead => { s with regs := { s.regs with rdata := 0, rerr := false } }
      | .failSilent => { s with regs := { s.regs with rdata := 0, rerr := true }, pwr := { s.pwr with fsAccess := true } }
      | .asleep => { s with regs := { s.regs with rdata := 0, rerr := true }, pwr := { s.pwr with aslpAccess := true } }))
  ∧ (∀ (a : BitVec 19) l s, Takes s → exec (.rcCounterRead ⟨true, a⟩ l) s = .next { s with regs := { s.regs with rdata := 0, rerr := l != .full } })
  ∧ (∀ (a : BitVec 19) l d s, crpPins s = true → s.pins.powered = true → (crpReady s = false ∨ s.pwr.crpWait ≠ []) →
      exec (.registerWrite a l d) s = .next { s with pwr := { s.pwr with crpWait := s.pwr.crpWait ++ [.write (8 * a.toNat) l d] } }
      ∧ exec (.rcCounterRead ⟨false, a⟩ l) s = .next { s with pwr := { s.pwr with crpWait := s.pwr.crpWait ++ [.read (8 * a.toNat) l] } })
  ∧ (∀ (a : BitVec 19) l d s b, crpPins s = false → exec (.registerWrite a l d) s = .next s ∧ exec (.rcCounterRead ⟨b, a⟩ l) s = .next s)
  ∧ (∀ s l d, Takes s → s.pins.coreInReset = true → ∀ a : BitVec 19, exec (.registerWrite a l d) s = .next s)
  ∧ (∀ s (a : BitVec 19) l d, Takes s → s.pins.coreInReset = false → s.pwr.failSilent = true → mailboxOff (8 * a.toNat) = false →
      exec (.registerWrite a l d) s = .next { s with pwr := { s.pwr with fsAccess := true } })

/-- The writes of the CMD group that start something: CMD_ADMIN_TAIL, CMD_ADMIN_CTRL with and without RESET, CMD_REPLY_HEAD, CMD_REPLY_CTRL and
CMD_MBOX_CTRL.GO (03 R69 to R74). -/
def Obligations.CommandRegistersComplete : Prop :=
  (∀ s l d, Writes 0x1010 s →
      let v := setF (s.cmd.adminTail / 8) 3 21 (laneMask l) d * 8
      exec (.cmdAdminTailWrite l d) s = .next (adminFetch (p1Work (s.cmd.adminEn && v != s.cmd.adminTail)
        { s with cmd := { s.cmd with adminTail := v, tailTimes := s.cmd.tailTimes ++ [(v, s.clk.now)] } })))
  ∧ (∀ s (d : Word), Writes 0x1008 s → s.cmd.adminEn = false → d.getLsbD 0 = true → d.getLsbD 31 = false →
      exec (.cmdAdminEnableWrite .low d) s = .next (adminFetch (p1Work (s.cmd.adminHead != s.cmd.adminTail)
        { s with cmd := { s.cmd with adminEn := true, adminLog2 := setF s.cmd.adminLog2 8 5 (laneMask .low) (d &&& ~~~0x80000000) } })))
  ∧ (∀ s (d : Word), Writes 0x1008 s → (s.cmd.halted = true ∨ d.getLsbD 0 = false) →
      ∃ t u, exec (.cmdAdminReset .low d) s = .next (adminFetch t) ∧ t = p1Work (d.getLsbD 0 && !s.cmd.adminEn && u.cmd.adminHead != u.cmd.adminTail) u
        ∧ u.cmd.adminHead = 0 ∧ u.cmd.adminTail = 0 ∧ u.cmd.halted = false ∧ u.cmd.readPtr = 0 ∧ u.cmd.takePtr = 0 ∧ u.cmd.landing = []
        ∧ u.cmd.exec = s.cmd.exec ∧ u = { s with cmd := u.cmd })
  ∧ (∀ s l d, Writes 0x1038 s → exec (.cmdReplyHeadWrite l d) s =
      .next (sendReply { s with cmd := { s.cmd with replyHead := setF s.cmd.replyHead 0 24 (laneMask l) d } }))
  ∧ (∀ s l d, Writes 0x1028 s → exec (.cmdReplyEnableWrite l d) s = .next (sendReply { s with cmd := { s.cmd with
      replyEn := setB s.cmd.replyEn 0 (laneMask l) d, replyLog2 := setF s.cmd.replyLog2 8 5 (laneMask l) d
      notifyAll := setB s.cmd.notifyAll 16 (laneMask l) d } }))
  ∧ (∀ s (d : Word), Writes 0x1100 s → s.cmd.mboxGo = false → s.pwr.failSilent = false → exec (.cmdMboxGo .low d) s = .next (p1Work true
      { s with cmd := { s.cmd with mboxDone := s.cmd.mboxDone && !d.getLsbD 1, mboxGo := true, mboxAt := s.clk.now } }))

/-- The other register rows: the wake request, the carve-out's enable, the ledger's HEAD, a port's interrupt enable, the rotation period, a word
of random data, a fault message, the capture of the time, and a retrain (14 R356; 06 R177; 05 R152; 04 R122; 10 R268, R280; 12 R317; 11 R308; 19 R457). -/
def Obligations.OtherRegisterRowsComplete : Prop :=
  (∀ s (d : Word), Writes 0x0108 s → d.getLsbD 0 = true → exec (.glbPowerWakeWrite .low d) s =
      .next { s with pwr := { wakePower 1 s.pwr with wakeBit := s.pwr.wakeBit || s.pwr.state != .p0 } })
  ∧ (∀ s (d : Word), Writes 0x0308 s → s.keys.carveEn = false → d.getLsbD 0 = true → exec (.glbCarveEnableWrite .low d) s =
      .next (let s1 := syncResume { s with keys := { s.keys with
          carveLog2 := setF s.keys.carveLog2 8 5 (laneMask .low) d, carveEn := openPorts s == 0, carveInit := s.keys.carveInit || openPorts s == 0 } }
        if openPorts s = 0 then startTree s1 else s1))
  ∧ (∀ s l d, Writes 0x0228 s → exec (.glbLedgerHeadWrite l d) s =
      .next (writeBanks 3 { s with ep := { s.ep with head := setF s.ep.head 0 20 (laneMask l) d } }))
  ∧ (∀ s (d : Word), Writes 0x2128 s → (tgetD s.ports s.regs.cpsel {}).isOpen = true → d.getLsbD 0 = false →
      exec (.cpwIrqEnableWrite .low d) s = .next { s with ports := tmod s.ports s.regs.cpsel (fun p => { p with irqEn := false }) })
  ∧ (∀ s (d : Word), Writes 0x7020 s → exec (.rngRotateWrite .low d) s =
      .next { s with rng := { s.rng with period := setF s.rng.period 0 8 (laneMask .low) d
                                         rotateAt := s.clk.now + cyMs (1000 * setF s.rng.period 0 8 (laneMask .low) d) } })
  ∧ (∀ s, Reads 0x7000 s → exec (.rngDataRead .full) s =
      .next { s with rng := { s.rng with data := s.rng.data.drop 1, underrun := s.rng.underrun || s.rng.data.isEmpty }
                     regs := { s.regs with rdata := BitVec.ofNat 64 ((regWord s 0x7000).getD 0) &&& laneMask .full, rerr := false } })
  ∧ (∀ s, Reads 0x5000 s → exec (.fltMsgRead .full) s =
      .next { s with flt := { s.flt with queue := s.flt.queue.drop 1 }
                     regs := { s.regs with rdata := BitVec.ofNat 64 ((regWord s 0x5000).getD 0) &&& laneMask .full, rerr := false } })
  ∧ (∀ s, Reads 0x6000 s → ∃ t, exec (.timNowSecRead .full) s = .next t ∧ t.tim = captureTime s.tim
      ∧ t = { s with tim := t.tim, regs := t.regs } ∧ t.regs = { s.regs with rdata := t.regs.rdata, rerr := false }
      ∧ t.regs.rdata = BitVec.ofNat 64 ((regWord { s with tim := captureTime s.tim } 0x6000).getD 0) &&& laneMask .full)
  ∧ (∀ s (d : Word), Writes 0xA008 s → exec (.laneRetrain .low d) s = .next { s with link := retrain s.clk.now { s.link with rate := d.getLsbD 0 } })

/-- Doorbells. A write of the page's open port with its stream ID that names a ring of its kind, and an index within it, is accepted: the ring
takes the new tail with the time of its acceptance and is marked, or takes the new head; a draining ring discards it. Any other is discarded and
counted in CPW_DB_REJECT, with an event where the port, the stream ID or the ring does not fit. Narrow writes and writes before the release of CORE_RST_N
do nothing. While fail-silent the access is recorded. Outside P0 the porch takes it and the block wakes; a full porch holds it at the pins, and with
the CRP pins tied off none is heeded (02 R40 to R43, R58; 04 R97 to R100, Table 4-2; 05 R139; 14 R357; 19 R454). -/
def Obligations.DoorbellsComplete : Prop :=
  let direct := fun (page : Fin 1024) (slot : Fin 512) sid (d : Word) s s1 => exec (.doorbellDirectWrite page slot sid true d) s = .next s1
  let counted := fun (page : Nat) (s : State) =>
    { s with pwr := wakePower 0 s.pwr, ports := tmodD s.ports page {} (fun p => { p with dbReject := satAdd 32 p.dbReject 1 }) }
  let up := fun (s : State) => Takes s ∧ coreOn s = true ∧ s.pwr.state = .p0
  let heard := fun (page : Fin 1024) (sid : BitVec 16) (s : State) =>
    up s ∧ (tgetD s.ports page.val {}).isOpen = true ∧ (tgetD s.ports page.val {}).sid = sid
  (∀ page slot sid (d : Word) s id r, heard page sid s → (slot.val ≠ 511 ∨ d.getLsbD 63 = false) →
      tfind s.rings (fun _ r => r.port == page.val && r.slot == some slot.val && !r.isCpl) = some (id, r) →
      bits d.toNat 16 48 = 0 → bits d.toNat 0 16 < 2 ^ r.log2 →
      direct page slot sid d s (if r.draining then { s with pwr := wakePower 0 s.pwr } else { s with
        pwr := wakePower 0 s.pwr
        rings := tput s.rings id { r with tail := bits d.toNat 0 16, stamps := r.stamps ++ [(bits d.toNat 0 16, s.clk.now)] }
        skein := markRing id r.urgent s.skein }))
  ∧ (∀ page slot sid (d : Word) s id r, heard page sid s → (slot.val ≠ 511 ∨ d.getLsbD 63 = false) →
      tfind s.rings (fun _ r => r.port == page.val && r.slot == some slot.val && !r.isCpl) = some (id, r) →
      (bits d.toNat 16 48 ≠ 0 ∨ 2 ^ r.log2 ≤ bits d.toNat 0 16) → direct page slot sid d s (counted page.val s))
  ∧ (∀ page slot sid (d : Word) s, heard page sid s → (slot.val ≠ 511 ∨ d.getLsbD 63 = false) →
      tfind s.rings (fun _ r => r.port == page.val && r.slot == some slot.val && !r.isCpl) = none → direct page slot sid d s (counted page.val s))
  ∧ (∀ page slot sid (d : Word) s, up s → ((tgetD s.ports page.val {}).isOpen = false ∨ sid ≠ (tgetD s.ports page.val {}).sid) →
      direct page slot sid d s (raiseEvent (portSrc page.val) kDoorbellReject (8 * slot.val) (counted page.val s)))
  ∧ (∀ (page : Fin 1024) sid (d : Word) s, heard page sid s →
      let w := ((d.setWidth 62).setWidth 64 ||| 0x8000000000000000#64).toNat
      let row := fun s1 => exec (.doorbellIndirectTail page sid true d) s = .next s1
      (∀ r, tget s.rings (bits w 32 20) = some r → r.port = page.val → r.isCpl = false →
        (bits w 16 16 = 0 → bits w 52 10 = 0 → bits w 0 16 < 2 ^ r.log2 → r.draining = false → row { s with
          pwr := wakePower 0 s.pwr
          rings := tput s.rings (bits w 32 20) { r with tail := bits w 0 16, stamps := r.stamps ++ [(bits w 0 16, s.clk.now)] }
          skein := markRing (bits w 32 20) r.urgent s.skein })
        ∧ ((bits w 16 16 ≠ 0 ∨ bits w 52 10 ≠ 0 ∨ 2 ^ r.log2 ≤ bits w 0 16) → row (counted page.val s)))
      ∧ (∀ r, tget s.rings (bits w 32 20) = some r → (r.port ≠ page.val ∨ r.isCpl = true) →
        row (raiseEvent (portSrc page.val) kDoorbellReject (8 * 511) (counted page.val s)))
      ∧ (tget s.rings (bits w 32 20) = none → row (raiseEvent (portSrc page.val) kDoorbellReject (8 * 511) (counted page.val s))))
  ∧ (∀ (page : Fin 1024) sid (d : Word) s, heard page sid s →
      let w := ((d.setWidth 62).setWidth 64 ||| 0xC000000000000000#64).toNat
      let row := fun s1 => exec (.doorbellIndirectHead page sid true d) s = .next s1
      (∀ r, tget s.rings (bits w 32 20) = some r → r.port = page.val → r.isCpl = true → bits w 16 16 = 0 → bits w 52 10 = 0 → r.draining = false →
        let n := 2 ^ r.log2
        let records := (r.tail + n - r.head % n) % n
        let consumed := (bits w 0 16 + n - r.head % n) % n
        (bits w 0 16 < n → consumed ≤ records → row { s with
          pwr := wakePower 0 s.pwr, rings := tput s.rings (bits w 32 20) { r with head := bits w 0 16 } })
        ∧ ((n ≤ bits w 0 16 ∨ records < consumed) → row (counted page.val s)))
      ∧ (∀ r, tget s.rings (bits w 32 20) = some r → (r.port ≠ page.val ∨ r.isCpl = false) →
        row (raiseEvent (portSrc page.val) kDoorbellReject (8 * 511) (counted page.val s)))
      ∧ (tget s.rings (bits w 32 20) = none → row (raiseEvent (portSrc page.val) kDoorbellReject (8 * 511) (counted page.val s))))
  ∧ (∀ (page : Fin 1024) (slot : Fin 512) sid (d : Word) s, Takes s →
      exec (.doorbellDirectWrite page slot sid false d) s = .next s
      ∧ exec (.doorbellIndirectTail page sid false d) s = .next s ∧ exec (.doorbellIndirectHead page sid false d) s = .next s)
  ∧ (∀ page slot sid (d : Word) s, Takes s → s.pins.coreInReset = true → direct page slot sid d s s)
  ∧ (∀ page slot sid (d : Word) s, Takes s → s.pins.coreInReset = false → s.pwr.failSilent = true →
      direct page slot sid d s { s with pwr := { s.pwr with fsAccess := true } })
  ∧ (∀ (page : Fin 1024) (slot : Fin 512) sid (d : Word) s, Takes s → coreOn s = true → s.pwr.state ≠ .p0 →
      direct page slot sid d s { s with pwr := { wakePower 0 s.pwr with
        porch := s.pwr.porch ++ [{ page := page.val, slot := slot.val, sid := sid, data := d, at_ := s.clk.now }] } })
  ∧ (∀ (page : Fin 1024) (slot : Fin 512) sid (d : Word) s, crpPins s = true → s.pins.powered = true → (crpReady s = false ∨ s.pwr.crpWait ≠ []) →
      direct page slot sid d s { s with pwr := { s.pwr with
        crpWait := s.pwr.crpWait ++ [.bell true { page := page.val, slot := slot.val, sid := sid, data := d, at_ := s.clk.now }] } })
  ∧ (∀ page slot sid (d : Word) s b, crpPins s = false → exec (.doorbellDirectWrite page slot sid b d) s = .next s
      ∧ exec (.doorbellIndirectTail page sid b d) s = .next s ∧ exec (.doorbellIndirectHead page sid b d) s = .next s)

/-- ADMIN_PACKET_FETCH takes a waiting mailbox packet, else what has landed of the admin ring; a deadline that passes answers the packet that
did not start; a fence whose jobs are gone does its command's work (03 R69 to R75, R88, R463). -/
def Obligations.ControlPathCompletes : Prop :=
  (∀ s, running s = true → mboxWaits s.cmd = true → exec .adminPacketFetch s = .next (takeMbox s))
  ∧ (∀ s, running s = true → mboxWaits s.cmd = false → exec .adminPacketFetch s = .next (adminFetch (readFailHalt (takeAdmin (adminFetch s)))))
  ∧ (∀ s e, running s = true → s.cmd.exec.find? (fun e => !e.started && !(runnable s.clk.now s.cmd).any (fun x => x.cid == e.cid) && (match e.due with
        | some t => decide (t ≤ s.clk.now)
        | none => false)) = some e →
      ∃ t, exec .commandDeadlineExpiry s = .next t ∧ Done e (replyTo s e .deadlineMissed 0 [] false) s t)
  ∧ (∀ s e f, running s = true → drained s = some (e, f) → exec .fenceDrainComplete s = .next (afterFence e f s))
  ∧ (∀ s e f, running s = true → drained s = some (e, f) → e.opcode = 0x0207 → (∃ h ring, f.obj = .binding h ring) →
      ∃ t, exec .fenceDrainComplete s = .next t ∧ Done e (e.reply.getD (replyTo s e .ok 0 [] true)) s t)

/-! ### Scheduling, the engines and the completion writer -/

/-- The Skein visits the next marked ring and reads the entries that its limits allow, or the context it lacks; the Needle evaluates two jobs, and one whose
checks pass and whose tokens are there is committed, and one whose tokens come later is held; a held job whose tokens came is placed again, the oldest first; a window that opens has its
channel's deferred frame evaluated; completions of one ring are posted together; a coalescing time that runs out sends the interrupt
(04 R93 to R96, R101, R115 to R122; 05 R126 to R147; 11 R290). -/
def Obligations.SchedulingRowsComplete : Prop :=
  let visits := fun (s : State) (id : Nat) (u : Bool) => running s = true ∧ nextVisit s.skein = some (id, u)
  (∀ s id u, visits s id u → tget s.rings id = none →
      exec .skeinVisit s = .next { s with skein := unmarkRing id (movePtr id u s.skein) })
  ∧ (∀ s id u r, visits s id u → tget s.rings id = some r → tget s.rings r.cplRing = none →
      exec .skeinVisit s = .next { s with skein := movePtr id u s.skein })
  ∧ (∀ s id u r c, visits s id u → tget s.rings id = some r → tget s.rings r.cplRing = some c →
      let s1 := { s with skein := movePtr id u s.skein }
      (r.cached = false → exec .skeinVisit s = .next (fetchContext id s1))
      ∧ (r.cached = true → c.cached = false → exec .skeinVisit s = .next (fetchContext r.cplRing s1))
      ∧ (r.cached = true → c.cached = true → unfetched r = 0 → exec .skeinVisit s = .next { s with skein := unmarkRing id (movePtr id u s.skein) })
      ∧ (r.cached = true → c.cached = true → unfetched r ≠ 0 →
          (r.stopped = true ∨ r.draining = true ∨ c.stopped = true ∨ c.draining = true ∨ visitCount s r c = 0) → exec .skeinVisit s = .next s1)
      ∧ (r.cached = true → c.cached = true → unfetched r ≠ 0 → r.stopped = false → r.draining = false → c.stopped = false → c.draining = false →
          visitCount s r c ≠ 0 →
          let parts := visitParts r ((r.head + descOut r) % 2 ^ r.log2) (visitCount s r c)
          let new := visitReads r parts
          exec .skeinVisit s = .next (issue (new.zipWith (fun x p => readReqs (tgetD s.ports r.port {}).sid false (.by id)
              (fun _ => .desc id x.id x.count) p.2.1 p.2.2) parts).flatten
            (touchRing r.cplRing (touchRing id { s1 with
              rings := tmod (tput s.rings id { r with reads := r.reads ++ new, readSeq := r.readSeq + parts.length }) r.cplRing
                (fun y => { y with reserved := y.reserved + visitCount s r c }) })))))
  ∧ (∀ s, running s = true → exec .needleAdmission s = .next (startDue (needleOne (useNextKey (needleOne (useNextKey (fetchAll s)))))))
  ∧ (∀ s, s.fw.pauseAt.isSome = true → needleOne s = s)
  ∧ (∀ s i j, s.fw.pauseAt = none → nextFetched s = some (i, j) → nowRefused s j = true → needleOne s = refuseJob i (descStatus s j) s)
  ∧ (∀ s i j, s.fw.pauseAt = none → nextFetched s = some (i, j) → nowRefused s j = false → j.chainHead = none →
      needleOne s = (admitJob i s.clk.now false s).1)
  ∧ (∀ s i t j, jobOf s i = some j → descStatus s j ≠ .ok → admitJob i t false s = (refuseJob i (descStatus s j) s, .done))
  ∧ (∀ s i t j r p b, jobOf s i = some j → descStatus s j = .ok → sessionOf s j.port j.desc.handle = some r → mustWait s r j = false →
      let x := withAbs s r j
      let q := bucketsAt s.clk.now (tgetD s.ports x.port {})
      let c := chargeOf r x
      let tok := tokenTime s x q c
      stateCheck s r x = .ok → neverFits q c = false → noUnit s r x = false → tok - s.clk.now ≤ 150000000 →
      place s r x (max t tok) = some p → fits s r x (predict s r x p).2 = .ok b →
      let s1 := modPort x.port (fun _ => debit q c) (setJob i (fun y => { y with bound := b }) s)
      (tok ≤ s.clk.now → heldAhead s x = [] → admitJob i t false s = (commitJob i r p false s1, .at (predict s r x p).2))
      ∧ ((s.clk.now < tok ∨ heldAhead s x ≠ []) → admitJob i t false s = (holdJob i r p tok c false s1, .at (predict s r x p).2)))
  ∧ (∀ s i j, running s = true → s.fw.pauseAt = none →
      leastBy (fun e => e.2.seq) (s.jobs.filter (fun e =>
        e.2.phase == .held && decide (e.2.tTok ≤ s.clk.now) && (heldAhead s e.2).isEmpty)) = some (i, j) →
      exec .heldJobRelease s = .next (startDue (releaseHeld i j s))
      ∧ (descStatus s j ≠ .ok → exec .heldJobRelease s = .next (startDue (refuseJob i (descStatus s j) s)))
      ∧ (∀ r p b, descStatus s j = .ok → sessionOf s j.port j.desc.handle = some r → mustWait s r j = false → drawCheck s r j = .ok →
          noUnit s r j = false → place s r j (linkStart s j) = some p → fits s r j (predict s r j p).2 = .ok b →
          exec .heldJobRelease s = .next (startDue (commitJob i r p j.waitPrev (setJob i (fun x => { x with bound := b }) s)))))
  ∧ (∀ s (n : Fin 64) i j w, running s = true → s.fw.pauseAt = none → deferredJob s n.val = some (i, j) → windowed s j = some w →
      windowOpen w.1 (gNs s) = true →
      exec (.windowOpening n) s = .next (startDue (evalStream i (setJob i (fun x => { x with phase := .checked }) s))))
  ∧ (∀ s i j r, running s = true → nextPost s (fun _ => true) = some (i, j, r) → r.cached = false →
      exec .completionPost s = .next (fetchContext j.cpl s))
  ∧ (∀ s i j r, running s = true → nextPost s (fun _ => true) = some (i, j, r) → r.cached = true →
      let q := gather 8 j.cpl [] { s with skein := { s.skein with cplPtr := (j.cpl + 1) % 2 ^ 20 } }
      exec .completionPost s = .next (issue (writeReqs (tgetD (touchRing j.cpl q.2).ports r.port {}).sid false (.by j.cpl)
        (.record j.cpl (q.1.map (·.seq))) (r.base + 16 * r.tail) (q.1.map (fun j => recordBytes j j.recPhase)).flatten) (touchRing j.cpl q.2)))
  ∧ (∀ s (ring : BitVec 20) r, working s = true → tget s.rings ring.toNat = some r → r.isCpl = true → r.irqLate = false → r.coalUs ≠ 0 →
      0 < r.counted → r.oldest + cyUs r.coalUs ≤ s.clk.now → (tgetD s.ports r.port {}).irqEn = true →
      exec (.coalesceTimerExpiry ring) s = .next (issue (writeReqs (tgetD s.ports r.port {}).sid false (.by ring.toNat) (.irq ring.toNat)
          ((tgetD s.ports r.port {}).irqBase + 8 * r.vector) (leBytes 8 (ring.toNat % 2 ^ 20 + 2 ^ 32 * min r.counted 65535)))
        { s with rings := tput s.rings ring.toNat { r with counted := 0, irqNow := false, irqLate := false } }))

/-- The end of an engine's job. Where the two computations agree, the units are counted, a job that had been retried counts as cured, and the job yields
its result; where they differ, an event is reported and the job is tried again, or after a retry completes with COMPUTE_MISMATCH (01 R20, R21; 07 R214
to R216; 08 R236; 09 R257). A Nib job that verifies no tag wrong, a Quill job and a Hook job release what their operations give; RANDOM
writes its draw. A context copy moves what the old unit held; a suspension that ends puts its job aside; output is released in pieces of 4 KiB
(01 R19; 07 R203, R210, R213; 08 R226 to R235; 09 R245, R261; 10 R281). -/
def Obligations.EngineRowsComplete : Prop :=
  let ends := fun (row : BitVec 13 → Bool → Instr) (op : Nat) (yield : Nat → Job → Session → State → State) =>
    ∀ s (i : BitVec 13) j r, readyEnd s i.toNat (opIs op) = some j → j.sess = some r →
      (∀ c ∈ members s.eng.units j.unit, injectedAt s.flt (unitSrc c) (checkerOf r) = none) →
      let us := members s.eng.units j.unit
      let a := countEnd i.toNat j r us true s
      let e := releaseSpare j a.eng
      let d := countEnd i.toNat j r us j.retried s
      let inverse := (unitOf d j.unit).role == .inverse
      let blame := fun (failed : Bool) (u : EUnit) => { u with
        passedSince := false
        mismatchA := if inverse then u.mismatchA else satAdd 32 u.mismatchA 1
        mismatchB := if inverse then satAdd 32 u.mismatchB 1 else u.mismatchB
        failed := if failed then satAdd 32 u.failed 1 else u.failed }
      let first := cancelWrites i.toNat (raiseEvent (unitSrc j.unit) (if isHook r.alg then kHookRepeat else kTwinCompare) i.toNat
        { d with eng := modUnits us (blame false) d.eng })
      let again := startRetry i.toNat j r (retryOf first r j) first
      let last := failJob i.toNat .computeMismatch 0 (raiseEvent (unitSrc j.unit) kCompareRepeated i.toNat { d with eng := modUnits us (blame true) d.eng })
      exec (row i true) s = .next (startDue (yield i.toNat j r
        { a with eng := if j.retried then modUnits us (fun u => { u with cured := satAdd 32 u.cured 1 }) e else e }))
      ∧ (j.retried = false → exec (row i false) s = .next (startDue { again with eng := releaseSpare j again.eng }))
      ∧ (j.retried = true → exec (row i false) s = .next (startDue { last with eng := releaseSpare j last.eng }))
  ends .encrypt 0x01 nibYield ∧ ends .decrypt 0x02 nibYield ∧ ends .macGen 0x03 nibYield ∧ ends .macVerify 0x04 nibYield
  ∧ ends .digest 0x10 quillYield ∧ ends .digestVerify 0x11 quillYield ∧ ends .hmacGen 0x12 quillYield ∧ ends .hmacVerify 0x13 quillYield
  ∧ ends .hookOp 0x20 hookYield
  ∧ (∀ s i j r, let o := nibCompute r j
      (o.good = some false → nibYield i j r s = failJob i .tagMismatch 1 s)
      ∧ (o.good ≠ some false → nibYield i j r s = release i
        (outReqs s r j (4096 * j.chunks) (o.out.drop (4096 * j.chunks)) ++ (if writesMeta j.desc then metaReqs s j o.meta_ else []))
        (fun x => { x with result := o.tags, verdict := if o.good = some true then 2 else 0
                           bytes := if j.desc.op = 3 then o.meta_.length else if j.desc.op = 4 then 0 else dataLen j.desc }) s))
  ∧ (∀ s i j r, qOpen j.desc = true → j.desc.final = true → quillYield i j r s = quillEnd i j r (joinParts j.inGot) s)
  ∧ (∀ s i j r, (qOpen j.desc = false ∨ j.desc.final = false) → messageOf s j = none → quillYield i j r s = failJob i .contextLost 0 s)
  ∧ (∀ s i j r k m, qOpen j.desc = false → j.desc.final = true → messageOf s j = some (k, m) →
      let q := quillEnd i j r (m.absorbed ++ joinParts j.inGot) s
      quillYield i j r s = { q with eng := { q.eng with messages := tdel q.eng.messages k } })
  ∧ (∀ s i j r k m, j.desc.final = false → messageOf s j = some (k, m) → quillYield i j r s =
      dropDead (toMerge i (setJob i (fun x => { x with status := quillStatus r j, bytes := 0 }) { s with
        eng := { s.eng with messages := tput s.eng.messages k { m with absorbed := m.absorbed ++ joinParts j.inGot } } })))
  ∧ (∀ s i j r b x, quillFinal r j.keyMat b (qLength j.desc) = some x →
      let verify := j.desc.op = 0x11 ∨ j.desc.op = 0x13
      (verify → x = joinParts j.metaGot → quillEnd i j r b s = toMerge i (setJob i (fun y => { y with verdict := 2 }) s))
      ∧ (verify → x ≠ joinParts j.metaGot → quillEnd i j r b s = failJob i .tagMismatch 1 s)
      ∧ (¬ verify → quillEnd i j r b s = release i (metaReqs s j x) (fun y => { y with status := quillStatus r j, bytes := quillOut r }) s))
  ∧ (∀ s i j r ix l, leaseAt s j.desc.aux = some (ix, l) →
      (∀ st, hookCompute r j l.data = .failed st →
        hookYield i j r s = failJob i st 0 { s with eng := modUnit j.unit (countHookFail st) s.eng })
      ∧ (hookCompute r j l.data = .verified true → hookYield i j r s = toMerge i (setJob i (fun x => { x with verdict := 2 }) s))
      ∧ (hookCompute r j l.data = .verified false → hookYield i j r s = failJob i .tagMismatch 1 s)
      ∧ (∀ slot secret, hookCompute r j l.data = .ok slot secret → hookYield i j r s =
        release i (metaReqs s j (hookMetaBytes j r slot secret)) (fun x => { x with bytes := (hookMetaBytes j r slot secret).length })
          { s with eng := { s.eng with leases := tput s.eng.leases ix { l with data := Memory.writeBytes l.data (512 * hD j.desc) slot } } }))
  ∧ (∀ s (i : BitVec 13) j r, readyEnd s i.toNat (opIs 0x30) = some j → j.sess = some r →
      exec (.random i) s = .next (startDue (release i.toNat (outReqs s r j 0 j.draw) (fun x => { x with bytes := j.desc.outLen }) s)))
  ∧ (∀ s (n : Fin 20) x t j r, running s = true → (unitOf s (leadOf s.eng.units n.val)).suspended = some x →
      (unitOf s (leadOf s.eng.units n.val)).suspendEnd = some t → t ≤ s.clk.now → jobOf s x = some j → j.sess = some r →
      j.begun = true → j.phase = .queued →
      exec (.urgentSuspendComplete n) s = .next (startDue (setJob x (fun y => { y with phase := .suspended }) { s with
        eng := modUnits (members s.eng.units (leadOf s.eng.units n.val))
          (fun u => { saveCtx r j t u with suspends := satAdd 32 u.suspends 1, suspendEnd := none }) s.eng })))
  ∧ (∀ s (i : BitVec 13) j r, running s = true → jobOf s i.toNat = some j → j.sess = some r → fromRing j = true → isNib r.alg = true →
      writesOut j.desc = true → j.phase = .queued → j.counted = true → j.begun = true → j.readsLeft = 0 → j.status = .ok → chunkDone s r j = true →
      let o := nibCompute r j
      let off := 4096 * j.chunks
      off + 4096 ≤ openBytes r j o →
      let reqs := outReqs s r j off (slice o.out off 4096)
      exec (.outputChunkRelease i) s = .next (issueDue i.toNat (issue reqs (setJob i.toNat (fun x => { x with
        chunks := x.chunks + 1, result := o.tags, writesLeft := x.writesLeft + reqs.length }) s))))
  ∧ (∀ s (n : Fin 14) r, working s = true → (unitOf s (0x100 + n.val)).copying = some r → (unitOf s (0x100 + n.val)).freeAt ≤ s.clk.now →
      exec (.quillContextCopyEnd n) s = .next (startDue { s with eng := { modUnit (0x100 + n.val) (fun v => { v with copying := none, freeAt := 0 }) s.eng with
        messages := tmap s.eng.messages (fun _ m => if m.quill = 0x100 + n.val then { m with quill := r, configGen := s.eng.configGen.toNat } else m) } }))
  ∧ (∀ s (n : Fin 9) r, working s = true → (unitOf s (0x200 + n.val)).copying = some r → (unitOf s (0x200 + n.val)).freeAt ≤ s.clk.now →
      exec (.hookWindowCopyEnd n) s = .next (startDue { s with eng := { modUnit (0x200 + n.val) (fun v => { v with copying := none, freeAt := 0 }) s.eng with
        leases := tmap s.eng.leases (fun _ l => if l.hook = 0x200 + n.val then { l with hook := r } else l) } }))

/-- A stream word of a channel that is not open is counted and dropped; any other goes to its frame: the first word begins it, and the last ends it. The end
of a frame's engine time verifies it or writes its tag, or tries it again; a word that fails its parity ends the frame with POISONED. A lease's zeroing
ends with the lease gone and its windows one generation on, or with the lease reading zero and its command answered (02 R45, R46; 11 R284
to R298; 09 R246, R247, R262). -/
def Obligations.StreamAndLeaseRowsComplete : Prop :=
  (∀ s (b : StreamBeat), b.data.length = 32 → s.pins.powered = true → s.pins.coreInReset = false →
      let n := b.channel.val
      let c := chanOf s n
      let shut := c.isOpen = false ∨ c.closing = true ∨ (tgetD s.ports c.owner {}).isOpen = false
      (shut → exec (.streamWord b) s = .next (startDue (refreshXoff (modChan n (fun y => { y with disabled := satAdd 32 y.disabled 1 }) s))))
      ∧ (¬ shut → b.sof = false → openFrameOf c = none → exec (.streamWord b) s = .next (startDue (refreshXoff s)))
      ∧ (∀ x, ¬ shut → b.sof = false → openFrameOf c = some x → b.eof = false →
          exec (.streamWord b) s = .next (startDue (refreshXoff (takeWord n x b s))))
      ∧ (∀ x, ¬ shut → b.sof = false → openFrameOf c = some x → b.eof = true →
          exec (.streamWord b) s = .next (startDue (refreshXoff (endOfFrame n x.number b.trunc (takeWord n x b s)))))
      ∧ (∀ x, ¬ shut → b.sof = true →
          let s0 := match openFrameOf c with
            | some y => closeFrame n y.number (if frameAlive s y then truncFrame n y s else s)
            | none => s
          let s1 := beginFrame n b.len.toNat s0
          openFrameOf (chanOf s1 n) = some x → exec (.streamWord b) s = .next (startDue (refreshXoff
            (if b.eof then endOfFrame n x.number b.trunc (takeWord n x b s1) else takeWord n x b s1)))))
  ∧ (∀ s n x b, frameAlive s x = true → x.got.length < x.len → chanWords s (chanOf s n) < 2048 → frameJob s x = none →
      takeWord n x b s = modFrame n x.number (fun y => { y with
        words := y.words + 1, got := y.got ++ b.data.take (if b.eof && b.validBytes != 0 then b.validBytes.toNat else 32) }) s)
  ∧ (∀ s n x b, frameAlive s x = true → x.got.length < x.len → 2048 ≤ chanWords s (chanOf s n) →
      takeWord n x b s = raiseEvent (chanSrc n) kStreamOverflow x.number (dropFrame n x .streamOverflow true (modChan n (fun c => { c with
        overflow := satAdd 16 c.overflow 1, dropped := satAdd 32 c.dropped (1 + frameWords s x) }) s)))
  ∧ (∀ s (i : BitVec 13) j n x agree, readyEnd s i.toNat (frameReady s 4) = some j → frameOf s j = some (n, x) → injectedAt s.flt (chanSrc n) 1 = none →
      exec (.streamFrameVerify i agree true) s = .next (startDue (refreshXoff (engineEnd i.toNat (frameReady s 4) agree frameYield s)))
      ∧ exec (.streamFrameVerify i agree false) s = .next (startDue (refreshXoff (poisonFrame i.toNat n x s))))
  ∧ (∀ s (i : BitVec 13) j n x agree, readyEnd s i.toNat (frameReady s 3) = some j → frameOf s j = some (n, x) → injectedAt s.flt (chanSrc n) 1 = none →
      exec (.streamFrameTag i agree true) s = .next (startDue (refreshXoff (engineEnd i.toNat (frameReady s 3) agree frameYield s)))
      ∧ exec (.streamFrameTag i agree false) s = .next (startDue (refreshXoff (poisonFrame i.toNat n x s))))
  ∧ (∀ s (i : Nat) p j r, readyEnd s i p = some j → j.sess = some r →
      (∀ c ∈ members s.eng.units j.unit, injectedAt s.flt (unitSrc c) (checkerOf r) = none) →
      let us := members s.eng.units j.unit
      let a := countEnd i j r us true s
      let d := disagree i j r us (countEnd i j r us j.retried s)
      let e := releaseSpare j a.eng
      engineEnd i p true frameYield s = startDue (frameYield i j r
        { a with eng := if j.retried then modUnits us (fun u => { u with cured := satAdd 32 u.cured 1 }) e else e })
      ∧ engineEnd i p false frameYield s = startDue { d with eng := releaseSpare j d.eng })
  ∧ (∀ s i j r n x, frameOf s j = some (n, x) →
      (j.desc.op = 4 → frameGood r j x.got = true → frameYield i j r s = toMerge i (setJob i (fun y => { y with verdict := 2 }) s))
      ∧ (j.desc.op = 4 → frameGood r j x.got = false → frameYield i j r s = failJob i .tagMismatch 1 s)
      ∧ (j.desc.op ≠ 4 → frameYield i j r s = release i
        (writeReqs (jobSid s j) false (jobRoute j) (.jobOut j.seq) ((chanOf s n).tagBase + 32 * (x.number % 2 ^ (chanOf s n).tagLog2))
          (padTo 32 (macMeta r j (spanZero r x.got)))) (fun y => { y with bytes := (macMeta r j (spanZero r x.got)).length }) s))
  ∧ (∀ s (w : BitVec 9) ix l t, running s = true → tfind s.eng.leases (fun _ l => l.windows.contains w.toNat) = some (ix, l) →
      l.zeroing = some (t, none) → t ≤ s.clk.now → tget s.eng.leases ix = some l →
      exec (.leaseZeroingComplete w) s = .next (startDue (leaseEnded ix
        { s with eng := { s.eng with leases := tdel s.eng.leases ix, windowGen := freeWindows l.windows s.eng.windowGen } })))
  ∧ (∀ s (w : BitVec 9) ix l t cid e, running s = true → tfind s.eng.leases (fun _ l => l.windows.contains w.toNat) = some (ix, l) →
      l.zeroing = some (t, some cid) → t ≤ s.clk.now → entryOf s cid = some e →
      s.jobs.any (fun x => onUnit x.2 && e.work.contains x.2.seq) = false →
      let u := { s with eng := { s.eng with leases := tput s.eng.leases ix { l with data := [], contentsLost := false, zeroing := none } } }
      ∃ v, exec (.leaseZeroingComplete w) s = .next (startDue v) ∧ Done e (e.reply.getD (replyTo s e .ok 0 [] false)) u v)

/-! ### Time, epochs and the fault sources -/

/-- What the time-keeper does at an edge: it slews an offset below 1 ms, steps forward by one that is larger, and takes G back while E holds;
the events of the reference lead to it or to a pending switch (11 R300 to R305). -/
def Obligations.TimeRowsComplete : Prop :=
  (∀ (r : TimeSample) (t : Tim), t.g ≤ t.e →
      let ms := 1000000 * unitsPerNs
      let v := discipline r t
      (t.g + ms ≤ refUnits r → v.g = refUnits r ∧ v.e = max t.e (refUnits r) ∧ v.slewing = false ∧ v.steps = satAdd 16 t.steps 1)
      ∧ (refUnits r + ms ≤ t.g → v.g = refUnits r ∧ v.e = t.e ∧ v.slewing = false ∧ v.backsteps = satAdd 16 t.backsteps 1)
      ∧ (t.g < refUnits r + ms → refUnits r < t.g + ms →
          v.g = t.g ∧ v.e = t.e ∧ v.slewLeft = (refUnits r : Int) - (t.g : Int) ∧ (v.slewing = true ↔ refUnits r ≠ t.g)))
  ∧ (∀ s r, s.tim.usable = true → s.tim.following = true → s.tim.pending = false → sampleBad r = false →
      exec (.timPpsEdge r) s = .next (onTime (fun t => lockEdge (laneSource s) s.clk.now (discipline r (noteSample r t))) s))
  ∧ (∀ s r, s.tim.usable = true → s.tim.following = false → s.tim.pending = false → sampleBad r = false →
      exec (.timPpsEdge r) s = .next (onTime (fun t => lockEdge (laneSource s) s.clk.now (takeUp t.inRank r (noteSample r t))) s))
  ∧ (∀ s r, s.tim.usable = true → s.tim.following = true → s.tim.pending = false → sampleBad r = false →
      exec (.ppsMissing r) s = .next (onTime (fun t =>
        lockEdge (laneSource s) s.clk.now (discipline r { noteSample r t with ppsMissing := satAdd 16 t.ppsMissing 1 })) s))
  ∧ (∀ s r, s.pins.powered = true → s.tim.usable = false → sampleBad r = false → s.tim.minRank ≤ qualRank s.fuse.lifecycle r.qual →
      let rk := qualRank s.fuse.lifecycle r.qual
      let s1 := { s with pins := { s.pins with timClkLost := false } }
      (s.tim.pending = false → exec (.timeInputUsable r) s =
        .next (onTime (fun t => { noteSample r t with usable := true, inRank := rk }) s1))
      ∧ (s.tim.pending = true → s.tim.pendHold = true → exec (.timeInputUsable r) s =
        .next (onTime (fun t => takeUp rk r { noteSample r t with usable := true, inRank := rk }) s1)))
  ∧ (∀ s, s.tim.usable = true → s.tim.following = true →
      exec (.timeInputUnusable false) s = .next (onTime (fun t => setPending true 0 { t with usable := false }) s))
  ∧ (∀ s r, s.tim.usable = true → s.tim.following = true → s.tim.pending = false → sampleBad r = false →
      s.tim.minRank ≤ qualRank s.fuse.lifecycle r.qual → s.tim.rank ≠ qualRank s.fuse.lifecycle r.qual →
      exec (.timRankChange r) s = .next (onTime (fun t =>
        let t2 := { noteSample r t with inRank := qualRank s.fuse.lifecycle r.qual }
        if s.tim.rank < qualRank s.fuse.lifecycle r.qual then takeUp (qualRank s.fuse.lifecycle r.qual) r t2
        else setPending false (qualRank s.fuse.lifecycle r.qual) t2) s))
  ∧ (∀ s, s.tim.pending = true → s.tim.pendAt * (1000000 * unitsPerNs) ≤ s.tim.g →
      exec .referenceSwitchCommit s = .next (onTime (fun t => commitSwitch (laneSource s) s.clk.now t) s))
  ∧ (∀ s, s.pins.powered = true → s.tim.slewing = true → s.tim.slewLeft = 0 →
      ∃ t, exec .slewEnd s = .next t ∧ t.tim = { s.tim with slewing := false } ∧ t = { s with tim := t.tim, jobs := t.jobs })
  ∧ (∀ s, s.pins.powered = true → s.tim.lastTickSec < s.tim.e / (1000000000 * unitsPerNs) →
      ∃ t, exec .epochTick s = .next t ∧ t.tim = { s.tim with lastTickSec := s.tim.e / (1000000000 * unitsPerNs) } ∧ t = { s with tim := t.tim, jobs := t.jobs })

/-- An accounting epoch that is over closes into a bank, a key epoch that is over revokes its keys; the banks are written as the ledger has
room (05 R148 to R152). -/
def Obligations.EpochRowsComplete : Prop :=
  (∀ s, s.pins.powered = true → exec .epochClose s = .next (closeAcct s))
  ∧ (∀ s, s.pins.powered = true → s.ep.acct.over (eNs s) = false → exec .epochClose s = .next s)
  ∧ (∀ s, s.pins.powered = true → exec .keyEpochClose s = .next (closeKey s))
  ∧ (∀ s, s.pins.powered = true → s.ep.key.over (eNs s) = true →
      let n := s.ep.key.next (eNs s)
      exec .keyEpochClose s = .next (if counterOf s.nvm cntKey ≤ n.number then raiseEpochCeiling cntKey n.number s
        else raiseEpochCeiling cntKey (n.number + 1) (dropDead (revokeKeys s.ep.key.number (n.number - 1) { s with ep := { s.ep with key := n } }))))
  ∧ (∀ s, working s = true → exec .ledgerBankWrite s = .next (writeBanks 3 s))

/-- A fault event is counted at its source and, of the baton or of the SKEIN clock, makes the block fail-silent; ERR_N's width and the reaction
time run out as set; the readback of ERR_N is compared (12 R313 to R325; 02 R52). -/
def Obligations.FaultRowsComplete : Prop :=
  (∀ s (src : BitVec 12) (k : BitVec 6) (a : BitVec 44), s.pins.powered = true → (srcClass src.toNat).isSome = true →
      srcPresent s.pins.formL src.toNat = true → kindKnown k.toNat = true → kindEsc k.toNat = false →
      (k.toNat = kBatonFault ∧ src.toNat = 0x0A2 →
        exec (.faultEvent src k a) s = .next (enterFailSilent 1 (raiseEvent src.toNat k.toNat a.toNat s)))
      ∧ (k.toNat = kClockLost ∧ src.toNat = 0x0D3 →
        exec (.faultEvent src k a) s = .next (enterFailSilent 2 (raiseEvent src.toNat k.toNat a.toNat s)))
      ∧ (¬(k.toNat = kBatonFault ∧ src.toNat = 0x0A2) → ¬(k.toNat = kClockLost ∧ src.toNat = 0x0D3) →
        exec (.faultEvent src k a) s = .next (if coreOn s then eventCost src.toNat k.toNat a.toNat s else raiseEvent src.toNat k.toNat a.toNat s)))
  ∧ (∀ s, s.pins.powered = true → s.flt.widthRunning = true → s.flt.errSince + cyUs s.flt.errpwUs ≤ s.clk.now → exec .errpwExpiry s =
      .next { s with flt := { s.flt with widthRunning := false, err := s.flt.err && !(s.flt.relWait && !s.pwr.failSilent), relWait := false } })
  ∧ (∀ s (src : BitVec 12) t, coreOn s = true → (srcOf s.flt src.toNat).severe = true → (srcOf s.flt src.toNat).acked = false →
      (srcOf s.flt src.toNat).timer = some t → t ≤ s.clk.now →
      exec (.reactionTimerExpiry src) s = .next (escalate src.toNat
        { s with flt := { s.flt with sources := tmod s.flt.sources src.toNat (fun x => { x with timer := none, escalated := true }) } }))
  ∧ (∀ s n c rest, coreOn s = true → s.flt.escWait = n :: rest → srcUnit n = some c → kindBusy s (unitKind c) = false →
      exec .escalationDeferredStart s = .next (escalate n { s with flt := { s.flt with escWait := s.flt.escWait.filter (· != n) } }))
  ∧ (∀ s, s.pins.powered = true → s.pins.rbMismatch = false → exec (.errNReadbackMismatch s.flt.err) s =
      .next (raiseEvent 0x0D4 kReadback (b2n s.flt.err) { s with pins := { s.pins with rbMismatch := true, errRb := s.flt.err } }))
  ∧ (∀ s, s.pins.powered = true → s.pins.rbMismatch = true → exec .errNReadbackAgree s =
      .next { s with pins := { s.pins with rbMismatch := false, errRb := !s.flt.err } })

/-! ### Darning, random numbers, power and the baton -/

/-- A sweep step due takes the next unit of its kind or skips it; a drain that ends takes the unit out of service and goes on; a test that ends
settles its unit; a copied row is repaired; a scrubbed row is counted and repaired as it needs; a drained unit reloads its microcode (13 R332 to R346; 16 R407). -/
def Obligations.DarningRowsComplete : Prop :=
  (∀ s t, s.darn.nextDue = some t → running s = true → s.darn.enable = true → s.darn.period ≠ 0 → t ≤ s.clk.now → sweepRuns s = false →
      stepsHeld s = false → s.fw.rollLeft = [] →
      let c := nextSweepUnit s.eng.units s.darn.nextKind (sweepPtr s.darn s.darn.nextKind)
      let s1 := { s with darn := nextStep s.darn }
      (kindBusy s s.darn.nextKind = true → exec .sweepStep s = .next { s1 with darn := skipStep s1.darn })
      ∧ (kindBusy s s.darn.nextKind = false → roleGone (unitOf s c).role = false → exec .sweepStep s = .next (sweepUnit c s1)))
  ∧ (∀ s (c : BitVec 10) d, engselValid c.toNat = true → (unitOf s c.toNat).drain = some d → working s = true →
      (jobsOn s c.toNat).any (fun q => d.jobs.contains q) = false →
      let testing := match d.why with
        | .sweep | .test _ | .rollover => true
        | _ => false
      let partner := if unitKind c.toNat = 0 ∧ d.replacement.isNone then (unitOf s c.toNat).partner else none
      let s1 := leaveService c.toNat d.replacement testing s
      exec (.unitDrainEnd c) s = .next (startDue (afterDrain c.toNat d partner (spareCount s.eng.units (unitKind c.toNat))
        { s1 with eng := modUnit c.toNat (fun u => { u with drain := none }) s1.eng })))
  ∧ (∀ s x r l, running s = true → testDue s = some (x, true) → (∀ cid, x.why ≠ .test cid) → passed r = true → x.retireAfter = none →
      let res := resultWord { r with rowsRepaired := r.rowsRepaired + BitVec.ofNat 8 x.autoRows }
      let d := { s.darn with test := none, tests := wrapInc 32 s.darn.tests, lastResult := res, lastUnit := x.unit }
      exec (.sweepTestEnd ⟨r, l⟩) s = .next (settle (unitKind x.unit) (spareCount s.eng.units (unitKind x.unit))
        (testPassed x l (bistRows r.rowsRepaired.toNat x.unit { s with darn := d }))))
  ∧ (∀ s x r l, running s = true → testDue s = some (x, true) → (∀ cid, x.why ≠ .test cid) → passed r = false → x.retireAfter = none →
      let res := resultWord { r with rowsRepaired := r.rowsRepaired + BitVec.ofNat 8 x.autoRows }
      let d := { s.darn with test := none, tests := wrapInc 32 s.darn.tests, failed := satAdd 16 s.darn.failed 1
                             lastResult := res, lastUnit := x.unit }
      exec (.sweepTestEnd ⟨r, l⟩) s = .next (settle (unitKind x.unit) (spareCount s.eng.units (unitKind x.unit))
        (testFailed x res l (bistRows r.rowsRepaired.toNat x.unit { s with darn := d }))))
  ∧ (∀ s (a : BitVec 9) c rest, (arrayOf s a.toNat).copies = c :: rest → running s = true → c.until_ ≤ s.clk.now →
      let d := countInTest a.toNat c s.darn
      let s1 := rowRepaired a.toNat c.row { s with darn := { d with arrays := tmod d.arrays a.toNat (fun x => { x with copies := rest }) } }
      let s2 := match c.esc with
        | some src => raiseEvent src kEscRetired src s1
        | none => s1
      exec (.rowRepairCopyEnd a) s = .next (match c.cid with
        | some cid => answerCid cid [] s2
        | none => s2))
  ∧ (∀ s (a : BitVec 9) (r : BitVec 12), running s = true → arrayPresent s.pins.formL a.toNat = true → r.toNat < Config.arrayRows a.toNat →
      injectedAt s.flt (arraySrc a.toNat) 0 = none → parityArray a.toNat = false →
      exec (.patrolScrubRow a r .clean) s = .next s
      ∧ exec (.patrolScrubRow a r .corrected) s = .next (eccCorrected a.toNat r.toNat (leNat (freeBytes s 4)) (useFree 4 s))
      ∧ exec (.patrolScrubRow a r .uncorrectable) s = .next (eccUncorrectable a.toNat r.toNat (leNat (freeBytes s 4)) (useFree 4 s)))
  ∧ (∀ s (c : BitVec 10) l, engselValid c.toNat = true → working s = true → s.fw.rollLeft.contains c.toNat = true →
      (roleGone (unitOf s c.toNat).role = true → exec (.microcodeRolloverUnit ⟨c, l⟩) s = .next (reloaded l c.toNat s))
      ∧ ((unitOf s c.toNat).role = .spare → (jobsOn s c.toNat).isEmpty = true → kindBusy s (unitKind c.toNat) = false →
        exec (.microcodeRolloverUnit ⟨c, l⟩) s = .next (spareAlert (unitKind c.toNat) (spareCount s.eng.units (unitKind c.toNat))
          (advanceGen c.toNat (reloaded l c.toNat s))))
      ∧ ((unitOf s c.toNat).role = .active → kindBusy s (unitKind c.toNat) = false →
        exec (.microcodeRolloverUnit ⟨c, l⟩) s = .next (withdraw c.toNat .rollover s)))

/-- A cell goes ONLINE after a startup test that passed, to SPARE after a retest, to FAILED after its third failed retest, and out of ONLINE on a
health failure or its rotation; the conditioner fills the pool with what both paths agree on; a FEED instance reseeds when it is due;
RNG_DATA is refilled; the entropy clock is followed (10 R267 to R280). -/
def Obligations.RandomRowsComplete : Prop :=
  (∀ s (c : Fin 16), testOver s c.val true = true → testHit s c.val = false → (cellOf s c.val).testFailed = false →
      exec (.cellStartupTestEnd c true) s = .next (modCell c.val
        (fun x => { x with state := .online, startup := false, onlineSince := s.clk.now, bits := 0 }) { s with rng := { s.rng with started := true } }))
  ∧ (∀ s (c : Fin 16), testOver s c.val true = true → testHit s c.val = false →
      exec (.cellStartupTestEnd c false) s = .next (leaveOnline c.val { s with rng := { s.rng with started := true } }))
  ∧ (∀ s (c : Fin 16), testOver s c.val false = true → testHit s c.val = false → (cellOf s c.val).testFailed = false →
      exec (.cellRetestEnd c true) s = .next (fillCells (modCell c.val (fun x => { x with state := .spare, retestFails := 0 }) s)))
  ∧ (∀ s (c : Fin 16), testOver s c.val false = true → testHit s c.val = false →
      exec (.cellRetestEnd c false) s = .next (if 2 ≤ (cellOf s c.val).retestFails then
        raiseEvent (cellSrc c.val) kCellFailed 0 (modCell c.val (fun x => { x with state := .failed, retestFails := 3 }) s)
        else modCell c.val (fun x => { beginRetest s.clk.now x with retestFails := x.retestFails + 1 }) s))
  ∧ (∀ s (c : Fin 16) (n : BitVec 11), inkOn s = true → (cellOf s c.val).state = .online → injectedAt s.flt (cellSrc c.val) 4 = none →
      (n.toNat < 749 → exec (.healthWindowClose c n) s = .next (modCell c.val (fun x => { x with
        rawBits := x.rawBits + 1024, bits := if x.state = .online then x.bits + 1024 else x.bits }) s))
      ∧ (749 ≤ n.toNat → exec (.healthWindowClose c n) s = .next (leaveOnline c.val (modCell c.val
        (fun x => { x with rawBits := x.rawBits + 1024, testFailed := true }) (aptFail c.val s)))))
  ∧ (∀ s (c : Fin 16), inkOn s = true → (cellOf s c.val).state = .online →
      let a := (cellOf s c.val).rawBits + leNat (freeBytes s 2) % 1024
      exec (.repetitionCountFailure c) s = .next (leaveOnline c.val (modCell c.val (fun x => { x with testFailed := true })
        (raiseEvent (cellSrc c.val) kHealthRct a { useFree 2 s with rng := { s.rng with rct := satAdd 32 s.rng.rct 1 } }))))
  ∧ (∀ s i x y, inkOn s = true → s.rng.period ≠ 0 → s.rng.rotateAt ≤ s.clk.now → longestOnline s.rng = some (i, x) →
      tfind s.rng.cells (fun _ c => c.state == .spare) = some y →
      exec .cellRotation s = .next (leaveOnline i { s with rng := { s.rng with rotateAt := s.rng.rotateAt + cyMs (1000 * s.rng.period) } }))
  ∧ (∀ s, awake s = true → s.rng.inkLost = false → ∃ cells, exec .inkClockLost s =
      .next (raiseEvent 0x050 kClockLost 3 { s with rng := { s.rng with inkLost := true, cells := cells } }))
  ∧ (∀ s, awake s = true → s.rng.inkLost = true →
      exec .inkClockReturn s = .next (fillCells { s with rng := { resumeCells s.clk.now s.rng with inkLost := false } }))
  ∧ (∀ s r, inkOn s = true → s.rng.pool < 16 → takePortions 4 s.rng = some r → injectedAt s.flt 0x050 2 = none →
      exec (.conditionerOutput true) s = .next (refillState { s with rng := { r with pool := r.pool + 1 } })
      ∧ exec (.conditionerOutput false) s = .next (raiseEvent 0x050 kTwinCompare 0 { s with rng := { r with mismatch := satAdd 32 r.mismatch 1 } }))
  ∧ (∀ s (i : Fin 8), awake s = true → (tgetD s.rng.feeds i.val {}).state = .ready →
      2 ^ 20 ≤ (tgetD s.rng.feeds i.val {}).requests ∨ (tgetD s.rng.feeds i.val {}).nextReseed ≤ s.clk.now → injectedAt s.flt (0x058 + i.val) 2 = none →
      exec (.feedReseedDue i true) s = .next (if (tgetD s.rng.feeds i.val {}).reserve then refillState { s with rng := reseed s.clk.now i.val s.rng }
        else { s with rng := stopFeed i.val .stopped s.rng })
      ∧ exec (.feedReseedDue i false) s = .next (feedMismatch i.val s))
  ∧ (∀ s, awake s = true → feedReady s 7 = true → s.rng.data.length ≤ 32 → ∃ ws, exec .rngDataRefill s =
      .next { feedDraw 7 (useFree 256 s) with
        rng := { (feedDraw 7 (useFree 256 s)).rng with data := (feedDraw 7 (useFree 256 s)).rng.data ++ ws } } ∧ ws.length = 32)

/-- The block enters P1 when nothing waits, works on the entry of a deeper state after its idle time, and commits it when the work is done; a wake
cause wakes it; the exit returns to P0 with the work of the exit done and the porch's doorbells carried out (14 R352 to R358). -/
def Obligations.PowerRowsComplete : Prop :=
  (∀ s, running s = true → s.pwr.entering = none → p1Idle s = true → 1 ≤ s.pwr.deepest → s.pwr.idleSince + 256 ≤ s.clk.now →
      exec .p1Entry s = .next { s with pwr := { s.pwr with state := .p1, leftP0 := s.clk.now } })
  ∧ (∀ s t, deepTarget s.pwr.deepest = some t → coreOn s = true → started s = true → s.pwr.state = .p0 → s.pwr.waking = false →
      s.pwr.entering = none → deepIdle s = true → s.pwr.deepSince + cyUs s.pwr.idleUs ≤ s.clk.now →
      let s2 := entryWork t (loseAllMessages s)
      exec .deepIdleEntry s = .next { s2 with pwr := { s2.pwr with state := .p0, entering := some t } })
  ∧ (∀ s, s.pwr.entering = some .p2 → coreOn s = true → deepIdle s = true → treeStored s = true → ∃ t, exec .powerEntryCommit s = .next t
      ∧ t.pwr = { s.pwr with state := .p2, entering := none, leftP0 := s.clk.now, slept := s.clk.now } ∧ t.keys = s.keys ∧ t.rings = s.rings
      ∧ t.ports = s.ports ∧ t.flt = s.flt ∧ t.rng = s.rng ∧ t.tim = s.tim ∧ t.baton = s.baton
      ∧ t.eng.leases = tmap s.eng.leases (fun _ l => { l with data := [], contentsLost := true }))
  ∧ (∀ s, s.pwr.entering = some .p3 → coreOn s = true → deepIdle s = true → treeStored s = true → ∃ t, exec .powerEntryCommit s = .next t
      ∧ t.pwr = { s.pwr with state := .p3, entering := none, leftP0 := s.clk.now, slept := s.clk.now, resume := some (resumeOf s.keys) }
      ∧ t.keys.slots = tmap s.keys.slots (fun _ x => if x.state = .valid then { x with spilled := true, reading := false } else x)
      ∧ t.flt.queue = [] ∧ t.rng.pool = 0 ∧ t.rng.data = [] ∧ t.rng.feeds = State.reset.rng.feeds ∧ t.link.up = false ∧ t.fol.password = none
      ∧ t.tim = s.tim ∧ t.baton = s.baton)
  ∧ (∀ s, s.pwr.entering = some .p3r → coreOn s = true → deepIdle s = true → treeStored s = true → ∃ t, exec .powerEntryCommit s = .next t
      ∧ t.pwr = { s.pwr with state := .p3r, entering := none, leftP0 := s.clk.now, slept := s.clk.now }
      ∧ t.keys.slots = s.keys.slots ∧ t.rings = tmap s.rings (fun _ r => { r with cached := false })
      ∧ t.flt.queue = [] ∧ t.rng.pool = 0 ∧ t.rng.data = [] ∧ t.rng.feeds = State.reset.rng.feeds ∧ t.link.up = false ∧ t.fol.password = none
      ∧ t.tim = s.tim ∧ t.baton = s.baton)
  ∧ (∀ s (c : WakeCause), coreOn s = true → started s = true → exec (.wakeEvent c) s = .next (wakeNow (wakeCode c) s))
  ∧ (∀ s, coreOn s = true → started s = true → wakeDue s = true → exec .timedWake s = .next (wakeNow 2 s))
  ∧ (∀ s, s.pwr.entering = none → s.pwr.waking = false → s.pwr.state ≠ .p0 → ∀ c,
      wakeNow c s = { s with pwr := { s.pwr with waking := true, lastWake := c } })
  ∧ (∀ s ok l, coreOn s = true → s.pwr.waking = true → (ok = true ∨ (s.pwr.state ≠ .p3r ∧ s.pwr.state ≠ .p3)) →
      let deep := s.pwr.state == .p3r || s.pwr.state == .p3
      let s1 := backToP0 (deep || s.pwr.state == .p2) s
      exec (.powerExitComplete ⟨ok, l⟩) s = .next (crpAccept (replayPorch (exitWork s.pwr.state l { s1 with
        pwr := { s1.pwr with waking := false, wakeBit := false, wakes := wrapInc 32 s1.pwr.wakes }
        baton := { s1.baton with lastRenew := s.clk.now } }))))
  ∧ (∀ s l, coreOn s = true → s.pwr.waking = true → (s.pwr.state = .p3r ∨ s.pwr.state = .p3) → exec (.powerExitComplete ⟨false, l⟩) s =
      .next (runStart { scribeA := none, scribeB := none, control := none, units := [], readback := l } (coreReset s)))

/-- A renewal that carries the owner's epoch renews the baton, any other is counted as stale; a lapse awards the baton to a standby that is
ready and otherwise makes the block fail-silent; a deposed Scribe that goes quiet, its late write counted as stale, becomes a standby again when it has
caught up (01 R16; 14 R363 to R368). -/
def Obligations.BatonRowsComplete : Prop :=
  (∀ s c (n : BitVec 48), scribesOn s = true → batonAgrees s.baton = true →
      if batonOwner s = scribeNum c ∧ n.toNat = batonEpoch s then
        exec (.batonRenewal c n) s = .next { s with baton := { s.baton with lastRenew := s.clk.now } }
      else exec (.batonRenewal c n) s = .next { s with baton := { s.baton with stale := satAdd 16 s.baton.stale 1 } })
  ∧ (∀ s c (n : BitVec 48), scribesOn s = true → batonAgrees s.baton = false →
      exec (.batonRenewal c n) s = .next (batonFault s) ∧ (batonFault s).pwr.failSilent = true)
  ∧ (∀ s, scribesOn s = true → s.baton.lastRenew + cyMs 1 ≤ s.clk.now → batonAgrees s.baton = true →
      let s1 := { s with baton := { s.baton with lapses := satAdd 16 s.baton.lapses 1 } }
      exec .batonLapse s = .next (if scribeState s.baton (1 - batonOwner s) = .ready then
        raiseEvent (scribeSrc (batonOwner s)) 0x23 (batonEpoch s) (takeover (1 - batonOwner s) s1) else enterFailSilent 3 s1))
  ∧ (∀ (b : Baton) now k, k < 2 → (award now k b).c0.epoch = b.c0.epoch + 1 ∧ (award now k b).c0.owner = k ∧ batonAgrees (award now k b) = true
      ∧ scribeState (award now k b) k = .owner ∧ (award now k b).lastRenew = now)
  ∧ (∀ s c, scribesOn s = true → scribeState s.baton (scribeNum c) = .deposed →
      exec (.scribeGoQuiet c) s = .next { lateWrite (scribeNum c) s with baton := setScribe (scribeNum c) .syncing (lateWrite (scribeNum c) s).baton }
      ∧ (s.baton.late = none → lateWrite (scribeNum c) s = s)
      ∧ (∀ n, s.baton.late = some (scribeNum c, n) → batonAgrees s.baton = true → ¬(batonOwner s = scribeNum c ∧ n = batonEpoch s) →
        lateWrite (scribeNum c) s = { s with baton := { s.baton with late := none, stale := satAdd 16 s.baton.stale 1 } }))
  ∧ (∀ s c, scribesOn s = true → scribeState s.baton (scribeNum c) = .syncing →
      exec (.standbyReady c) s = .next { s with baton := setScribe (scribeNum c) .ready s.baton })

/-! ### NVM, firmware, the card port and the lanes -/

/-- An NVM operation that verified has its effect and hands on to its next stage; one that failed to verify is tried again; a word beyond
correction is counted; a sector that is erased loses its content; a compaction queues the erase of a sector of its log (15 R372 to R389). -/
def Obligations.NvmRowsComplete : Prop :=
  (∀ s o rest, s.nvm.ops = o :: rest → nvmWorks s = true → isErase o.work = false →
      sectorBad s.nvm (workSector o.work (leNat (freeBytes s 1))) = false →
      let l := workSector o.work (leNat (freeBytes s 1))
      let s0 := useFree 1 s
      exec (.nvmOperationComplete .verified) s = .next (verified o rest s0)
      ∧ exec (.nvmOperationComplete .corrected) s = .next (verified o rest (correctSector l s0))
      ∧ exec (.nvmOperationComplete .verifyFailed) s = .next (failedVerify l o rest s0)
      ∧ exec (.nvmOperationComplete .uncorrectable) s = .next (failedVerify l o rest (uncorrectableWord l s0)))
  ∧ (∀ s o rest l, s.nvm.ops = o :: rest → o.work = .eraseSector l → nvmWorks s = true → sectorBad s.nvm l = false →
      let s1 := eraseRetire l true (countErases l 1 (eraseContent l s))
      exec (.nvmEraseComplete true false) s = .next (nvmDone o.cid (setOps rest s1))
      ∧ exec (.nvmEraseComplete false true) s = .next (nvmDone o.cid (setOps rest (eraseRetire l true (countErases l 2 (eraseContent l s))))))
  ∧ (∀ s g, nvmWorks s = true → ∃ l, (logArea g).1 ≤ l ∧ l < (logArea g).1 + (logArea g).2
      ∧ exec (.logCompaction g) s = .next (nvmQueue { work := .eraseSector l } (useFree 1 s)))

/-- A replay that ends leaves the image the journal gives or reports IMAGE_INVALID; a scheduled image is prepared 100 ms ahead and paused for at
its time; a standby that is not ready in time fails the activation; probation ends in the fallback, or its self-check is noted (16 R398 to R410). -/
def Obligations.FirmwareRowsComplete : Prop :=
  (∀ s, s.pins.powered = true → s.pins.coreInReset = false → s.fw.state = .replaying → s.nvm.ops = [] → s.pins.nvmLow = false →
      (∀ cid, s.fw.replay ≠ some (.abort cid)) → (∀ cid, s.fw.replay ≠ some (.relayAbort cid)) →
      exec .journalReplayEnd s = .next { s with fw := { closeTransfer ((replayJournal s).getD s.fw) with lastFallback := 6 } })
  ∧ (∀ s cid e, s.pins.powered = true → s.pins.coreInReset = false → s.fw.state = .replaying → s.nvm.ops = [] → s.pins.nvmLow = false →
      s.fw.replay = some (.abort cid) → entryOf s cid = some e →
      let st : Status := if (replayJournal s).isSome then .ok else .imageInvalid
      exec .journalReplayEnd s = .next (releaseToken (answer e st []
        { s with fw := { closeTransfer ((replayJournal s).getD s.fw) with lastFallback := 6 } })))
  ∧ (∀ s, running s = true → s.fw.state = .scheduled → actNsAt s.fw ≤ gNs s + 100000000 → exec .activationPreparationStart s = .next (prepare false s))
  ∧ (∀ s, imageFault s = none → scribeState s.baton (standby s) ≠ .offline → ∀ now, prepare now s =
      { s with fw := { loadScribe (standby s) s.fw with
                         state := .preparing, prepAt := s.clk.now, immediate := now, shadow := Config.microcodePart (imageBytes s.fw) }
               baton := setScribe (standby s) .syncing s.baton })
  ∧ (∀ s, running s = true → s.fw.relay = true → s.fw.state = .scheduled → s.fw.immediate = false → actNsAt s.fw ≤ gNs s + 400000000 →
      exec .tokenHoldWindowStart s = .next { s with cmd := { s.cmd with tokenHold := true } })
  ∧ (∀ s, coreOn s = true → s.fw.state = .preparing → s.fw.pauseAt = none → scribeState s.baton (standby s) ≠ .ready →
      s.fw.prepAt + cyMs 60 ≤ s.clk.now → exec .activationReadyTimeout s = .next (failActivation s))
  ∧ (∀ s, running s = true → s.fw.state = .preparing → s.fw.pauseAt = none → scribeState s.baton (standby s) = .ready →
      s.fw.immediate = true ∨ actNsAt s.fw ≤ gNs s → s.darn.test = none → tokenFree s = true →
      exec .activationPauseStart s = .next (nvmQueue { work := .statusActivated } { s with fw := { s.fw with
        pauseAt := some s.clk.now, lateUs := if s.fw.immediate then 0 else (gNs s - actNsAt s.fw) / 1000 } }))
  ∧ (∀ s, working s = true → s.fw.state = .probation → s.fw.selfDone = false →
      exec (.selfCheckComplete true) s = .next { s with fw := { s.fw with selfDone := true, selfPass := true } }
      ∧ exec (.selfCheckComplete false) s = .next (fallBack 2 s))
  ∧ (∀ s, coreOn s = true → s.fw.state = .probation → s.fw.probationEnd ≤ s.clk.now → exec .probationExpiry s = .next (fallBack 1 s)
      ∧ (fallBack 1 s).fw.lastFallback = 1 ∧ (fallBack 1 s).pins.coreInReset = true)

/-- The card port: insertion and removal, the probe, a power fault, a response, data blocks, the acknowledgement, the end of busy, the limits, and
the delayed answer to a wrong password (17 R417 to R437). -/
def Obligations.CardRowsComplete : Prop :=
  (∀ s, s.fol.seated = false → cardLive s = true → exec .cardDebounceDone s = .next { s with fol := { cardOff s.fol with
      seated := true, state := .probing, ident := [], genA := 0, genB := 0, insertions := wrapInc 16 s.fol.insertions } })
  ∧ (∀ s, s.pins.powered = true → cardLive s = false →
      exec .cardRemoval s = .next { s with fol := { cardOff s.fol with seated := false, password := none, state := .empty } })
  ∧ (∀ s, cardLive s = true →
      let s1 := dropRestore ((cardCommands s).foldl (fun a e => answer e .cardAbsent [] a) s)
      exec .cardRemoval s = .next { s1 with fol := { cardOff s1.fol with seated := false, password := none, state := .empty } })
  ∧ (∀ s (mv : BitVec 12) low, cardLive s = true → probes s.clk.now s.fol = true →
      exec (.cardProbe mv low) s = .next (probed (classify mv.toNat low (leNat (freeBytes s 1))) (useFree 1 s)))
  ∧ (∀ s, cardLive s = true → s.fol.power = true →
      exec .slotPowerFail s = .next (cardFault .short 3 { s with fol := { s.fol with wide := false, div := 2000 } }))
  ∧ (∀ s (f : BitVec 48) c, s.fol.cur = some c → cardLive s = true → s.fol.wait = .response →
      (bits f.toNat 1 7 ≠ (crc7 f).toNat → exec (.cardResponseFrame f) s = .next (transferError (countCrc 1 s)))
      ∧ (bits f.toNat 1 7 = (crc7 f).toNat → bits f.toNat 45 3 = 1 → bits f.toNat 0 1 = 1 → bits f.toNat 40 5 = c.code →
        exec (.cardResponseFrame f) s = .next (responded c (bits f.toNat 8 32) s)))
  ∧ (∀ s lines c, s.fol.cur = some c → cardLive s = true → s.fol.wait = .readData →
      let k := if s.fol.wide then 4 else 1
      let n := readSize c / k
      lines.length = k → lines.all (lineFramed n) = true → (lines.filter (fun l => lineFramed n l && !lineCrcOk n l)).length = 0 →
      exec (.cardDataBlock lines) s = .next (cardDone (dealt (readSize c) (lines.map (fun l => lineBytes n (l.drop 4)))) s.fol.eraseSeen s))
  ∧ (∀ s, cardLive s = true → s.fol.wait = .ack →
      exec (.cardAckByte 0xA5) s = .next { s with fol := { s.fol with wait := .busy, since := s.clk.now } }
      ∧ ∀ b, b ≠ 0xA5 → exec (.cardAckByte b) s = .next (transferError (countCrc 1 s)))
  ∧ (∀ s c, s.fol.cur = some c → cardLive s = true → s.fol.wait = .busy →
      exec .cardBusyEnd s = .next (if c.code = 0x0C ∨ c.code = 0x13 then sendCard s.fol.task 0 statusCmd s else cardDone [] false s))
  ∧ (∀ s due, cardLive s = true → due ≤ s.clk.now →
      (timerRuns s.fol .response = some due → exec (.cardTimeout .response) s = .next (transferError s))
      ∧ (timerRuns s.fol .readData = some due → exec (.cardTimeout .readData) s = .next (transferError s))
      ∧ (timerRuns s.fol .ack = some due → exec (.cardTimeout .ack) s = .next (transferError s))
      ∧ (timerRuns s.fol .busy = some due → exec (.cardTimeout .busy) s = .next (cardGiveUp s))
      ∧ (timerRuns s.fol .ident = some due → exec (.cardTimeout .ident) s = .next (identFail s)))
  ∧ (∀ s t, s.fol.pwFailAt = some t → cardLive s = true → t + cyMs 1000 ≤ s.clk.now →
      let s1 := cardAnswer .cardLocked [] s
      exec .cardPwFailReply s = .next { s1 with fol := cardRest s1.fol })

/-- The lanes: header lock and its loss, markers, a dead lane, the end of training, a lost reference clock; a flit that passes its CRC is taken
and any other answered with a NAK; a NAK rewinds the sender; and the test access port answers what the lifecycle state lets it (02 R57 to R65; 18 R441). -/
def Obligations.LaneAndTapRowsComplete : Prop :=
  (∀ s (i : Fin 34), lanesOn s = true → (laneOf s i.val).locked = false →
      let s1 := modLane i.val (fun l => { l with locked := true }) s
      (s.link.training = false ∨ lanesLocked s1 ≠ 34 → exec (.laneHeaderLock i) s = .next (pumpState s1))
      ∧ (s.link.training = true → lanesLocked s1 = 34 →
        exec (.laneHeaderLock i) s = .next (pumpState { s1 with link := { s1.link with step := max 4 s1.link.step } })))
  ∧ (∀ s (i : Fin 34), lanesOn s = true → (laneOf s i.val).locked = true →
      exec (.laneLockLost i) s = .next (raiseEvent (laneSrc i.val) kLaneLockLost 0 (modLane i.val (fun l => { l with
        locked := false, lostAt := s.clk.now, invalid := satAdd 32 l.invalid 16, lockLosses := satAdd 16 l.lockLosses 1 }) s)))
  ∧ (∀ s (i : Fin 34) (n : BitVec 6) k (sk : BitVec 4), lanesOn s = true → (laneOf s i.val).locked = true → sk.toNat ≤ 8 →
      let up := modLane i.val (fun l => { l with skew := sk.toNat, marker := if n.toNat < 34 then some n.toNat else l.marker }) s
      let down := modLane i.val (fun l => { l with
        inverted := !l.inverted, skew := sk.toNat, marker := if (~~~n).toNat < 34 then some (~~~n).toNat else l.marker }) s
      let aligned := fun (s1 : State) =>
        if s.link.training = true ∧ lanesLocked s = 34 ∧ s1.link.lanes.all (fun e => e.2.marker.isSome) = true then
          { s1 with link := { s1.link with step := max 5 s1.link.step } }
        else s1
      exec (.laneAlignmentMarker i 0xA5 n (~~~n) k sk) s = .next (aligned up)
      ∧ exec (.laneAlignmentMarker i 0x5A n (~~~n) k sk) s = .next (aligned down))
  ∧ (∀ s (i : Fin 34), lanesOn s = true → s.link.up = true → s.link.training = false → (laneOf s i.val).rxRole = .spare → (laneOf s i.val).locked = false →
      (laneOf s i.val).lostAt + cyMs 1 ≤ s.clk.now →
      exec (.laneDead i) s = .next (raiseEvent (laneSrc i.val) kLaneDead 0x3F (modLane i.val (fun l => { l with rxRole := .dead }) s)))
  ∧ (∀ s (h : BitVec 34), lanesOn s = true → s.link.training = true →
      let n := ((List.range 34).filter (fun i => h.getLsbD i)).length
      let m := laneMap s.link.keepMap h s.link.lanes (if 32 ≤ n then 32 else 16)
      let l := { s.link with lanes := tmap s.link.lanes (trainedLane h m), step := 6, training := false, keepMap := true }
      exec (.linkTrainingComplete h) s = .next (if 16 ≤ n then
        pumpState (startComplete { s with link := { l with up := true, half := n < 32, sentRun := 0, nakRun := 0 } })
        else startComplete (linkDown n { s with link := l })))
  ∧ (∀ s, lanesOn s = true → exec .laneRefclkLoss s = .next (linkDown (lanesLocked s) { s with
      pins := { s.pins with laneRefLost := true }, link := { s.link with lanes := tmap s.link.lanes (fun _ l => { l with locked := false }) } }))
  ∧ (∀ s (f : Bytes), f.length = 256 → lanesOn s = true → s.link.up = true → s.link.training = false →
      (f.drop 248 = Config.crc64 (f.take 248) → fld f 0 4 / 2 ^ 28 < 4 → exec (.flitReceived f) s = .next (takeFlit f s))
      ∧ (f.drop 248 ≠ Config.crc64 (f.take 248) → exec (.flitReceived f) s = .next (sendNak s)))
  ∧ (∀ s (n : BitVec 12), lanesOn s = true → s.link.up = true → s.link.training = false → exec (.nakReceived n) s = .next (takeNak n.toNat s))
  ∧ (∀ s ir, s.pins.powered = true → (∀ c, ir ≠ .provisionMove c) →
      exec (.tapInstruction ir) s = .next { s with pins := { s.pins with tapIr := tapSelect s.fuse.lifecycle ir } })
  ∧ (∀ s c, s.pins.powered = true → s.fuse.lifecycle = 0 → c.length = 5541 → s.nvm.ops = [] →
      let s1 := { s with pins := { s.pins with tapIr := .other }, id := { s.id with cert := c } }
      exec (.tapInstruction (.provisionMove c)) s = .next (queueOps [transitionOp s1 1 c] s1))

/-! ### Rules of the spec, one by one -/

/-- 12 R320: FLT_ACK of a severe source that is not yet acknowledged sets ACKED, which clears the source's FLT_UNACK bit, and stops its
reaction timer; of any other source it completes OK with no effect. No other source changes. -/
def Obligations.FltAckAcknowledgesSevereSource : Prop :=
  ∀ s e, Head 0x0502 s e →
    let n := par e 0 2
    let r := srcOf s.flt n
    (r.severe = true ∧ r.acked = false → ∃ u, Answers .fltAck e .ok 0 [] s u
        ∧ srcOf u.flt n = { r with acked := true, timer := none } ∧ ((srcOf u.flt n).severe && !(srcOf u.flt n).acked) = false
        ∧ (∀ k, k ≠ n → srcOf u.flt k = srcOf s.flt k) ∧ u = { s with flt := { s.flt with sources := u.flt.sources } })
    ∧ (r.severe = false ∨ r.acked = true → Answers .fltAck e .ok 0 [] s s)

/-- 12 R319: FLT_RELEASE_ERR is refused while any source is SEVERE and not ACKED, and while the block is fail-silent no command is executed at
all. Otherwise it releases ERR_N, or, before t_ERRPW has run, lets the assertion end when it ends (R318). -/
def Obligations.ReleaseOfErrWaitsForAcknowledgement : Prop :=
  (∀ s e x, Head 0x0504 s e → x ∈ s.flt.sources → x.2.severe = true → x.2.acked = false → Answers .fltReleaseErr e .notPermitted 0 [] s s)
  ∧ (∀ s e, Head 0x0504 s e → unacked s.flt = 0 → s.flt.widthRunning = false →
      Answers .fltReleaseErr e .ok 0 [] s { s with flt := { s.flt with err := false } })
  ∧ (∀ s e, Head 0x0504 s e → unacked s.flt = 0 → s.flt.widthRunning = true →
      Answers .fltReleaseErr e .ok 0 [] s { s with flt := { s.flt with relWait := s.flt.err } })
  ∧ (∀ s i op, s.pwr.failSilent = true → opcodeOf i = some op → exec i s = .next s)

/-- 04 R105: after CORE_RST_N or AON_PORST_N every ring is ABSENT and every ring context is discarded. -/
def Obligations.ResetsLeaveEveryRingAbsent : Prop :=
  (∀ s, s.pins.powered = true → s.pins.coreInReset = false → ∃ t, exec .coreResetAssert s = .next t ∧ (∀ id, tget t.rings id = none)
      ∧ t.skein = {} ∧ t.jobs = [] ∧ t.merge = [])
  ∧ (∀ s, ∃ t, exec .aonPowerOnReset s = .next t ∧ (∀ id, tget t.rings id = none) ∧ t.skein = {} ∧ t.jobs = [] ∧ t.merge = [])

/-- 12 R324: while a reaction timer runs, entry to P2, P3R and P3 waits: neither the start of an entry nor its commit does anything, and no
step of the entry moves the block out of P0 or P1. -/
def Obligations.ReactionTimersHoldPowerEntry : Prop :=
  ∀ s n r d, (n, r) ∈ s.flt.sources → r.timer = some d →
    exec .deepIdleEntry s = .next s ∧ exec .powerEntryCommit s = .next s

/-- 05 R145: CP_SET_QUOTA sets the quotas, takes each bucket whose rate was nonzero to the lower of its level and its new depth, and fills a
bucket whose rate it raises from 0; held jobs keep their t_tok. -/
def Obligations.SetQuotaRefitsBuckets : Prop :=
  ∀ s e p, Head 0x0103 s e → tget s.ports e.port = some p → ∃ u q, Answers .cpSetQuota e .ok 0 [] s u ∧ tget u.ports e.port = some q
    ∧ u = { s with ports := u.ports } ∧ (∀ k, k ≠ e.port → tget u.ports k = tget s.ports k)
    ∧ q.bytesPerS = par e 8 8 ∧ q.burstKib = par e 16 4 ∧ q.hookPerS = par e 20 4 ∧ q.jobsMax = par e 0 4 ∧ q.sessMax = par e 4 4
    ∧ q.ringsMax = par e 24 4 ∧ q.winMax = par e 28 4
    ∧ (p.bytesPerS ≠ 0 → q.lvlBytes = min (bucketsAt s.clk.now p).lvlBytes ((depthBytes q * bucketUnit : Nat) : Int))
    ∧ (p.bytesPerS = 0 → q.bytesPerS ≠ 0 → q.lvlBytes = ((depthBytes q * bucketUnit : Nat) : Int))
    ∧ (p.hookPerS ≠ 0 → q.lvlHook = min (bucketsAt s.clk.now p).lvlHook ((depthHook q * bucketUnit : Nat) : Int))
    ∧ (p.hookPerS = 0 → q.hookPerS ≠ 0 → q.lvlHook = ((depthHook q * bucketUnit : Nat) : Int))

/-- 12 R328: in FIELD a FLT_INJECT that names a source of class 7 or 8 is refused with NOT_PERMITTED, and in SCRAPPED every FLT_INJECT. The
header of the packet is sound (03 R463 checks it first). -/
def Obligations.FaultInjectionIsLimitedByLifecycle : Prop :=
  ∀ s e, fld e.bytes 0 2 = 0x0505 → headerFault e.bytes = none →
    (s.fuse.lifecycle = 2 ∧ (srcClass (fld e.bytes 16 2) = some 7 ∨ srcClass (fld e.bytes 16 2) = some 8)) ∨ s.fuse.lifecycle = 4 →
    Done e (replyTo s e .notPermitted 0 [] false) { s with cmd := { s.cmd with nextCid := s.cmd.nextCid + 1 } } (takeUp1 e s)

/-- 04 R100: a KIND 1 write to a completion ring of N entries that the port owns sets HEAD; a head of N or more, or one that would make the free
count exceed N − 1, is discarded and counted in CPW_DB_REJECT with no event. -/
def Obligations.HeadDoorbellSetsOrDiscards : Prop :=
  ∀ s (b : Bell) r, let d := b.data.toNat
    let id := bits d 32 20
    let n := 2 ^ r.log2
    tget s.rings id = some r → r.port = b.page → r.isCpl = true → bits d 62 1 = 1 → bits d 16 16 = 0 → bits d 52 10 = 0 → r.draining = false →
    (let h := bits d 0 16
     (n ≤ h ∨ (r.tail + n - r.head % n) % n < (h + n - r.head % n) % n →
        indirectBell b s = { s with ports := tmodD s.ports b.page {} (fun p => { p with dbReject := satAdd 32 p.dbReject 1 }) })
     ∧ (h < n → (h + n - r.head % n) % n ≤ (r.tail + n - r.head % n) % n →
        indirectBell b s = { s with rings := tput s.rings id { r with head := h } }))

/-- 02 R43: a doorbell in page p, when it reaches Skein from the bus or from the porch, is discarded, counted in the port's CPW_DB_REJECT and
reported to the Row Counter unless its stream ID is that of client port p; the same where the port is not open (06 R177); else it goes on. -/
def Obligations.DoorbellsNeedTheirStreamId : Prop :=
  ∀ s (b : Bell), let p := tgetD s.ports b.page {}
    (p.isOpen = false ∨ b.sid ≠ p.sid → ∃ u, ringBell b s = raiseEvent (portSrc b.page) kDoorbellReject (8 * b.slot) u
        ∧ u = { s with ports := u.ports } ∧ (∀ k, k ≠ b.page → tget u.ports k = tget s.ports k)
        ∧ tgetD u.ports b.page {} = { p with dbReject := satAdd 32 p.dbReject 1 }
        ∧ (ringBell b s).rings = s.rings ∧ (ringBell b s).skein = s.skein)
    ∧ (p.isOpen = true → b.sid = p.sid →
        ringBell b s = if b.slot = 511 ∧ b.data.getLsbD 63 = true then indirectBell b s else directBell b s)

/-- 00 R11: an offset of the control window that no register group defines reads as 0, and a write to it is ignored. -/
def Obligations.UndefinedOffsetsReadZero : Prop :=
  ∀ s (a : BitVec 19) l d, regWord s (8 * a.toNat) = none →
    (Reads (8 * a.toNat) s → exec (.rcCounterRead ⟨false, a⟩ l) s = .next { s with regs := { s.regs with rdata := 0, rerr := false } })
    ∧ (Writes (8 * a.toNat) s → exec (.registerWrite a l d) s = .next s)
end

