-- ==== Sys2Proof/Laws/Tables.lean ====
section
/-! SUPPORT. Laws of the sparse tables and of the operand memory: read after write, what a write leaves alone, and the canonical
form. -/
namespace Sys2Proof.Machine

variable {α : Type}

/-! ### Tables -/

theorem tget_tput_same (t : Tbl α) (k : Nat) (v : α) : tget (tput t k v) k = some v := by
  induction t with
  | nil => simp [tput, tget]
  | cons e r ih =>
    obtain ⟨k', v'⟩ := e
    simp only [tput]
    split
    · simp [tget]
    · split
      · simp [tget]
      · rename_i h; simp [tget, Ne.symm h, ih]

theorem tget_tput_other (t : Tbl α) {k j : Nat} (v : α) (h : j ≠ k) : tget (tput t k v) j = tget t j := by
  induction t with
  | nil => simp [tput, tget, Ne.symm h]
  | cons e r ih =>
    obtain ⟨k', v'⟩ := e
    simp only [tput]
    split
    · simp [tget, Ne.symm h]
    · split
      · rename_i h2; subst h2; simp [tget, Ne.symm h]
      · simp [tget, ih]

@[simp] theorem tgetD_tput_same (t : Tbl α) (k : Nat) (v d : α) : tgetD (tput t k v) k d = v := by
  simp [tgetD, tget_tput_same]

theorem tgetD_tput_other (t : Tbl α) {k j : Nat} (v d : α) (h : j ≠ k) : tgetD (tput t k v) j d = tgetD t j d := by
  simp [tgetD, tget_tput_other t v h]

theorem tget_tdel_same (t : Tbl α) (k : Nat) : tget (tdel t k) k = none := by
  induction t with
  | nil => rfl
  | cons e r ih =>
    by_cases h : e.1 = k
    · simpa [tdel, h] using ih
    · have h2 : tdel (e :: r) k = e :: tdel r k := by simp [tdel, h]
      rw [h2]; simp only [tget, if_neg h, ih]

theorem tget_tdel_other (t : Tbl α) {k j : Nat} (h : j ≠ k) : tget (tdel t k) j = tget t j := by
  induction t with
  | nil => rfl
  | cons e r ih =>
    by_cases h1 : e.1 = k
    · have h2 : tdel (e :: r) k = tdel r k := by simp [tdel, h1]
      rw [h2, ih]; simp [tget, h1, Ne.symm h]
    · have h2 : tdel (e :: r) k = e :: tdel r k := by simp [tdel, h1]
      rw [h2]; simp only [tget, ih]

theorem tget_tmod (t : Tbl α) (k j : Nat) (f : α → α) : tget (tmod t k f) j = if j = k then (tget t j).map f else tget t j := by
  induction t with
  | nil => simp [tmod, tget]
  | cons e r ih =>
    obtain ⟨k', v'⟩ := e
    have hc : tmod ((k', v') :: r) k f = (if k' = k then (k', f v') else (k', v')) :: tmod r k f := rfl
    rw [hc]
    by_cases h1 : k' = k <;> by_cases h2 : k' = j <;> simp_all [tget]

/-! ### The canonical form -/

theorem tbelow_of_le {j k : Nat} (t : Tbl α) (h : j ≤ k) (hb : tbelow k t = true) : tbelow j t = true := by
  cases t with
  | nil => rfl
  | cons e r => simp only [tbelow, decide_eq_true_eq] at *; omega

theorem tbelow_tput {j : Nat} (t : Tbl α) (k : Nat) (v : α) (h : j < k) (hb : tbelow j t = true) : tbelow j (tput t k v) = true := by
  cases t with
  | nil => simpa [tput, tbelow] using h
  | cons e r =>
    obtain ⟨k', v'⟩ := e
    simp only [tput]
    split
    · simpa [tbelow] using h
    · split
      · simpa [tbelow] using h
      · simpa [tbelow] using hb

theorem tput_wf (t : Tbl α) (k : Nat) (v : α) (h : Tbl.wf t = true) : Tbl.wf (tput t k v) = true := by
  induction t with
  | nil => simp [tput, Tbl.wf, tbelow]
  | cons e r ih =>
    obtain ⟨k', v'⟩ := e
    simp only [Tbl.wf, Bool.and_eq_true] at h
    simp only [tput]
    split
    · rename_i hk
      have h1 : Tbl.wf ((k', v') :: r) = true := by simpa only [Tbl.wf, Bool.and_eq_true] using h
      have h2 : tbelow k ((k', v') :: r) = true := by simpa [tbelow] using hk
      rw [Tbl.wf, h1, h2]; rfl
    · split
      · rename_i hk; subst hk; simp [Tbl.wf, h]
      · simp only [Tbl.wf, Bool.and_eq_true]
        exact ⟨tbelow_tput r k v (by omega) h.1, ih h.2⟩

theorem tbelow_filter (t : Tbl α) (p : Nat × α → Bool) {k : Nat} (hb : tbelow k t = true) (hw : Tbl.wf t = true) :
    tbelow k (t.filter p) = true := by
  induction t with
  | nil => rfl
  | cons e r ih =>
    obtain ⟨k', v'⟩ := e
    simp only [Tbl.wf, Bool.and_eq_true] at hw
    simp only [List.filter]
    split
    · simpa [tbelow] using hb
    · refine ih (tbelow_of_le r ?_ hw.1) hw.2
      simp only [tbelow, decide_eq_true_eq] at hb; omega

theorem filter_wf (t : Tbl α) (p : Nat × α → Bool) (hw : Tbl.wf t = true) : Tbl.wf (t.filter p) = true := by
  induction t with
  | nil => rfl
  | cons e r ih =>
    obtain ⟨k', v'⟩ := e
    have h2 := hw
    simp only [Tbl.wf, Bool.and_eq_true] at h2
    simp only [List.filter]
    split
    · simp only [Tbl.wf, Bool.and_eq_true]
      exact ⟨tbelow_filter r p h2.1 h2.2, ih h2.2⟩
    · exact ih h2.2

/-! ### Operand memory -/

theorem tput_all (m : Memory) (a : Nat) (b : Byte) (p : Host.Cell → Bool) (hb : p (a, b) = true) (h : m.all p = true) :
    (tput m a b).all p = true := by
  induction m with
  | nil => simp [tput, hb]
  | cons e r ih =>
    obtain ⟨k', v'⟩ := e
    simp only [List.all_cons, Bool.and_eq_true] at h
    simp only [tput]
    split
    · simp [hb, h]
    · split
      · simp [hb, h]
      · simp [h, ih h.2]

theorem filter_all (m : Memory) (p q : Host.Cell → Bool) (h : m.all p = true) : (m.filter q).all p = true := by
  simp only [List.all_eq_true, List.mem_filter] at *
  exact fun x hx => h x hx.1

/-- A write keeps the canonical form. -/
theorem Memory_write_wf (m : Memory) (a : Nat) (b : Byte) (h : Memory.wf m = true) : Memory.wf (Memory.write m a b) = true := by
  simp only [Memory.wf, Bool.and_eq_true] at *
  unfold Memory.write
  split
  · exact ⟨filter_wf m _ h.1, filter_all m _ _ h.2⟩
  · rename_i hb
    exact ⟨tput_wf m a b h.1, tput_all m a b _ (by simpa using hb) h.2⟩

theorem Memory_writeBytes_wf (m : Memory) (a : Nat) (b : Bytes) (h : Memory.wf m = true) :
    Memory.wf (Memory.writeBytes m a b) = true := by
  induction b generalizing m a with
  | nil => exact h
  | cons x r ih => exact ih _ _ (Memory_write_wf m a x h)

theorem Memory_filter_wf (m : Memory) (p : Host.Cell → Bool) (h : Memory.wf m = true) : Memory.wf (m.filter p) = true := by
  simp only [Memory.wf, Bool.and_eq_true] at *
  exact ⟨filter_wf m p h.1, filter_all m _ p h.2⟩

/-- A read of the byte written gives it. -/
theorem Memory_read_write_same (m : Memory) (a : Nat) (b : Byte) : Memory.read (Memory.write m a b) a = b := by
  unfold Memory.read Memory.write
  split
  · rename_i h; simp [tgetD, tget_tdel_same, h]
  · exact tgetD_tput_same m a b Memory.blank

/-- A write leaves every other byte alone. -/
theorem Memory_read_write_other (m : Memory) {a c : Nat} (b : Byte) (h : c ≠ a) :
    Memory.read (Memory.write m a b) c = Memory.read m c := by
  unfold Memory.read Memory.write
  split
  · simp [tgetD, tget_tdel_other m h]
  · exact tgetD_tput_other m b Memory.blank h

theorem Memory_read_writeBytes_outside (m : Memory) (a c : Nat) (b : Bytes) (h : c < a ∨ a + b.length ≤ c) :
    Memory.read (Memory.writeBytes m a b) c = Memory.read m c := by
  induction b generalizing m a with
  | nil => rfl
  | cons x r ih =>
    simp only [List.length_cons] at h
    rw [Memory.writeBytes, ih _ _ (by omega), Memory_read_write_other m x (by omega)]

theorem Memory_read_writeBytes_inside (m : Memory) (a i : Nat) (b : Bytes) (h : i < b.length) :
    Memory.read (Memory.writeBytes m a b) (a + i) = b[i] := by
  induction b generalizing m a i with
  | nil => simp at h
  | cons x r ih =>
    cases i with
    | zero =>
      rw [Memory.writeBytes, Memory_read_writeBytes_outside _ _ _ _ (by omega)]
      simpa using Memory_read_write_same m a x
    | succ j =>
      have hj : j < r.length := by simpa using h
      have := ih (Memory.write m a x) (a + 1) j hj
      rw [Memory.writeBytes, show a + (j + 1) = a + 1 + j by omega, this]
      simp

end Sys2Proof.Machine
end

