-- ==== Sys2Proof/Laws/Faults.lean ====
section
/-! SUPPORT. The Row Counter's laws: an event keeps one message per source in the queue, and ERR_N follows the severe sources. -/
namespace Sys2Proof.Machine
open Sys2Proof.Safety

/-! ### Counting in tables -/

theorem tcount_tput {α : Type} (t : Tbl α) (k : Nat) (v : α) (p : Nat → α → Bool) (h : tcount (tput t k v) p ≠ 0) :
    tcount t p ≠ 0 ∨ p k v = true := by
  induction t with
  | nil =>
    by_cases hp : p k v = true
    · exact .inr hp
    · simp [tcount, tput, hp] at h
  | cons e r ih =>
    obtain ⟨k', v'⟩ := e
    by_cases h0 : p k' v' = true
    · left; simp [tcount, h0]
    · by_cases hv : p k v = true
      · exact .inr hv
      · left
        simp only [tput] at h
        split at h
        · simpa [tcount, h0, hv] using h
        · split at h
          · simpa [tcount, h0, hv] using h
          · have h1 : tcount (tput r k v) p ≠ 0 := by simpa [tcount, h0] using h
            have h2 := (ih h1).resolve_right hv
            simpa [tcount, h0] using h2

theorem tcount_of_tget {α : Type} (t : Tbl α) (k : Nat) (v : α) (p : Nat → α → Bool) (hg : tget t k = some v) (hp : p k v = true) :
    tcount t p ≠ 0 := by
  induction t with
  | nil => simp [tget] at hg
  | cons e r ih =>
    obtain ⟨k', v'⟩ := e
    simp only [tget] at hg
    split at hg
    · rename_i hk; subst hk; cases hg; simp [tcount, hp]
    · have := ih hg
      simp only [tcount, List.filter] at *
      split <;> simp_all

theorem tcount_map {α : Type} (t : Tbl α) (g : Nat × α → Nat × α) (p : Nat → α → Bool)
    (hg : ∀ e, p (g e).1 (g e).2 = true → p e.1 e.2 = true) (h : tcount (t.map g) p ≠ 0) : tcount t p ≠ 0 := by
  induction t with
  | nil => simp [tcount] at h
  | cons e r ih =>
    by_cases h0 : p e.1 e.2 = true
    · simp [tcount, h0]
    · have h1 : ¬ p (g e).1 (g e).2 = true := fun x => h0 (hg e x)
      have h2 : tcount (r.map g) p ≠ 0 := by simpa [tcount, h1] using h
      simpa [tcount, h0] using ih h2

/-! ### Severe sources -/

/-- The number of severe sources unacknowledged does not leave zero where every source keeps or loses the mark. -/
theorem unacked_tmod (f : Flt) (n : Nat) (g : Src → Src) (hg : ∀ r, ((g r).severe && !(g r).acked) = true → (r.severe && !r.acked) = true)
    (h : unacked { f with sources := tmod f.sources n g } ≠ 0) : unacked f ≠ 0 := by
  refine tcount_map f.sources _ _ ?_ h
  intro e; split
  · exact hg e.2
  · exact id

theorem unacked_tput (f : Flt) (n : Nat) (r : Src) (h : unacked { f with sources := tput f.sources n r } ≠ 0) :
    unacked f ≠ 0 ∨ (r.severe && !r.acked) = true := tcount_tput _ _ _ _ h

theorem unacked_of_srcOf (f : Flt) (n : Nat) (h : ((srcOf f n).severe && !(srcOf f n).acked) = true) : unacked f ≠ 0 := by
  unfold srcOf tgetD at h
  cases hg : tget f.sources n with
  | none => simp [hg] at h
  | some r => exact tcount_of_tget _ n r _ hg (by simpa [hg] using h)

theorem errSound_tmod (f : Flt) (n : Nat) (g : Src → Src)
    (hg : ∀ r, ((g r).severe && !(g r).acked) = true → (r.severe && !r.acked) = true) (h : ErrSound f) :
    ErrSound { f with sources := tmod f.sources n g } := fun hn => h (unacked_tmod f n g hg hn)

/-! ### Events -/

theorem srcClass_lt (n c : Nat) (h : srcClass n = some c) : n < 4096 := by
  by_cases hn : n < 4096
  · exact hn
  · have hz : srcClass n = none := by
      unfold srcClass
      repeat rw [if_neg (by omega)]
    rw [hz] at h; cases h

theorem msgSrc_faultMsg (src kind addr : Nat) (h : src < 4096) : msgSrc (faultMsg src kind addr) = src := by
  have hk : kindChk kind ≤ 3 := by
    unfold kindChk
    repeat' split
    all_goals omega
  have h1 : src % 4096 = src := Nat.mod_eq_of_lt h
  have h2 : src * 2 ^ 52 + kind % 64 * 2 ^ 46 + kindChk kind * 2 ^ 44 + addr % 2 ^ 44 < 2 ^ 64 := by omega
  unfold msgSrc faultMsg
  rw [BitVec.toNat_ofNat, h1, Nat.mod_eq_of_lt h2]
  omega

theorem enqueueMsg_sound (f : Flt) (src kind addr : Nat) (hs : src < 4096) (h : QueueSound f) : QueueSound (enqueueMsg f src kind addr) := by
  unfold enqueueMsg
  split
  · exact h
  · rename_i hn
    have hm : src ∉ f.queue.map msgSrc := by simpa using hn
    unfold QueueSound at *
    simp only [List.map_append, List.map_cons, List.map_nil, msgSrc_faultMsg src kind addr hs]
    exact List.nodup_append.mpr ⟨h, by simp, by simp only [List.mem_singleton]; rintro a ha b rfl rfl; exact hm ha⟩

@[simp] theorem enqueueMsg_sources (f : Flt) (src kind addr : Nat) : (enqueueMsg f src kind addr).sources = f.sources := by
  unfold enqueueMsg; split <;> rfl
@[simp] theorem enqueueMsg_err (f : Flt) (src kind addr : Nat) : (enqueueMsg f src kind addr).err = f.err := by
  unfold enqueueMsg; split <;> rfl
@[simp] theorem enqueueMsg_relWait (f : Flt) (src kind addr : Nat) : (enqueueMsg f src kind addr).relWait = f.relWait := by
  unfold enqueueMsg; split <;> rfl

/-- An event keeps the queue and ERR_N sound (12 R315, R316, R318). -/
theorem fltEvent_sound (now ms : Nat) (f : Flt) (src kind addr : Nat) (h : FaultsSound f) : FaultsSound (fltEvent now ms f src kind addr).1 := by
  obtain ⟨hq, he⟩ := h
  unfold fltEvent
  split
  · exact ⟨hq, he⟩
  · rename_i c hc
    have hqs := enqueueMsg_sound f src kind addr (srcClass_lt src c hc) hq
    have hes : ErrSound (enqueueMsg f src kind addr) := by
      intro hn; simpa using he (by simpa [unacked] using hn)
    simp only []
    split
    · exact ⟨hqs, hes⟩
    · split
      · exact ⟨hqs, fun _ => ⟨rfl, rfl⟩⟩
      · refine ⟨hqs, fun hn => ?_⟩
        have h1 := unacked_tput (enqueueMsg f src kind addr) src _ hn
        have h2 : unacked f ≠ 0 := by
          rcases h1 with h1 | h1
          · simpa [unacked] using h1
          · exact unacked_of_srcOf f src (by simpa [countSrc] using h1)
        simpa using he h2

@[simp] theorem raiseEvent_sound (src kind addr : Nat) (s : State) (h : FaultsSound s.flt) : FaultsSound (raiseEvent src kind addr s).flt :=
  fltEvent_sound _ _ _ src kind addr h

theorem assertErr_sound (now : Nat) (f : Flt) (h : FaultsSound f) : FaultsSound (assertErr now f) := ⟨h.1, fun _ => ⟨rfl, rfl⟩⟩

end Sys2Proof.Machine
end

