-- ==== Sys2Proof/Laws/Kept.lean ====
section
/-! SUPPORT. What nearly every operation of the model keeps: the queue of commands, the fuses, the cycle count and E, and the soundness of
the fault sources, of the baton and of the operand memory. One lemma per operation, in the files Kept0 to Kept9. -/
namespace Sys2Proof.Machine
open Sys2Proof.Safety

/-- The values that a state keeps from `s`, one by one. -/
def Kept (s : State) (q : List Instr) (fu : Fuse) (n e : Nat) (f : Flt) (b : Baton) (l : Tbl Lease) : Prop :=
  q = s.pending ∧ fu = s.fuse ∧ n = s.clk.now ∧ e = s.tim.e ∧ (FaultsSound s.flt → FaultsSound f) ∧ (BatonSound s.baton → BatonSound b)
    ∧ (LeasesSound s.eng.leases → LeasesSound l)

/-- `t` keeps the queue, the fuses, the cycle count, E and the soundness of `s`. -/
def Keeps (s t : State) : Prop := Kept s t.pending t.fuse t.clk.now t.tim.e t.flt t.baton t.eng.leases

@[simp] theorem keeps_refl (s : State) : Keeps s s := ⟨rfl, rfl, rfl, rfl, id, id, id⟩

@[simp] theorem keeps_mk (s : State) (pending : List Instr) (pins : Pins) (clk : Clk) (fab : Fab) (cmd : Cmd) (ports : Tbl CPort) (rings : Tbl Ring) (skein : Skein) (jobs : Tbl Job) (jobSeq : Nat) (merge : List Nat) (eng : Engines) (keys : Keys) (ep : Epochs) (chans : Tbl Chan) (tim : Tim) (flt : Flt) (darn : Darn) (rng : Rng) (pwr : Power) (baton : Baton) (nvm : Nvm) (fuse : Fuse) (fw : Fw) (id : Ident) (fol : Folio) (link : Link) (regs : Regs) :
    Keeps s (State.mk pending pins clk fab cmd ports rings skein jobs jobSeq merge eng keys ep chans tim flt darn rng pwr baton nvm fuse fw id fol link regs) ↔ Kept s pending fuse clk.now tim.e flt baton eng.leases := Iff.rfl

@[simp] theorem kept_eta (s t : State) : Kept s t.pending t.fuse t.clk.now t.tim.e t.flt t.baton t.eng.leases ↔ Keeps s t := Iff.rfl

/-- A state that keeps all but the fault sources, which stay sound. -/
@[simp] theorem kept_flt (s t : State) (f : Flt) (h : Keeps s t) (hf : FaultsSound t.flt → FaultsSound f) :
    Kept s t.pending t.fuse t.clk.now t.tim.e f t.baton t.eng.leases :=
  ⟨h.1, h.2.1, h.2.2.1, h.2.2.2.1, fun x => hf (h.2.2.2.2.1 x), h.2.2.2.2.2.1, h.2.2.2.2.2.2⟩

/-- A state that keeps all but the baton, which stays sound. -/
@[simp] theorem kept_baton (s t : State) (b : Baton) (h : Keeps s t) (hb : BatonSound t.baton → BatonSound b) :
    Kept s t.pending t.fuse t.clk.now t.tim.e t.flt b t.eng.leases :=
  ⟨h.1, h.2.1, h.2.2.1, h.2.2.2.1, h.2.2.2.2.1, fun x => hb (h.2.2.2.2.2.1 x), h.2.2.2.2.2.2⟩

/-- A state that keeps all but the leases, which stay sound. -/
@[simp] theorem kept_leases (s t : State) (l : Tbl Lease) (h : Keeps s t) (hl : LeasesSound t.eng.leases → LeasesSound l) :
    Kept s t.pending t.fuse t.clk.now t.tim.e t.flt t.baton l :=
  ⟨h.1, h.2.1, h.2.2.1, h.2.2.2.1, h.2.2.2.2.1, h.2.2.2.2.2.1, fun x => hl (h.2.2.2.2.2.2 x)⟩

@[simp] theorem keeps_ite (c : Prop) [Decidable c] (s a b : State) (ha : Keeps s a) (hb : Keeps s b) : Keeps s (if c then a else b) := by
  split <;> assumption

@[simp] theorem keeps_foldl {α : Type} (f : State → α → State) (s : State) (hf : ∀ x a, Keeps s x → Keeps s (f x a)) (l : List α) (t : State)
    (h : Keeps s t) : Keeps s (l.foldl f t) := by
  induction l generalizing t with
  | nil => exact h
  | cons a r ih => exact ih _ (hf t a h)

theorem Keeps.trans {a b c : State} (h : Keeps a b) (g : Keeps b c) : Keeps a c := by
  obtain ⟨h1, h2, h3, h4, h5, h6, h7⟩ := h
  obtain ⟨g1, g2, g3, g4, g5, g6, g7⟩ := g
  exact ⟨g1.trans h1, g2.trans h2, g3.trans h3, g4.trans h4, fun x => g5 (h5 x), fun x => g6 (h6 x), fun x => g7 (h7 x)⟩

/-! ### Parts -/

@[simp] theorem modUnit_leases (c : Nat) (f : EUnit → EUnit) (e : Engines) : (modUnit c f e).leases = e.leases := rfl
@[simp] theorem modUnits_leases (cs : List Nat) (f : EUnit → EUnit) (e : Engines) : (modUnits cs f e).leases = e.leases := by
  unfold modUnits
  induction cs generalizing e with
  | nil => rfl
  | cons c r ih => exact (ih _).trans rfl

/-- The sources of the fault unit as the severe ones count, where a change of one keeps or drops its mark. -/
@[simp] theorem faultsSound_tmod (f : Flt) (n : Nat) (g : Src → Src)
    (hg : ∀ r, ((g r).severe && !(g r).acked) = true → (r.severe && !r.acked) = true) (h : FaultsSound f) :
    FaultsSound { f with sources := tmod f.sources n g } := ⟨h.1, errSound_tmod f n g hg h.2⟩

/-- The same with the sources changed by a map. -/
theorem faultsSound_map (f : Flt) (g : Nat × Src → Nat × Src)
    (hg : ∀ e, ((g e).2.severe && !(g e).2.acked) = true → (e.2.severe && !e.2.acked) = true) (h : FaultsSound f) :
    FaultsSound { f with sources := f.sources.map g } := ⟨h.1, fun hn => h.2 (tcount_map f.sources g _ hg hn)⟩

/-- Values that neither the queue nor the severe sources and ERR_N depend on. -/
theorem faultsSound_of (f g : Flt) (hq : g.queue = f.queue) (hs : g.sources = f.sources) (he : g.err = f.err) (hr : g.relWait = f.relWait)
    (h : FaultsSound f) : FaultsSound g := by
  refine ⟨by simpa [QueueSound, hq] using h.1, fun hn => ?_⟩
  have := h.2 (by simpa [unacked, hs] using hn)
  exact ⟨he.trans this.1, hr.trans this.2⟩

@[simp] theorem releaseSpare_leases (j : Job) (e : Engines) : (releaseSpare j e).leases = e.leases := by
  unfold releaseSpare; split <;> rfl
@[simp] theorem dropCtx_leases (q : Nat) (e : Engines) : (dropCtx q e).leases = e.leases := rfl
@[simp] theorem quillCommit_leases (j : Job) (unit cfg : Nat) (e : Engines) : (quillCommit j unit cfg e).leases = e.leases := by
  unfold quillCommit; dsimp only
  repeat' split
  all_goals rfl
@[simp] theorem suspectUnit_leases (src : Nat) (e : Engines) : (suspectUnit src e).leases = e.leases := by
  rfl

@[simp] theorem setScribe_sound (k : Nat) (x : ScribeState) (b : Baton) (h : BatonSound b) : BatonSound (setScribe k x b) := by
  unfold setScribe; split <;> exact h
@[simp] theorem award_sound (now k : Nat) (b : Baton) : BatonSound (award now k b) := by
  unfold award setScribe; split <;> exact ⟨rfl, rfl⟩
@[simp] theorem restartScribe_sound (n : Nat) (b : Baton) (h : BatonSound b) : BatonSound (restartScribe n b) := by
  unfold restartScribe
  split
  · exact setScribe_sound _ _ b h
  · exact h

@[simp] theorem leasesSound_nil : LeasesSound [] := fun _ h => by simp at h

theorem leasesSound_map (t : Tbl Lease) (g : Nat × Lease → Nat × Lease) (hg : ∀ e, Memory.wf e.2.data = true → Memory.wf (g e).2.data = true)
    (h : LeasesSound t) : LeasesSound (t.map g) := by
  intro x hx
  obtain ⟨y, hy, rfl⟩ := List.mem_map.mp hx
  exact hg y (h y hy)

theorem leasesSound_moveClears (m : List (Nat × Nat)) (t : Tbl Lease) (h : LeasesSound t) : LeasesSound (moveClears m t) := by
  refine leasesSound_map t _ (fun e he => ?_) h
  dsimp only
  split <;> exact he

theorem leasesSound_tput (t : Tbl Lease) (k : Nat) (l : Lease) (hl : Memory.wf l.data = true) (h : LeasesSound t) : LeasesSound (tput t k l) := by
  induction t with
  | nil => intro x hx; simp [tput] at hx; subst hx; exact hl
  | cons e r ih =>
    obtain ⟨k', v'⟩ := e
    have h1 : Memory.wf v'.data = true := h (k', v') (by simp)
    have h2 : LeasesSound r := fun x hx => h x (by simp [hx])
    intro x hx
    simp only [tput] at hx
    split at hx
    · rcases List.mem_cons.mp hx with rfl | hx
      · exact hl
      · exact h x hx
    · split at hx
      · rcases List.mem_cons.mp hx with rfl | hx
        · exact hl
        · exact h2 x hx
      · rcases List.mem_cons.mp hx with rfl | hx
        · exact h1
        · exact ih h2 x hx

theorem leasesSound_filter (t : Tbl Lease) (p : Nat × Lease → Bool) (h : LeasesSound t) : LeasesSound (t.filter p) :=
  fun x hx => h x (List.mem_filter.mp hx).1

end Sys2Proof.Machine
end

