-- ==== Sys2Proof/Laws/Kept0.lean ====
section
/-! SUPPORT. What the operations keep: the reply, the fabric and the shared operations. One lemma per operation. -/
namespace Sys2Proof.Machine
open Sys2Proof.Safety
set_option linter.unusedSimpArgs false

@[simp] theorem useFree_keeps (z : State) (n : Nat) (s : State) (hk : Keeps z s) :
    Keeps z (useFree n s) := by
  unfold useFree
  (try dsimp only)
  repeat' (first | (simp (maxDischargeDepth := 30) [hk]; done) | split | (simp (maxDischargeDepth := 30) +contextual [hk]; done))

@[simp] theorem issue_keeps (z : State) (rs : List Req) (s : State) (hk : Keeps z s) :
    Keeps z (issue rs s) := by
  unfold issue
  (try dsimp only)
  repeat' (first | (simp (maxDischargeDepth := 30) [hk]; done) | split | (simp (maxDischargeDepth := 30) +contextual [hk]; done))

@[simp] theorem pumpState_keeps (z : State) (s : State) (hk : Keeps z s) :
    Keeps z (pumpState s) := by
  unfold pumpState
  (try dsimp only)
  repeat' (first | (simp (maxDischargeDepth := 30) [hk]; done) | split | (simp (maxDischargeDepth := 30) +contextual [hk]; done))

@[simp] theorem raiseEvent_keeps (z : State) (src kind addr : Nat) (s : State) (hk : Keeps z s) :
    Keeps z (raiseEvent src kind addr s) :=
  hk.trans ⟨rfl, rfl, rfl, rfl, raiseEvent_sound src kind addr s, id, id⟩

@[simp] theorem takeInject_keeps (z : State) (src checker : Nat) (s : State) (hk : Keeps z s) :
    Keeps z (takeInject src checker s) :=
  hk.trans ⟨rfl, rfl, rfl, rfl, faultsSound_tmod _ _ _ (fun _ => id), id, id⟩

@[simp] theorem sendReply_keeps (z : State) (s : State) (hk : Keeps z s) :
    Keeps z (sendReply s) := by
  unfold sendReply
  (try dsimp only)
  repeat' (first | (simp (maxDischargeDepth := 30) [hk]; done) | split | (simp (maxDischargeDepth := 30) +contextual [hk]; done))

@[simp] theorem routeReply_keeps (z : State) (e : CmdEntry) (r : Reply) (s : State) (hk : Keeps z s) :
    Keeps z (routeReply e r s) := by
  unfold routeReply
  (try dsimp only)
  repeat' (first | (simp (maxDischargeDepth := 30) [hk]; done) | split | (simp (maxDischargeDepth := 30) +contextual [hk]; done))

@[simp] theorem finish_keeps (z : State) (e : CmdEntry) (r : Reply) (s : State) (hk : Keeps z s) :
    Keeps z (finish e r s) := by
  unfold finish
  (try dsimp only)
  repeat' (first | (simp (maxDischargeDepth := 30) [hk]; done) | split | (simp (maxDischargeDepth := 30) +contextual [hk]; done))

@[simp] theorem logCommit_keeps (z : State) (e : CmdEntry) (s : State) (hk : Keeps z s) :
    Keeps z (logCommit e s) := by
  unfold logCommit
  (try dsimp only)
  repeat' (first | (simp (maxDischargeDepth := 30) [hk]; done) | split | (simp (maxDischargeDepth := 30) +contextual [hk]; done))

@[simp] theorem answer_keeps (z : State) (e : CmdEntry) (st : Status) (payload : Bytes) (s : State) (hk : Keeps z s) :
    Keeps z (answer e st payload s) := by
  unfold answer
  (try dsimp only)
  repeat' (first | (simp (maxDischargeDepth := 30) [hk]; done) | split | (simp (maxDischargeDepth := 30) +contextual [hk]; done))

@[simp] theorem refuseAt_keeps (z : State) (e : CmdEntry) (st : Status) (detail : Nat) (s : State) (hk : Keeps z s) :
    Keeps z (refuseAt e st detail s) := by
  unfold refuseAt
  (try dsimp only)
  repeat' (first | (simp (maxDischargeDepth := 30) [hk]; done) | split | (simp (maxDischargeDepth := 30) +contextual [hk]; done))

@[simp] theorem setEntry_keeps (z : State) (cid : Nat) (f : CmdEntry → CmdEntry) (s : State) (hk : Keeps z s) :
    Keeps z (setEntry cid f s) := by
  unfold setEntry
  (try dsimp only)
  repeat' (first | (simp (maxDischargeDepth := 30) [hk]; done) | split | (simp (maxDischargeDepth := 30) +contextual [hk]; done))

@[simp] theorem cmdRead_keeps (z : State) (e : CmdEntry) (addr len : Nat) (s : State) (hk : Keeps z s) :
    Keeps z (cmdRead e addr len s) := by
  unfold cmdRead
  (try dsimp only)
  repeat' (first | (simp (maxDischargeDepth := 30) [hk]; done) | split | (simp (maxDischargeDepth := 30) +contextual [hk]; done))

@[simp] theorem cmdWrite_keeps (z : State) (e : CmdEntry) (addr : Nat) (data : Bytes) (r : Reply) (s : State) (hk : Keeps z s) :
    Keeps z (cmdWrite e addr data r s) := by
  unfold cmdWrite
  (try dsimp only)
  repeat' (first | (simp (maxDischargeDepth := 30) [hk]; done) | split | (simp (maxDischargeDepth := 30) +contextual [hk]; done))

@[simp] theorem failWaiting_keeps (z : State) (number : Nat) (a : Access) (s : State) (hk : Keeps z s) :
    Keeps z (failWaiting number a s) := by
  unfold failWaiting
  (try dsimp only)
  repeat' (first | (simp (maxDischargeDepth := 30) [hk]; done) | split | (simp (maxDischargeDepth := 30) +contextual [hk]; done))

@[simp] theorem wakeWaiting_keeps (z : State) (number : Nat) (s : State) (hk : Keeps z s) :
    Keeps z (wakeWaiting number s) := by
  unfold wakeWaiting
  (try dsimp only)
  repeat' (first | (simp (maxDischargeDepth := 30) [hk]; done) | split | (simp (maxDischargeDepth := 30) +contextual [hk]; done))

@[simp] theorem enterFailSilent_keeps (z : State) (cause : Nat) (s : State) (hk : Keeps z s) :
    Keeps z (enterFailSilent cause s) :=
  hk.trans ⟨rfl, rfl, rfl, rfl, assertErr_sound _ _, id, id⟩

@[simp] theorem onCommand_keeps (z : State) (op : Nat) (f : CmdEntry → State → State) (s : State) (hk : Keeps z s) (h0 : ∀ x0 x1, Keeps z x1 → Keeps z (f x0 x1)) :
    Keeps z (onCommand op f s) := by
  unfold onCommand
  (try dsimp only)
  repeat' (first | (simp (maxDischargeDepth := 30) [h0, hk]; done) | split | (simp (maxDischargeDepth := 30) +contextual [h0, hk]; done))

@[simp] theorem startTree_keeps (z : State) (s : State) (hk : Keeps z s) :
    Keeps z (startTree s) := by
  unfold startTree
  (try dsimp only)
  repeat' (first | (simp (maxDischargeDepth := 30) [hk]; done) | split | (simp (maxDischargeDepth := 30) +contextual [hk]; done))

@[simp] theorem carveWrite_keeps (z : State) (route : Route) (owner : Owner) (off : Nat) (body : Bytes) (s : State) (hk : Keeps z s) :
    Keeps z (carveWrite route owner off body s) := by
  unfold carveWrite
  (try dsimp only)
  repeat' (first | (simp (maxDischargeDepth := 30) [hk]; done) | split | (simp (maxDischargeDepth := 30) +contextual [hk]; done))

@[simp] theorem writeRing_keeps (z : State) (id : Nat) (r : Ring) (s : State) (hk : Keeps z s) :
    Keeps z (writeRing id r s) := by
  unfold writeRing
  (try dsimp only)
  repeat' (first | (simp (maxDischargeDepth := 30) [hk]; done) | split | (simp (maxDischargeDepth := 30) +contextual [hk]; done))

@[simp] theorem writeSession_keeps (z : State) (owner : Owner) (ix ceiling : Nat) (s : State) (hk : Keeps z s) :
    Keeps z (writeSession owner ix ceiling s) := by
  unfold writeSession
  (try dsimp only)
  repeat' (first | (simp (maxDischargeDepth := 30) [hk]; done) | split | (simp (maxDischargeDepth := 30) +contextual [hk]; done))

@[simp] theorem carveRead_keeps (z : State) (owner : Owner) (off : Nat) (s : State) (hk : Keeps z s) :
    Keeps z (carveRead owner off s) := by
  unfold carveRead
  (try dsimp only)
  repeat' (first | (simp (maxDischargeDepth := 30) [hk]; done) | split | (simp (maxDischargeDepth := 30) +contextual [hk]; done))

end Sys2Proof.Machine
end

