-- ==== Sys2Proof/Laws/Kept1.lean ====
section
/-! SUPPORT. What the operations keep: jobs and their placing. One lemma per operation. -/
namespace Sys2Proof.Machine
open Sys2Proof.Safety
set_option linter.unusedSimpArgs false

@[simp] theorem setJob_keeps (z : State) (i : Nat) (f : Job → Job) (s : State) (hk : Keeps z s) :
    Keeps z (setJob i f s) := by
  unfold setJob
  (try dsimp only)
  repeat' (first | (simp (maxDischargeDepth := 30) [hk]; done) | split | (simp (maxDischargeDepth := 30) +contextual [hk]; done))

@[simp] theorem ledger_keeps (z : State) (p : Nat) (f : LedgerCnt → LedgerCnt) (s : State) (hk : Keeps z s) :
    Keeps z (ledger p f s) := by
  unfold ledger
  (try dsimp only)
  repeat' (first | (simp (maxDischargeDepth := 30) [hk]; done) | split | (simp (maxDischargeDepth := 30) +contextual [hk]; done))

@[simp] theorem modPort_keeps (z : State) (p : Nat) (f : CPort → CPort) (s : State) (hk : Keeps z s) :
    Keeps z (modPort p f s) := by
  unfold modPort
  (try dsimp only)
  repeat' (first | (simp (maxDischargeDepth := 30) [hk]; done) | split | (simp (maxDischargeDepth := 30) +contextual [hk]; done))

@[simp] theorem toMerge_keeps (z : State) (i : Nat) (s : State) (hk : Keeps z s) :
    Keeps z (toMerge i s) := by
  unfold toMerge
  (try dsimp only)
  repeat' (first | (simp (maxDischargeDepth := 30) [hk]; done) | split | (simp (maxDischargeDepth := 30) +contextual [hk]; done))

@[simp] theorem startZero_keeps (z : State) (i : Nat) (s : State) (hk : Keeps z s) :
    Keeps z (startZero i s) := by
  unfold startZero
  (try dsimp only)
  repeat' (first | (simp (maxDischargeDepth := 30) [hk]; done) | split | (simp (maxDischargeDepth := 30) +contextual [hk]; done))

@[simp] theorem cancelWrites_keeps (z : State) (i : Nat) (s : State) (hk : Keeps z s) :
    Keeps z (cancelWrites i s) := by
  unfold cancelWrites
  (try dsimp only)
  repeat' (first | (simp (maxDischargeDepth := 30) [hk]; done) | split | (simp (maxDischargeDepth := 30) +contextual [hk]; done))

@[simp] theorem dropMessage_keeps (z : State) (h : Nat) (s : State) (hk : Keeps z s) :
    Keeps z (dropMessage h s) := by
  unfold dropMessage
  (try dsimp only)
  repeat' (first | (simp (maxDischargeDepth := 30) [hk]; done) | split | (simp (maxDischargeDepth := 30) +contextual [hk]; done))

@[simp] theorem loseMessage_keeps (z : State) (h : Nat) (s : State) (hk : Keeps z s) :
    Keeps z (loseMessage h s) := by
  unfold loseMessage
  (try dsimp only)
  repeat' (first | (simp (maxDischargeDepth := 30) [hk]; done) | split | (simp (maxDischargeDepth := 30) +contextual [hk]; done))

@[simp] theorem resumeJob_keeps (z : State) (x : Nat) (b : Job) (moved : Nat) (s : State) (hk : Keeps z s) :
    Keeps z (resumeJob x b moved s) := by
  unfold resumeJob
  (try dsimp only)
  repeat' (first | (simp (maxDischargeDepth := 30) [hk]; done) | split | (simp (maxDischargeDepth := 30) +contextual [hk]; done))

@[simp] theorem resumeUnder_keeps (z : State) (i : Nat) (j : Job) (s : State) (hk : Keeps z s) :
    Keeps z (resumeUnder i j s) := by
  unfold resumeUnder
  (try dsimp only)
  repeat' (first | (simp (maxDischargeDepth := 30) [hk]; done) | split | (simp (maxDischargeDepth := 30) +contextual [hk]; done))

@[simp] theorem losePart_keeps (z : State) (j : Job) (s : State) (hk : Keeps z s) :
    Keeps z (losePart j s) := by
  unfold losePart
  (try dsimp only)
  repeat' (first | (simp (maxDischargeDepth := 30) [hk]; done) | split | (simp (maxDischargeDepth := 30) +contextual [hk]; done))

@[simp] theorem leaveEngine_keeps (z : State) (i : Nat) (j : Job) (s : State) (hk : Keeps z s) :
    Keeps z (leaveEngine i j s) := by
  unfold leaveEngine
  (try dsimp only)
  repeat' (first | (simp (maxDischargeDepth := 30) [hk]; done) | split | (simp (maxDischargeDepth := 30) +contextual [hk]; done))

@[simp] theorem issueTags_keeps (z : State) (i n : Nat) (s : State) (hk : Keeps z s) :
    Keeps z (issueTags i n s) := by
  unfold issueTags
  (try dsimp only)
  repeat' (first | (simp (maxDischargeDepth := 30) [hk]; done) | split | (simp (maxDischargeDepth := 30) +contextual [hk]; done))

@[simp] theorem issueDue_keeps (z : State) (i : Nat) (s : State) (hk : Keeps z s) :
    Keeps z (issueDue i s) := by
  unfold issueDue
  (try dsimp only)
  repeat' (first | (simp (maxDischargeDepth := 30) [hk]; done) | split | (simp (maxDischargeDepth := 30) +contextual [hk]; done))

@[simp] theorem failJob_keeps (z : State) (i : Nat) (st : Status) (verdict : Nat) (s : State) (hk : Keeps z s) :
    Keeps z (failJob i st verdict s) := by
  unfold failJob
  (try dsimp only)
  repeat' (first | (simp (maxDischargeDepth := 30) [hk]; done) | split | (simp (maxDischargeDepth := 30) +contextual [hk]; done))

@[simp] theorem refuseJob_keeps (z : State) (i : Nat) (st : Status) (s : State) (hk : Keeps z s) :
    Keeps z (refuseJob i st s) := by
  unfold refuseJob
  (try dsimp only)
  repeat' (first | (simp (maxDischargeDepth := 30) [hk]; done) | split | (simp (maxDischargeDepth := 30) +contextual [hk]; done))

@[simp] theorem modSession_keeps (z : State) (ix : Nat) (f : Session → Session) (s : State) (hk : Keeps z s) :
    Keeps z (modSession ix f s) := by
  unfold modSession
  (try dsimp only)
  repeat' (first | (simp (maxDischargeDepth := 30) [hk]; done) | split | (simp (maxDischargeDepth := 30) +contextual [hk]; done))

@[simp] theorem raiseCeiling_keeps (z : State) (ix : Nat) (s : State) (hk : Keeps z s) :
    Keeps z (raiseCeiling ix s) := by
  unfold raiseCeiling
  (try dsimp only)
  repeat' (first | (simp (maxDischargeDepth := 30) [hk]; done) | split | (simp (maxDischargeDepth := 30) +contextual [hk]; done))

@[simp] theorem takeCounter_keeps (z : State) (ix : Nat) (s : State) (hk : Keeps z s) :
    Keeps z (takeCounter ix s) := by
  unfold takeCounter
  (try dsimp only)
  repeat' (first | (simp (maxDischargeDepth := 30) [hk]; done) | split | (simp (maxDischargeDepth := 30) +contextual [hk]; done))

@[simp] theorem drawFrom_keeps (z : State) (s : State) (r : Session) (hk : Keeps z s) :
    Keeps z (drawFrom s r) := by
  unfold drawFrom
  (try dsimp only)
  repeat' (first | (simp (maxDischargeDepth := 30) [hk]; done) | split | (simp (maxDischargeDepth := 30) +contextual [hk]; done))

@[simp] theorem issueInputs_keeps (z : State) (i : Nat) (s : State) (hk : Keeps z s) :
    Keeps z (issueInputs i s) := by
  unfold issueInputs
  (try dsimp only)
  repeat' (first | (simp (maxDischargeDepth := 30) [hk]; done) | split | (simp (maxDischargeDepth := 30) +contextual [hk]; done))

@[simp] theorem takePart_keeps (z : State) (r : Session) (j : Job) (unit : Nat) (s : State) (hk : Keeps z s) :
    Keeps z (takePart r j unit s) := by
  unfold takePart
  (try dsimp only)
  repeat' (first | (simp (maxDischargeDepth := 30) [hk]; done) | split | (simp (maxDischargeDepth := 30) +contextual [hk]; done))

@[simp] theorem settlePart_keeps (z : State) (r : Session) (j : Job) (unit : Nat) (s : State) (hk : Keeps z s) :
    Keeps z (settlePart r j unit s) := by
  unfold settlePart
  (try dsimp only)
  repeat' (first | (simp (maxDischargeDepth := 30) [hk]; done) | split | (simp (maxDischargeDepth := 30) +contextual [hk]; done))

@[simp] theorem commitJob_keeps (z : State) (i : Nat) (r : Session) (p : Place) (later : Bool) (s : State) (hk : Keeps z s) :
    Keeps z (commitJob i r p later s) := by
  unfold commitJob
  split
  · exact hk
  · extract_lets j pr sl ctr inv e n s1 g s2 s3 s5 s6 s7 s8
    have k1 : Keeps z s1 := by
      refine setJob_keeps _ _ _ _ ?_
      exact useFree_keeps _ _ _ hk
    have k2 : Keeps z s2 := Keeps.trans k1 ⟨rfl, rfl, rfl, rfl, id, id, leasesSound_moveClears _ _⟩
    have k3 : Keeps z s3 := by
      show Keeps z (match p.susp with | some x => _ | none => _)
      split
      · exact k2
      · exact k2
    have k5 : Keeps z s5 := drawFrom_keeps _ _ _ k3
    have k6 : Keeps z s6 := keeps_ite _ _ _ _ (takeCounter_keeps _ _ _ k5) k5
    have k7 : Keeps z s7 := keeps_ite _ _ _ _ (settlePart_keeps _ _ _ _ _ k6) (takePart_keeps _ _ _ _ _ k6)
    have k8 : Keeps z s8 := ledger_keeps _ _ _ _ (modPort_keeps _ _ _ _ k7)
    exact keeps_ite _ _ _ _ k8 (issueInputs_keeps _ _ _ k8)

@[simp] theorem holdJob_keeps (z : State) (i : Nat) (r : Session) (p : Place) (tok : Nat) (c : Nat × Nat) (later : Bool) (s : State) (hk : Keeps z s) :
    Keeps z (holdJob i r p tok c later s) := by
  unfold holdJob
  (try dsimp only)
  repeat' (first | (simp (maxDischargeDepth := 30) [hk]; done) | split | (simp (maxDischargeDepth := 30) +contextual [hk]; done))

@[simp] theorem abortLink_keeps (z : State) (i : Nat) (st : Status) (first : Bool) (s : State) (hk : Keeps z s) :
    Keeps z (abortLink i st first s) := by
  unfold abortLink
  (try dsimp only)
  repeat' (first | (simp (maxDischargeDepth := 30) [hk]; done) | split | (simp (maxDischargeDepth := 30) +contextual [hk]; done))

@[simp] theorem markExhausted_keeps (z : State) (j : Job) (st : Status) (s : State) (hk : Keeps z s) :
    Keeps z (markExhausted j st s) := by
  unfold markExhausted
  (try dsimp only)
  repeat' (first | (simp (maxDischargeDepth := 30) [hk]; done) | split | (simp (maxDischargeDepth := 30) +contextual [hk]; done))

@[simp] theorem keeps_ite_fst {α : Type} (c : Prop) [Decidable c] (s : State) (a b : State × α) (ha : Keeps s a.1) (hb : Keeps s b.1) :
    Keeps s (if c then a else b).1 := by
  split <;> assumption
@[simp] theorem admitChecked_keeps (z : State) (i t : Nat) (later : Bool) (r : Session) (j : Job) (s : State) (hk : Keeps z s) :
    Keeps z (admitChecked i t later r j s).1 := by
  have h1 : ∀ st w, Keeps z w → Keeps z (abortLink i st (!later) w) := fun st w hw => abortLink_keeps _ _ _ _ _ hw
  unfold admitChecked
  extract_lets st p0 c tok
  refine keeps_ite_fst _ _ _ _ (h1 _ _ (markExhausted_keeps _ _ _ _ hk)) (keeps_ite_fst _ _ _ _ (h1 _ _ hk) (keeps_ite_fst _ _ _ _ (h1 _ _ hk) ?_))
  split
  · exact hk
  · extract_lets pr
    split
    · exact h1 _ _ hk
    · exact setJob_keeps _ _ _ _ hk
    · refine keeps_ite_fst _ _ _ _ ?_ ?_
      · exact holdJob_keeps _ _ _ _ _ _ _ _ (modPort_keeps _ _ _ _ (setJob_keeps _ _ _ _ hk))
      · exact commitJob_keeps _ _ _ _ _ _ (modPort_keeps _ _ _ _ (setJob_keeps _ _ _ _ hk))

@[simp] theorem admitJob_keeps (z : State) (i t : Nat) (later : Bool) (s : State) (hk : Keeps z s) :
    Keeps z (admitJob i t later s).1 := by
  have h1 : ∀ st w, Keeps z w → Keeps z (abortLink i st (!later) w) := fun st w hw => abortLink_keeps _ _ _ _ _ hw
  unfold admitJob
  dsimp only
  repeat' split
  all_goals first | exact hk | exact h1 _ _ hk | exact admitChecked_keeps _ _ _ _ _ _ _ hk

@[simp] theorem admitLinks_keeps (z : State) (l : List Nat) (t : Nat) (first dead : Bool) (s : State) (hk : Keeps z s) :
    Keeps z (admitLinks l t first dead s) := by
  induction l generalizing t first dead s with
  | nil => exact hk
  | cons i r ih =>
    unfold admitLinks
    dsimp only
    repeat' split
    all_goals apply ih
    all_goals first | exact hk | simp (maxDischargeDepth := 30) [hk] | skip
    all_goals exact admitJob_keeps z i t _ s hk

@[simp] theorem needleOne_keeps (z : State) (s : State) (hk : Keeps z s) :
    Keeps z (needleOne s) := by
  unfold needleOne
  (try dsimp only)
  repeat' (first | (simp (maxDischargeDepth := 30) [hk]; done) | split | (simp (maxDischargeDepth := 30) +contextual [hk]; done))

end Sys2Proof.Machine
end

