-- ==== Sys2Proof/Laws/Kept2.lean ====
section
/-! SUPPORT. What the operations keep: epochs, time and the flags. One lemma per operation. -/
namespace Sys2Proof.Machine
open Sys2Proof.Safety
set_option linter.unusedSimpArgs false

@[simp] theorem nvmQueue_keeps (z : State) (o : NvmOp) (s : State) (hk : Keeps z s) :
    Keeps z (nvmQueue o s) := by
  unfold nvmQueue
  (try dsimp only)
  repeat' (first | (simp (maxDischargeDepth := 30) [hk]; done) | split | (simp (maxDischargeDepth := 30) +contextual [hk]; done))

@[simp] theorem writeSlot_keeps (z : State) (n : Nat) (sl : Slot) (s : State) (hk : Keeps z s) :
    Keeps z (writeSlot n sl s) := by
  unfold writeSlot
  (try dsimp only)
  repeat' (first | (simp (maxDischargeDepth := 30) [hk]; done) | split | (simp (maxDischargeDepth := 30) +contextual [hk]; done))

@[simp] theorem slotUsed_keeps (z : State) (port h : Nat) (s : State) (hk : Keeps z s) :
    Keeps z (slotUsed port h s) := by
  unfold slotUsed
  (try dsimp only)
  repeat' (first | (simp (maxDischargeDepth := 30) [hk]; done) | split | (simp (maxDischargeDepth := 30) +contextual [hk]; done))

@[simp] theorem checkSlots_keeps (z : State) (s : State) (hk : Keeps z s) :
    Keeps z (checkSlots s) := by
  unfold checkSlots
  (try dsimp only)
  repeat' (first | (simp (maxDischargeDepth := 30) [hk]; done) | split | (simp (maxDischargeDepth := 30) +contextual [hk]; done))

@[simp] theorem freeSlotNow_keeps (z : State) (n : Nat) (s : State) (hk : Keeps z s) :
    Keeps z (freeSlotNow n s) := by
  unfold freeSlotNow
  (try dsimp only)
  repeat' (first | (simp (maxDischargeDepth := 30) [hk]; done) | split | (simp (maxDischargeDepth := 30) +contextual [hk]; done))

@[simp] theorem releaseToken_keeps (z : State) (s : State) (hk : Keeps z s) :
    Keeps z (releaseToken s) := by
  unfold releaseToken
  (try dsimp only)
  repeat' (first | (simp (maxDischargeDepth := 30) [hk]; done) | split | (simp (maxDischargeDepth := 30) +contextual [hk]; done))

@[simp] theorem raiseEpochCeiling_keeps (z : State) (id k : Nat) (s : State) (hk : Keeps z s) :
    Keeps z (raiseEpochCeiling id k s) := by
  unfold raiseEpochCeiling
  (try dsimp only)
  repeat' (first | (simp (maxDischargeDepth := 30) [hk]; done) | split | (simp (maxDischargeDepth := 30) +contextual [hk]; done))

@[simp] theorem pushBank_keeps (z : State) (b : Bank) (s : State) (hk : Keeps z s) :
    Keeps z (pushBank b s) := by
  unfold pushBank
  (try dsimp only)
  repeat' (first | (simp (maxDischargeDepth := 30) [hk]; done) | split | (simp (maxDischargeDepth := 30) +contextual [hk]; done))

@[simp] theorem closeAcct_keeps (z : State) (s : State) (hk : Keeps z s) :
    Keeps z (closeAcct s) := by
  unfold closeAcct
  (try dsimp only)
  repeat' (first | (simp (maxDischargeDepth := 30) [hk]; done) | split | (simp (maxDischargeDepth := 30) +contextual [hk]; done))

@[simp] theorem dropDead_keeps (z : State) (s : State) (hk : Keeps z s) :
    Keeps z (dropDead s) := by
  unfold dropDead
  (try dsimp only)
  repeat' (first | (simp (maxDischargeDepth := 30) [hk]; done) | split | (simp (maxDischargeDepth := 30) +contextual [hk]; done))

@[simp] theorem revokeKeys_keeps (z : State) (first last : Nat) (s : State) (hk : Keeps z s) :
    Keeps z (revokeKeys first last s) := by
  unfold revokeKeys
  (try dsimp only)
  repeat' (first | (simp (maxDischargeDepth := 30) [hk]; done) | split | (simp (maxDischargeDepth := 30) +contextual [hk]; done))

@[simp] theorem closeKey_keeps (z : State) (s : State) (hk : Keeps z s) :
    Keeps z (closeKey s) := by
  unfold closeKey
  (try dsimp only)
  repeat' (first | (simp (maxDischargeDepth := 30) [hk]; done) | split | (simp (maxDischargeDepth := 30) +contextual [hk]; done))

@[simp] theorem writeBanks_keeps (z : State) (fuel : Nat) (s : State) (hk : Keeps z s) :
    Keeps z (writeBanks fuel s) := by
  induction fuel generalizing s with
  | zero => exact hk
  | succ n ih =>
    unfold writeBanks
    split
    · exact hk
    · exact hk
    · rename_i h _
      cases h
      dsimp only
      split
      · exact ih _ (by simp (maxDischargeDepth := 30) [hk])
      · simp (maxDischargeDepth := 30) [hk]

@[simp] theorem partialClose_keeps (z : State) (s : State) (hk : Keeps z s) :
    Keeps z (partialClose s) := by
  unfold partialClose
  (try dsimp only)
  repeat' (first | (simp (maxDischargeDepth := 30) [hk]; done) | split | (simp (maxDischargeDepth := 30) +contextual [hk]; done))

theorem onTime_keeps (z : State) (f : Tim → Tim) (s : State) (hk : Keeps z s) :
    Keeps { z with tim := (onTime f s).tim } (onTime f s) := by
  have key : ∀ t : State, (Kept z t.pending t.fuse t.clk.now z.tim.e t.flt t.baton t.eng.leases) → Keeps { z with tim := t.tim } t :=
    fun t h => ⟨h.1, h.2.1, h.2.2.1, rfl, h.2.2.2.2.1, h.2.2.2.2.2.1, h.2.2.2.2.2.2⟩
  apply key
  have zk : ∀ (w : Tim) (t : State), Keeps { z with tim := w } t → Kept z t.pending t.fuse t.clk.now z.tim.e t.flt t.baton t.eng.leases :=
    fun w t h => ⟨h.1, h.2.1, h.2.2.1, rfl, h.2.2.2.2.1, h.2.2.2.2.2.1, h.2.2.2.2.2.2⟩
  unfold onTime
  dsimp only
  split
  · split
    · exact zk (f s.tim) _ (by
        apply closeKey_keeps
        apply closeAcct_keeps
        exact ⟨hk.1, hk.2.1, hk.2.2.1, rfl, hk.2.2.2.2.1, hk.2.2.2.2.2.1, hk.2.2.2.2.2.2⟩)
    · exact ⟨hk.1, hk.2.1, hk.2.2.1, rfl, hk.2.2.2.2.1, hk.2.2.2.2.2.1, hk.2.2.2.2.2.2⟩
  · exact ⟨hk.1, hk.2.1, hk.2.2.1, rfl, hk.2.2.2.2.1, hk.2.2.2.2.2.1, hk.2.2.2.2.2.2⟩

@[simp] theorem refreshXoff_keeps (z : State) (s : State) (hk : Keeps z s) :
    Keeps z (refreshXoff s) := by
  unfold refreshXoff
  (try dsimp only)
  repeat' (first | (simp (maxDischargeDepth := 30) [hk]; done) | split | (simp (maxDischargeDepth := 30) +contextual [hk]; done))

@[simp] theorem startComplete_keeps (z : State) (s : State) (hk : Keeps z s) :
    Keeps z (startComplete s) := by
  unfold startComplete
  (try dsimp only)
  repeat' (first | (simp (maxDischargeDepth := 30) [hk]; done) | split | (simp (maxDischargeDepth := 30) +contextual [hk]; done))

@[simp] theorem trackIdle_keeps (z : State) (s : State) (hk : Keeps z s) :
    Keeps z (trackIdle s) := by
  unfold trackIdle
  (try dsimp only)
  repeat' (first | (simp (maxDischargeDepth := 30) [hk]; done) | split | (simp (maxDischargeDepth := 30) +contextual [hk]; done))

end Sys2Proof.Machine
end

