-- ==== Sys2Proof/Laws/Kept3.lean ====
section
/-! SUPPORT. What the operations keep: the control path, registers and doorbells. One lemma per operation. -/
namespace Sys2Proof.Machine
open Sys2Proof.Safety
set_option linter.unusedSimpArgs false

@[simp] theorem adminFetch_keeps (z : State) (s : State) (hk : Keeps z s) :
    Keeps z (adminFetch s) := by
  unfold adminFetch
  (try dsimp only)
  repeat' (first | (simp (maxDischargeDepth := 30) [hk]; done) | split | (simp (maxDischargeDepth := 30) +contextual [hk]; done))

@[simp] theorem haltAdmin_keeps (z : State) (s : State) (hk : Keeps z s) :
    Keeps z (haltAdmin s) := by
  unfold haltAdmin
  (try dsimp only)
  repeat' (first | (simp (maxDischargeDepth := 30) [hk]; done) | split | (simp (maxDischargeDepth := 30) +contextual [hk]; done))

@[simp] theorem adminReset_keeps (z : State) (s : State) (hk : Keeps z s) :
    Keeps z (adminReset s) := by
  unfold adminReset
  (try dsimp only)
  repeat' (first | (simp (maxDischargeDepth := 30) [hk]; done) | split | (simp (maxDischargeDepth := 30) +contextual [hk]; done))

@[simp] theorem readFailHalt_keeps (z : State) (s : State) (hk : Keeps z s) :
    Keeps z (readFailHalt s) := by
  unfold readFailHalt
  (try dsimp only)
  repeat' (first | (simp (maxDischargeDepth := 30) [hk]; done) | split | (simp (maxDischargeDepth := 30) +contextual [hk]; done))

@[simp] theorem revokeJob_keeps (z : State) (q : Nat) (s : State) (hk : Keeps z s) :
    Keeps z (revokeJob q s) := by
  unfold revokeJob
  (try dsimp only)
  repeat' (first | (simp (maxDischargeDepth := 30) [hk]; done) | split | (simp (maxDischargeDepth := 30) +contextual [hk]; done))

@[simp] theorem setFence_keeps (z : State) (e : CmdEntry) (obj : FenceObj) (payload : Bytes) (s : State) (hk : Keeps z s) :
    Keeps z (setFence e obj payload s) := by
  unfold setFence
  (try dsimp only)
  repeat' (first | (simp (maxDischargeDepth := 30) [hk]; done) | split | (simp (maxDischargeDepth := 30) +contextual [hk]; done))

@[simp] theorem settleQueues_keeps (z : State) (s : State) (hk : Keeps z s) : Keeps z (settleQueues s) :=
  Keeps.trans hk ⟨rfl, rfl, rfl, rfl, id, id, leasesSound_moveClears _ _⟩

theorem tget_mem {α : Type} (t : Tbl α) (k : Nat) (v : α) (h : tget t k = some v) : (k, v) ∈ t := by
  induction t with
  | nil => cases h
  | cons e r ih =>
    unfold tget at h
    split at h
    · rename_i hk
      cases h
      subst hk
      exact List.mem_cons_self
    · exact List.mem_cons_of_mem _ (ih h)
theorem leaseAt_mem (s : State) (wid ix : Nat) (l : Lease) (hl : leaseAt s wid = some (ix, l)) : (ix, l) ∈ s.eng.leases := by
  unfold leaseAt at hl
  generalize hq : tget s.eng.leases (wid % 512) = q at hl
  cases q with
  | none => cases hl
  | some x =>
    cases hl
    exact tget_mem _ _ _ hq
@[simp] theorem commitLoad_keeps (z : State) (i : Nat) (s : State) (hk : Keeps z s) : Keeps z (commitLoad i s) := by
  unfold commitLoad
  repeat' split
  all_goals try exact hk
  rename_i h
  apply setJob_keeps
  refine kept_leases z s _ hk ?_
  exact fun hs => leasesSound_tput _ _ _ (Memory_writeBytes_wf _ _ _ (hs _ (leaseAt_mem _ _ _ _ h))) hs

@[simp] theorem openCtx_keeps (z : State) (j : Job) (s : State) (hk : Keeps z s) :
    Keeps z (openCtx j s) := by
  unfold openCtx
  (try dsimp only)
  repeat' (first | (simp (maxDischargeDepth := 30) [hk]; done) | split | (simp (maxDischargeDepth := 30) +contextual [hk]; done))

@[simp] theorem beginJob_keeps (z : State) (i : Nat) (j : Job) (r : Session) (s : State) (hk : Keeps z s) :
    Keeps z (beginJob i j r s) := by
  unfold beginJob
  (try dsimp only)
  repeat' (first | (simp (maxDischargeDepth := 30) [hk]; done) | split | (simp (maxDischargeDepth := 30) +contextual [hk]; done))

@[simp] theorem beginGo_keeps (z : State) (fuel : Nat) (s : State) (hk : Keeps z s) : Keeps z (beginGo fuel s) := by
  induction fuel generalizing s with
  | zero => exact hk
  | succ n ih =>
    unfold beginGo
    repeat' split
    all_goals first | exact hk | exact ih _ (beginJob_keeps _ _ _ _ _ hk)

@[simp] theorem startDue_keeps (z : State) (s : State) (hk : Keeps z s) :
    Keeps z (startDue s) := by
  unfold startDue
  (try dsimp only)
  repeat' (first | (simp (maxDischargeDepth := 30) [hk]; done) | split | (simp (maxDischargeDepth := 30) +contextual [hk]; done))

@[simp] theorem stallJob_keeps (z : State) (i need : Nat) (s : State) (hk : Keeps z s) :
    Keeps z (stallJob i need s) := by
  unfold stallJob
  (try dsimp only)
  repeat' (first | (simp (maxDischargeDepth := 30) [hk]; done) | split | (simp (maxDischargeDepth := 30) +contextual [hk]; done))

@[simp] theorem rejectBell_keeps (z : State) (page off : Nat) (event : Bool) (s : State) (hk : Keeps z s) :
    Keeps z (rejectBell page off event s) := by
  unfold rejectBell
  (try dsimp only)
  repeat' (first | (simp (maxDischargeDepth := 30) [hk]; done) | split | (simp (maxDischargeDepth := 30) +contextual [hk]; done))

@[simp] theorem acceptTail_keeps (z : State) (id tail at_ : Nat) (r : Ring) (s : State) (hk : Keeps z s) :
    Keeps z (acceptTail id tail at_ r s) := by
  unfold acceptTail
  (try dsimp only)
  repeat' (first | (simp (maxDischargeDepth := 30) [hk]; done) | split | (simp (maxDischargeDepth := 30) +contextual [hk]; done))

@[simp] theorem acceptHead_keeps (z : State) (page off id head : Nat) (r : Ring) (s : State) (hk : Keeps z s) :
    Keeps z (acceptHead page off id head r s) := by
  unfold acceptHead
  (try dsimp only)
  repeat' (first | (simp (maxDischargeDepth := 30) [hk]; done) | split | (simp (maxDischargeDepth := 30) +contextual [hk]; done))

@[simp] theorem directBell_keeps (z : State) (b : Bell) (s : State) (hk : Keeps z s) :
    Keeps z (directBell b s) := by
  unfold directBell
  (try dsimp only)
  repeat' (first | (simp (maxDischargeDepth := 30) [hk]; done) | split | (simp (maxDischargeDepth := 30) +contextual [hk]; done))

@[simp] theorem indirectBell_keeps (z : State) (b : Bell) (s : State) (hk : Keeps z s) :
    Keeps z (indirectBell b s) := by
  unfold indirectBell
  (try dsimp only)
  repeat' (first | (simp (maxDischargeDepth := 30) [hk]; done) | split | (simp (maxDischargeDepth := 30) +contextual [hk]; done))

@[simp] theorem ringBell_keeps (z : State) (b : Bell) (s : State) (hk : Keeps z s) : Keeps z (ringBell b s) := by
  unfold ringBell
  dsimp only
  refine keeps_ite _ _ _ _ ?_ (keeps_ite _ _ _ _ ?_ ?_)
  all_goals simp (maxDischargeDepth := 30) [hk]

@[simp] theorem presentBell_keeps (z : State) (wide : Bool) (b : Bell) (s : State) (hk : Keeps z s) :
    Keeps z (presentBell wide b s) := by
  unfold presentBell
  (try dsimp only)
  repeat' (first | (simp (maxDischargeDepth := 30) [hk]; done) | split | (simp (maxDischargeDepth := 30) +contextual [hk]; done))

@[simp] theorem replayPorch_keeps (z : State) (s : State) (hk : Keeps z s) :
    Keeps z (replayPorch s) := by
  unfold replayPorch
  (try dsimp only)
  repeat' (first | (simp (maxDischargeDepth := 30) [hk]; done) | split | (simp (maxDischargeDepth := 30) +contextual [hk]; done))

@[simp] theorem heldBells_keeps (z : State) (s : State) (hk : Keeps z s) :
    Keeps z (heldBells s) := by
  unfold heldBells
  (try dsimp only)
  repeat' (first | (simp (maxDischargeDepth := 30) [hk]; done) | split | (simp (maxDischargeDepth := 30) +contextual [hk]; done))

@[simp] theorem p1Work_keeps (z : State) (work : Bool) (s : State) (hk : Keeps z s) :
    Keeps z (p1Work work s) := by
  unfold p1Work
  (try dsimp only)
  repeat' (first | (simp (maxDischargeDepth := 30) [hk]; done) | split | (simp (maxDischargeDepth := 30) +contextual [hk]; done))

@[simp] theorem startIdop_keeps (z : State) (s : State) (hk : Keeps z s) :
    Keeps z (startIdop s) := by
  unfold startIdop
  (try dsimp only)
  repeat' (first | (simp (maxDischargeDepth := 30) [hk]; done) | split | (simp (maxDischargeDepth := 30) +contextual [hk]; done))

@[simp] theorem syncResume_keeps (z : State) (s : State) (hk : Keeps z s) :
    Keeps z (syncResume s) := by
  unfold syncResume
  (try dsimp only)
  repeat' (first | (simp (maxDischargeDepth := 30) [hk]; done) | split | (simp (maxDischargeDepth := 30) +contextual [hk]; done))

@[simp] theorem writeGlb_keeps (z : State) (off : Nat) (m d : BitVec 64) (s : State) (hk : Keeps z s) :
    Keeps z (writeGlb off m d s) := by
  unfold writeGlb
  (try dsimp only)
  repeat' (first | (simp (maxDischargeDepth := 30) [hk]; done) | split | (simp (maxDischargeDepth := 30) +contextual [hk]; done))

@[simp] theorem writeCmd_keeps (z : State) (off : Nat) (m d : BitVec 64) (s : State) (hk : Keeps z s) :
    Keeps z (writeCmd off m d s) := by
  unfold writeCmd
  (try dsimp only)
  repeat' (first | (simp (maxDischargeDepth := 30) [hk]; done) | split | (simp (maxDischargeDepth := 30) +contextual [hk]; done))

@[simp] theorem writeSel_keeps (z : State) (off : Nat) (m d : BitVec 64) (s : State) (hk : Keeps z s) :
    Keeps z (writeSel off m d s) := by
  unfold writeSel
  (try dsimp only)
  repeat' (first | (simp (maxDischargeDepth := 30) [hk]; done) | split | (simp (maxDischargeDepth := 30) +contextual [hk]; done))

@[simp] theorem writeRest_keeps (z : State) (off : Nat) (m d : BitVec 64) (s : State) (hk : Keeps z s) : Keeps z (writeRest off m d s) := by
  refine hk.trans ?_
  fun_cases writeRest
  all_goals first
    | exact keeps_refl _
    | exact ⟨rfl, rfl, rfl, rfl, faultsSound_of _ _ rfl rfl rfl rfl, id, id⟩

@[simp] theorem writeServed_keeps (z : State) (off : Nat) (m d : BitVec 64) (s : State) (hk : Keeps z s) :
    Keeps z (writeServed off m d s) := by
  unfold writeServed
  (try dsimp only)
  repeat' (first | (simp (maxDischargeDepth := 30) [hk]; done) | split | (simp (maxDischargeDepth := 30) +contextual [hk]; done))

@[simp] theorem writeReg_keeps (z : State) (off : Nat) (l : Lanes) (d : Word) (s : State) (hk : Keeps z s) :
    Keeps z (writeReg off l d s) := by
  unfold writeReg
  (try dsimp only)
  repeat' (first | (simp (maxDischargeDepth := 30) [hk]; done) | split | (simp (maxDischargeDepth := 30) +contextual [hk]; done))

@[simp] theorem clearRead_keeps (z : State) (off : Nat) (m : BitVec 64) (s : State) (hk : Keeps z s) : Keeps z (clearRead off m s) := by
  refine hk.trans ?_
  fun_cases clearRead
  all_goals first
    | exact keeps_refl _
    | exact ⟨rfl, rfl, rfl, rfl, id, fun h => h, id⟩
    | exact ⟨rfl, rfl, rfl, rfl, faultsSound_of _ _ rfl rfl rfl rfl, id, id⟩
    | exact ⟨rfl, rfl, rfl, rfl, fun h => ⟨by
        have := h.1
        unfold QueueSound at *
        rw [List.map_drop]
        exact this.sublist (List.drop_sublist _ _), h.2⟩, id, id⟩
    | (rw [if_pos (by assumption)]; exact ⟨rfl, rfl, rfl, rfl, id, id, id⟩)
    | (rw [if_neg (by assumption)]; exact keeps_refl _)

@[simp] theorem captureRead_keeps (z : State) (off : Nat) (m : BitVec 64) (s : State) (hk : Keeps z s) : Keeps z (captureRead off m s) := by
  refine hk.trans ?_
  unfold captureRead
  split
  · exact ⟨rfl, rfl, rfl, rfl, id, id, id⟩
  · exact keeps_refl _

@[simp] theorem readServed_keeps (z : State) (off : Nat) (m : BitVec 64) (s : State) (hk : Keeps z s) :
    Keeps z (readServed off m s) := by
  unfold readServed
  (try dsimp only)
  repeat' (first | (simp (maxDischargeDepth := 30) [hk]; done) | split | (simp (maxDischargeDepth := 30) +contextual [hk]; done))

@[simp] theorem readReg_keeps (z : State) (off : Nat) (l : Lanes) (s : State) (hk : Keeps z s) :
    Keeps z (readReg off l s) := by
  unfold readReg
  (try dsimp only)
  repeat' (first | (simp (maxDischargeDepth := 30) [hk]; done) | split | (simp (maxDischargeDepth := 30) +contextual [hk]; done))

@[simp] theorem crpDo_keeps (z : State) (a : CrpAccess) (s : State) (hk : Keeps z s) :
    Keeps z (crpDo a s) := by
  unfold crpDo
  (try dsimp only)
  repeat' (first | (simp (maxDischargeDepth := 30) [hk]; done) | split | (simp (maxDischargeDepth := 30) +contextual [hk]; done))

@[simp] theorem crpPresent_keeps (z : State) (a : CrpAccess) (s : State) (hk : Keeps z s) :
    Keeps z (crpPresent a s) := by
  unfold crpPresent
  (try dsimp only)
  repeat' (first | (simp (maxDischargeDepth := 30) [hk]; done) | split | (simp (maxDischargeDepth := 30) +contextual [hk]; done))

@[simp] theorem crpAccept_keeps (z : State) (s : State) (hk : Keeps z s) :
    Keeps z (crpAccept s) := by
  unfold crpAccept
  (try dsimp only)
  repeat' (first | (simp (maxDischargeDepth := 30) [hk]; done) | split | (simp (maxDischargeDepth := 30) +contextual [hk]; done))

@[simp] theorem crpPin_keeps (z : State) (a : CrpAccess) (s : State) (hk : Keeps z s) :
    Keeps z (crpPin a s) := by
  unfold crpPin
  (try dsimp only)
  repeat' (first | (simp (maxDischargeDepth := 30) [hk]; done) | split | (simp (maxDischargeDepth := 30) +contextual [hk]; done))

@[simp] theorem pinWrite_keeps (z : State) (off : Nat) (l : Lanes) (d : Word) (s : State) (hk : Keeps z s) :
    Keeps z (pinWrite off l d s) := by
  unfold pinWrite
  (try dsimp only)
  repeat' (first | (simp (maxDischargeDepth := 30) [hk]; done) | split | (simp (maxDischargeDepth := 30) +contextual [hk]; done))

@[simp] theorem pinRead_keeps (z : State) (off : Nat) (l : Lanes) (s : State) (hk : Keeps z s) :
    Keeps z (pinRead off l s) := by
  unfold pinRead
  (try dsimp only)
  repeat' (first | (simp (maxDischargeDepth := 30) [hk]; done) | split | (simp (maxDischargeDepth := 30) +contextual [hk]; done))

end Sys2Proof.Machine
end

