-- ==== Sys2Proof/Laws/Kept4.lean ====
section
/-! SUPPORT. What the operations keep: Skein, posting, delivery and the fabric ports. One lemma per operation. -/
namespace Sys2Proof.Machine
open Sys2Proof.Safety
set_option linter.unusedSimpArgs false

@[simp] theorem loseAllMessages_keeps (z : State) (s : State) (hk : Keeps z s) :
    Keeps z (loseAllMessages s) := by
  unfold loseAllMessages
  (try dsimp only)
  repeat' (first | (simp (maxDischargeDepth := 30) [hk]; done) | split | (simp (maxDischargeDepth := 30) +contextual [hk]; done))

@[simp] theorem zeroKeyContexts_keeps (z : State) (h : Nat) (s : State) (hk : Keeps z s) :
    Keeps z (zeroKeyContexts h s) := by
  unfold zeroKeyContexts
  (try dsimp only)
  repeat' (first | (simp (maxDischargeDepth := 30) [hk]; done) | split | (simp (maxDischargeDepth := 30) +contextual [hk]; done))

@[simp] theorem retireHandle_keeps (z : State) (n : Nat) (s : State) (hk : Keeps z s) :
    Keeps z (retireHandle n s) := by
  unfold retireHandle
  (try dsimp only)
  repeat' (first | (simp (maxDischargeDepth := 30) [hk]; done) | split | (simp (maxDischargeDepth := 30) +contextual [hk]; done))

@[simp] theorem destroyKey_keeps (z : State) (h : Nat) (s : State) (hk : Keeps z s) :
    Keeps z (destroyKey h s) := by
  unfold destroyKey
  (try dsimp only)
  repeat' (first | (simp (maxDischargeDepth := 30) [hk]; done) | split | (simp (maxDischargeDepth := 30) +contextual [hk]; done))

@[simp] theorem endLease_keeps (z : State) (ix : Nat) (s : State) (hk : Keeps z s) : Keeps z (endLease ix s) := by
  unfold endLease
  split
  · exact hk
  · exact kept_leases z s _ hk (fun h => leasesSound_filter _ _ h)

@[simp] theorem zeroLease_keeps (z : State) (ix : Nat) (s : State) (hk : Keeps z s) : Keeps z (zeroLease ix s) := by
  unfold zeroLease
  split
  · exact hk
  · rename_i l hl
    split
    · exact hk
    · extract_lets stop s1
      have k : ∀ q : Option Nat, Keeps s (match q with
          | some cid => setEntry cid (fun x => { x with phase := 9, work := [ix] }) s
          | none => s) := fun q => by
        cases q with
        | none => exact keeps_refl _
        | some cid => exact setEntry_keeps _ _ _ _ (keeps_refl _)
      have k1 : Keeps s s1 := k _
      refine Keeps.trans hk ?_
      refine ⟨k1.1, k1.2.1, k1.2.2.1, k1.2.2.2.1, k1.2.2.2.2.1, k1.2.2.2.2.2.1, fun h => ?_⟩
      exact leasesSound_tput _ _ _ (h _ (tget_mem _ _ _ hl)) (k1.2.2.2.2.2.2 h)

@[simp] theorem releaseLeases_keeps (z : State) (p : Lease → Bool) (s : State) (hk : Keeps z s) :
    Keeps z (releaseLeases p s) := by
  unfold releaseLeases
  (try dsimp only)
  repeat' (first | (simp (maxDischargeDepth := 30) [hk]; done) | split | (simp (maxDischargeDepth := 30) +contextual [hk]; done))

@[simp] theorem retireSession_keeps (z : State) (ix : Nat) (s : State) (hk : Keeps z s) :
    Keeps z (retireSession ix s) := by
  unfold retireSession
  (try dsimp only)
  repeat' (first | (simp (maxDischargeDepth := 30) [hk]; done) | split | (simp (maxDischargeDepth := 30) +contextual [hk]; done))

@[simp] theorem destroySession_keeps (z : State) (h : Nat) (s : State) (hk : Keeps z s) :
    Keeps z (destroySession h s) := by
  unfold destroySession
  (try dsimp only)
  repeat' (first | (simp (maxDischargeDepth := 30) [hk]; done) | split | (simp (maxDischargeDepth := 30) +contextual [hk]; done))

@[simp] theorem failSession_keeps (z : State) (ix : Nat) (s : State) (hk : Keeps z s) :
    Keeps z (failSession ix s) := by
  unfold failSession
  (try dsimp only)
  repeat' (first | (simp (maxDischargeDepth := 30) [hk]; done) | split | (simp (maxDischargeDepth := 30) +contextual [hk]; done))

@[simp] theorem refuseLeft_keeps (z : State) (p : Job → Bool) (s : State) (hk : Keeps z s) :
    Keeps z (refuseLeft p s) := by
  unfold refuseLeft
  (try dsimp only)
  repeat' (first | (simp (maxDischargeDepth := 30) [hk]; done) | split | (simp (maxDischargeDepth := 30) +contextual [hk]; done))

@[simp] theorem dropUnposted_keeps (z : State) (id : Nat) (s : State) (hk : Keeps z s) :
    Keeps z (dropUnposted id s) := by
  unfold dropUnposted
  (try dsimp only)
  repeat' (first | (simp (maxDischargeDepth := 30) [hk]; done) | split | (simp (maxDischargeDepth := 30) +contextual [hk]; done))

@[simp] theorem destroyRing_keeps (z : State) (id : Nat) (s : State) (hk : Keeps z s) :
    Keeps z (destroyRing id s) := by
  unfold destroyRing
  (try dsimp only)
  repeat' (first | (simp (maxDischargeDepth := 30) [hk]; done) | split | (simp (maxDischargeDepth := 30) +contextual [hk]; done))

@[simp] theorem closeChan_keeps (z : State) (n : Nat) (s0 : State) (hk : Keeps z s0) :
    Keeps z (closeChan n s0) := by
  unfold closeChan
  (try dsimp only)
  repeat' (first | (simp (maxDischargeDepth := 30) [hk]; done) | split | (simp (maxDischargeDepth := 30) +contextual [hk]; done))

@[simp] theorem evictRing_keeps (z : State) (s : State) (hk : Keeps z s) :
    Keeps z (evictRing s) := by
  unfold evictRing
  (try dsimp only)
  repeat' (first | (simp (maxDischargeDepth := 30) [hk]; done) | split | (simp (maxDischargeDepth := 30) +contextual [hk]; done))

@[simp] theorem fetchContext_keeps (z : State) (id : Nat) (s : State) (hk : Keeps z s) :
    Keeps z (fetchContext id s) := by
  unfold fetchContext
  (try dsimp only)
  repeat' (first | (simp (maxDischargeDepth := 30) [hk]; done) | split | (simp (maxDischargeDepth := 30) +contextual [hk]; done))

@[simp] theorem touchRing_keeps (z : State) (id : Nat) (s : State) (hk : Keeps z s) :
    Keeps z (touchRing id s) := by
  unfold touchRing
  (try dsimp only)
  repeat' (first | (simp (maxDischargeDepth := 30) [hk]; done) | split | (simp (maxDischargeDepth := 30) +contextual [hk]; done))

@[simp] theorem visitRing_keeps (z : State) (id : Nat) (r : Ring) (s : State) (hk : Keeps z s) :
    Keeps z (visitRing id r s) := by
  unfold visitRing
  (try dsimp only)
  repeat' (first | (simp (maxDischargeDepth := 30) [hk]; done) | split | (simp (maxDischargeDepth := 30) +contextual [hk]; done))

@[simp] theorem addJob_keeps (z : State) (id ix : Nat) (b : Bytes) (s : State) (hk : Keeps z s) :
    Keeps z (addJob id ix b s) := by
  unfold addJob
  (try dsimp only)
  repeat' (first | (simp (maxDischargeDepth := 30) [hk]; done) | split | (simp (maxDischargeDepth := 30) +contextual [hk]; done))

@[simp] theorem addJobs_keeps (z : State) (id ix n size : Nat) (b : Bytes) (s : State) (hk : Keeps z s) : Keeps z (addJobs id ix n size b s) := by
  induction n generalizing ix b s with
  | zero => exact hk
  | succ n ih => exact ih _ _ _ (addJob_keeps z id ix _ s hk)

@[simp] theorem takeReads_keeps (z : State) (fuel id : Nat) (s : State) (hk : Keeps z s) : Keeps z (takeReads fuel id s) := by
  induction fuel generalizing s with
  | zero => exact hk
  | succ n ih =>
    unfold takeReads
    repeat' split
    all_goals first | exact hk | exact ih _ (addJobs_keeps _ _ _ _ _ _ _ hk)

@[simp] theorem descArrive_keeps (z : State) (id k : Nat) (b : Bytes) (s : State) (hk : Keeps z s) :
    Keeps z (descArrive id k b s) := by
  unfold descArrive
  (try dsimp only)
  repeat' (first | (simp (maxDischargeDepth := 30) [hk]; done) | split | (simp (maxDischargeDepth := 30) +contextual [hk]; done))

@[simp] theorem stopRing_keeps (z : State) (id kind addr : Nat) (s : State) (hk : Keeps z s) :
    Keeps z (stopRing id kind addr s) := by
  unfold stopRing
  (try dsimp only)
  repeat' (first | (simp (maxDischargeDepth := 30) [hk]; done) | split | (simp (maxDischargeDepth := 30) +contextual [hk]; done))

@[simp] theorem descFail_keeps (z : State) (id k kind addr : Nat) (s : State) (hk : Keeps z s) :
    Keeps z (descFail id k kind addr s) := by
  unfold descFail
  (try dsimp only)
  repeat' (first | (simp (maxDischargeDepth := 30) [hk]; done) | split | (simp (maxDischargeDepth := 30) +contextual [hk]; done))

@[simp] theorem contextArrive_keeps (z : State) (id : Nat) (b : Bytes) (s : State) (hk : Keeps z s) :
    Keeps z (contextArrive id b s) := by
  unfold contextArrive
  (try dsimp only)
  repeat' (first | (simp (maxDischargeDepth := 30) [hk]; done) | split | (simp (maxDischargeDepth := 30) +contextual [hk]; done))

@[simp] theorem forwardTo_keeps (z : State) (j : Job) (s : State) (hk : Keeps z s) :
    Keeps z (forwardTo j s) := by
  unfold forwardTo
  (try dsimp only)
  repeat' (first | (simp (maxDischargeDepth := 30) [hk]; done) | split | (simp (maxDischargeDepth := 30) +contextual [hk]; done))

@[simp] theorem listArrive_keeps (z : State) (q : Nat) (part : JobPart) (a : Access) (b : Bytes) (s : State) (hk : Keeps z s) :
    Keeps z (listArrive q part a b s) := by
  unfold listArrive
  (try dsimp only)
  repeat' (first | (simp (maxDischargeDepth := 30) [hk]; done) | split | (simp (maxDischargeDepth := 30) +contextual [hk]; done))

@[simp] theorem takeRecord_keeps (z : State) (i : Nat) (j : Job) (r : Ring) (s : State) (hk : Keeps z s) :
    Keeps z (takeRecord i j r s) := by
  unfold takeRecord
  (try dsimp only)
  repeat' (first | (simp (maxDischargeDepth := 30) [hk]; done) | split | (simp (maxDischargeDepth := 30) +contextual [hk]; done))

@[simp] theorem nextLink_keeps (z : State) (j : Job) (s : State) (hk : Keeps z s) :
    Keeps z (nextLink j s) := by
  unfold nextLink
  (try dsimp only)
  repeat' (first | (simp (maxDischargeDepth := 30) [hk]; done) | split | (simp (maxDischargeDepth := 30) +contextual [hk]; done))

@[simp] theorem postBeat_keeps (z : State) (c : Nat) (r : Ring) (js : List Job) (s : State) (hk : Keeps z s) :
    Keeps z (postBeat c r js s) := by
  unfold postBeat
  (try dsimp only)
  repeat' (first | (simp (maxDischargeDepth := 30) [hk]; done) | split | (simp (maxDischargeDepth := 30) +contextual [hk]; done))

@[simp] theorem sendIrq_keeps (z : State) (c : Nat) (r : Ring) (s : State) (hk : Keeps z s) :
    Keeps z (sendIrq c r s) := by
  unfold sendIrq
  (try dsimp only)
  repeat' (first | (simp (maxDischargeDepth := 30) [hk]; done) | split | (simp (maxDischargeDepth := 30) +contextual [hk]; done))

@[simp] theorem countRecord_keeps (z : State) (c : Nat) (now irq : Bool) (s : State) (hk : Keeps z s) :
    Keeps z (countRecord c now irq s) := by
  unfold countRecord
  (try dsimp only)
  repeat' (first | (simp (maxDischargeDepth := 30) [hk]; done) | split | (simp (maxDischargeDepth := 30) +contextual [hk]; done))

@[simp] theorem endFrame_keeps (z : State) (n f : Nat) (st : Status) (s : State) (hk : Keeps z s) :
    Keeps z (endFrame n f st s) := by
  unfold endFrame
  (try dsimp only)
  repeat' (first | (simp (maxDischargeDepth := 30) [hk]; done) | split | (simp (maxDischargeDepth := 30) +contextual [hk]; done))

@[simp] theorem retireJob_keeps (z : State) (c i : Nat) (j : Job) (s : State) (hk : Keeps z s) :
    Keeps z (retireJob c i j s) := by
  unfold retireJob
  (try dsimp only)
  repeat' (first | (simp (maxDischargeDepth := 30) [hk]; done) | split | (simp (maxDischargeDepth := 30) +contextual [hk]; done))

@[simp] theorem retireAll_keeps (z : State) (c : Nat) (l : List Nat) (s : State) (hk : Keeps z s) : Keeps z (retireAll c l s) := by
  induction l generalizing s with
  | nil => exact hk
  | cons q r ih =>
    unfold retireAll
    split
    · apply ih
      split
      · exact retireJob_keeps z c _ _ s hk
      · exact hk
    · exact ih _ hk

@[simp] theorem holdRecords_keeps (z : State) (c : Nat) (l : List Nat) (kind addr : Nat) (s : State) (hk : Keeps z s) :
    Keeps z (holdRecords c l kind addr s) := by
  unfold holdRecords
  (try dsimp only)
  repeat' (first | (simp (maxDischargeDepth := 30) [hk]; done) | split | (simp (maxDischargeDepth := 30) +contextual [hk]; done))

@[simp] theorem eccInjected_keeps (z : State) (src : Nat) (s : State) (hk : Keeps z s) :
    Keeps z (eccInjected src s) := by
  unfold eccInjected
  (try dsimp only)
  repeat' (first | (simp (maxDischargeDepth := 30) [hk]; done) | split | (simp (maxDischargeDepth := 30) +contextual [hk]; done))

@[simp] theorem lostTransfer_keeps (z : State) (i : Nat) (a : Access) (s : State) (hk : Keeps z s) :
    Keeps z (lostTransfer i a s) := by
  unfold lostTransfer
  (try dsimp only)
  repeat' (first | (simp (maxDischargeDepth := 30) [hk]; done) | split | (simp (maxDischargeDepth := 30) +contextual [hk]; done))

@[simp] theorem inputArrive_keeps (z : State) (q : Nat) (part : JobPart) (off : Nat) (a : Access) (b : Bytes) (s : State) (hk : Keeps z s) :
    Keeps z (inputArrive q part off a b s) := by
  unfold inputArrive
  (try dsimp only)
  repeat' (first | (simp (maxDischargeDepth := 30) [hk]; done) | split | (simp (maxDischargeDepth := 30) +contextual [hk]; done))

@[simp] theorem mergeWritten_keeps (z : State) (i : Nat) (s : State) (hk : Keeps z s) :
    Keeps z (mergeWritten i s) := by
  unfold mergeWritten
  (try dsimp only)
  repeat' (first | (simp (maxDischargeDepth := 30) [hk]; done) | split | (simp (maxDischargeDepth := 30) +contextual [hk]; done))

@[simp] theorem outAck_keeps (z : State) (q : Nat) (a : Access) (s : State) (hk : Keeps z s) :
    Keeps z (outAck q a s) := by
  unfold outAck
  (try dsimp only)
  repeat' (first | (simp (maxDischargeDepth := 30) [hk]; done) | split | (simp (maxDischargeDepth := 30) +contextual [hk]; done))

@[simp] theorem cancelZero_keeps (z : State) (q : Nat) (s : State) (hk : Keeps z s) :
    Keeps z (cancelZero q s) := by
  unfold cancelZero
  (try dsimp only)
  repeat' (first | (simp (maxDischargeDepth := 30) [hk]; done) | split | (simp (maxDischargeDepth := 30) +contextual [hk]; done))

@[simp] theorem zeroAck_keeps (z : State) (q : Nat) (a : Access) (s : State) (hk : Keeps z s) :
    Keeps z (zeroAck q a s) := by
  unfold zeroAck
  (try dsimp only)
  repeat' (first | (simp (maxDischargeDepth := 30) [hk]; done) | split | (simp (maxDischargeDepth := 30) +contextual [hk]; done))

@[simp] theorem adminArrive_keeps (z : State) (gen addr : Nat) (a : Access) (b : Bytes) (s : State) (hk : Keeps z s) :
    Keeps z (adminArrive gen addr a b s) := by
  unfold adminArrive
  (try dsimp only)
  repeat' (first | (simp (maxDischargeDepth := 30) [hk]; done) | split | (simp (maxDischargeDepth := 30) +contextual [hk]; done))

@[simp] theorem replyAck_keeps (z : State) (addr : Nat) (a : Access) (s : State) (hk : Keeps z s) :
    Keeps z (replyAck addr a s) := by
  unfold replyAck
  (try dsimp only)
  repeat' (first | (simp (maxDischargeDepth := 30) [hk]; done) | split | (simp (maxDischargeDepth := 30) +contextual [hk]; done))

@[simp] theorem cmdArrive_keeps (z : State) (cid off : Nat) (a : Access) (b : Bytes) (s : State) (hk : Keeps z s) :
    Keeps z (cmdArrive cid off a b s) := by
  unfold cmdArrive
  (try dsimp only)
  repeat' (first | (simp (maxDischargeDepth := 30) [hk]; done) | split | (simp (maxDischargeDepth := 30) +contextual [hk]; done))

@[simp] theorem cmdAck_keeps (z : State) (cid : Nat) (a : Access) (s : State) (hk : Keeps z s) :
    Keeps z (cmdAck cid a s) := by
  unfold cmdAck
  (try dsimp only)
  repeat' (first | (simp (maxDischargeDepth := 30) [hk]; done) | split | (simp (maxDischargeDepth := 30) +contextual [hk]; done))

@[simp] theorem failJobs_keeps (z : State) (l : List Nat) (st : Status) (s : State) (hk : Keeps z s) :
    Keeps z (failJobs l st s) := by
  unfold failJobs
  (try dsimp only)
  repeat' (first | (simp (maxDischargeDepth := 30) [hk]; done) | split | (simp (maxDischargeDepth := 30) +contextual [hk]; done))

@[simp] theorem carveEvent_keeps (z : State) (a : Access) (s : State) (hk : Keeps z s) :
    Keeps z (carveEvent a s) := by
  unfold carveEvent
  (try dsimp only)
  repeat' (first | (simp (maxDischargeDepth := 30) [hk]; done) | split | (simp (maxDischargeDepth := 30) +contextual [hk]; done))

@[simp] theorem sessArrive_keeps (z : State) (ix : Nat) (a : Access) (b : Bytes) (s : State) (hk : Keeps z s) :
    Keeps z (sessArrive ix a b s) := by
  unfold sessArrive
  (try dsimp only)
  repeat' (first | (simp (maxDischargeDepth := 30) [hk]; done) | split | (simp (maxDischargeDepth := 30) +contextual [hk]; done))

@[simp] theorem ceilingAck_keeps (z : State) (ix c : Nat) (a : Access) (s : State) (hk : Keeps z s) :
    Keeps z (ceilingAck ix c a s) := by
  unfold ceilingAck
  (try dsimp only)
  repeat' (first | (simp (maxDischargeDepth := 30) [hk]; done) | split | (simp (maxDischargeDepth := 30) +contextual [hk]; done))

@[simp] theorem storeAck_keeps (z : State) (ix : Nat) (a : Access) (s : State) (hk : Keeps z s) :
    Keeps z (storeAck ix a s) := by
  unfold storeAck
  (try dsimp only)
  repeat' (first | (simp (maxDischargeDepth := 30) [hk]; done) | split | (simp (maxDischargeDepth := 30) +contextual [hk]; done))

@[simp] theorem createAck_keeps (z : State) (ix : Nat) (a : Access) (s : State) (hk : Keeps z s) :
    Keeps z (createAck ix a s) := by
  unfold createAck
  (try dsimp only)
  repeat' (first | (simp (maxDischargeDepth := 30) [hk]; done) | split | (simp (maxDischargeDepth := 30) +contextual [hk]; done))

@[simp] theorem treeAck_keeps (z : State) (a : Access) (s : State) (hk : Keeps z s) :
    Keeps z (treeAck a s) := by
  unfold treeAck
  (try dsimp only)
  repeat' (first | (simp (maxDischargeDepth := 30) [hk]; done) | split | (simp (maxDischargeDepth := 30) +contextual [hk]; done))

@[simp] theorem spillArrive_keeps (z : State) (n : Nat) (a : Access) (b : Bytes) (s : State) (hk : Keeps z s) :
    Keeps z (spillArrive n a b s) := by
  unfold spillArrive
  (try dsimp only)
  repeat' (first | (simp (maxDischargeDepth := 30) [hk]; done) | split | (simp (maxDischargeDepth := 30) +contextual [hk]; done))

@[simp] theorem extArrive_keeps (z : State) (n : Nat) (q : Option Nat) (a : Access) (b : Bytes) (s : State) (hk : Keeps z s) :
    Keeps z (extArrive n q a b s) := by
  unfold extArrive
  (try dsimp only)
  repeat' (first | (simp (maxDischargeDepth := 30) [hk]; done) | split | (simp (maxDischargeDepth := 30) +contextual [hk]; done))

@[simp] theorem ledgerAck_keeps (z : State) (s : State) (hk : Keeps z s) :
    Keeps z (ledgerAck s) := by
  unfold ledgerAck
  (try dsimp only)
  repeat' (first | (simp (maxDischargeDepth := 30) [hk]; done) | split | (simp (maxDischargeDepth := 30) +contextual [hk]; done))

@[simp] theorem deliver_keeps (z : State) (r : Req) (a : Access) (b : Bytes) (s0 : State) (hk : Keeps z s0) :
    Keeps z (deliver r a b s0) := by
  unfold deliver
  (try dsimp only)
  repeat' (first | (simp (maxDischargeDepth := 30) [hk]; done) | split | (simp (maxDischargeDepth := 30) +contextual [hk]; done))

@[simp] theorem modFab_keeps (z : State) (n : Nat) (f : FabPort → FabPort) (s : State) (hk : Keeps z s) :
    Keeps z (modFab n f s) := by
  unfold modFab
  (try dsimp only)
  repeat' (first | (simp (maxDischargeDepth := 30) [hk]; done) | split | (simp (maxDischargeDepth := 30) +contextual [hk]; done))

@[simp] theorem isolatePort_keeps (z : State) (n tag : Nat) (s : State) (hk : Keeps z s) :
    Keeps z (isolatePort n tag s) := by
  unfold isolatePort
  (try dsimp only)
  repeat' (first | (simp (maxDischargeDepth := 30) [hk]; done) | split | (simp (maxDischargeDepth := 30) +contextual [hk]; done))

@[simp] theorem complete_keeps (z : State) (n : Nat) (t : Txn) (a : Access) (b : Bytes) (s : State) (hk : Keeps z s) :
    Keeps z (complete n t a b s) := by
  unfold complete
  (try dsimp only)
  repeat' (first | (simp (maxDischargeDepth := 30) [hk]; done) | split | (simp (maxDischargeDepth := 30) +contextual [hk]; done))

@[simp] theorem readBeat_keeps (z : State) (n k : Nat) (status : RspStatus) (parityOk last : Bool) (data : Bytes) (s : State) (hk : Keeps z s) :
    Keeps z (readBeat n k status parityOk last data s) := by
  unfold readBeat
  (try dsimp only)
  repeat' (first | (simp (maxDischargeDepth := 30) [hk]; done) | split | (simp (maxDischargeDepth := 30) +contextual [hk]; done))

@[simp] theorem writeAck_keeps (z : State) (n k : Nat) (status : RspStatus) (s : State) (hk : Keeps z s) :
    Keeps z (writeAck n k status s) := by
  unfold writeAck
  (try dsimp only)
  repeat' (first | (simp (maxDischargeDepth := 30) [hk]; done) | split | (simp (maxDischargeDepth := 30) +contextual [hk]; done))

@[simp] theorem creditReturn_keeps (z : State) (n req wdat : Nat) (s : State) (hk : Keeps z s) :
    Keeps z (creditReturn n req wdat s) := by
  unfold creditReturn
  (try dsimp only)
  repeat' (first | (simp (maxDischargeDepth := 30) [hk]; done) | split | (simp (maxDischargeDepth := 30) +contextual [hk]; done))

end Sys2Proof.Machine
end

