-- ==== Sys2Proof/Laws/Kept5.lean ====
section
/-! SUPPORT. What the operations keep: the carve-out, faults, ports, sessions, rings and windows. One lemma per operation. -/
namespace Sys2Proof.Machine
open Sys2Proof.Safety
set_option linter.unusedSimpArgs false

@[simp] theorem fetchSpill_keeps (z : State) (n : Nat) (s : State) (hk : Keeps z s) :
    Keeps z (fetchSpill n s) := by
  unfold fetchSpill
  (try dsimp only)
  repeat' (first | (simp (maxDischargeDepth := 30) [hk]; done) | split | (simp (maxDischargeDepth := 30) +contextual [hk]; done))

@[simp] theorem evictSession_keeps (z : State) (s : State) (hk : Keeps z s) :
    Keeps z (evictSession s) := by
  unfold evictSession
  (try dsimp only)
  repeat' (first | (simp (maxDischargeDepth := 30) [hk]; done) | split | (simp (maxDischargeDepth := 30) +contextual [hk]; done))

@[simp] theorem fetchSession_keeps (z : State) (ix : Nat) (s : State) (hk : Keeps z s) :
    Keeps z (fetchSession ix s) := by
  unfold fetchSession
  (try dsimp only)
  repeat' (first | (simp (maxDischargeDepth := 30) [hk]; done) | split | (simp (maxDischargeDepth := 30) +contextual [hk]; done))

@[simp] theorem withSlot_keeps (z : State) (e : CmdEntry) (n : Nat) (f : State → State) (s : State) (hk : Keeps z s) (h0 : ∀ x0, Keeps z x0 → Keeps z (f x0)) :
    Keeps z (withSlot e n f s) := by
  unfold withSlot
  (try dsimp only)
  repeat' (first | (simp (maxDischargeDepth := 30) [h0, hk]; done) | split | (simp (maxDischargeDepth := 30) +contextual [h0, hk]; done))

@[simp] theorem withKey_keeps (z : State) (e : CmdEntry) (n : Nat) (f : State → State) (s : State) (hk : Keeps z s)
    (h0 : ∀ x, Keeps z x → Keeps z (f x)) : Keeps z (withKey e n f s) := by
  unfold withKey
  refine withSlot_keeps z e n _ s hk ?_
  intro x hx
  repeat' split
  · exact h0 x hx
  · exact h0 x hx
  · exact hx
  · simp (maxDischargeDepth := 30) [hx]

@[simp] theorem destroyPortKeys_keeps (z : State) (p : Nat) (s : State) (hk : Keeps z s) :
    Keeps z (destroyPortKeys p s) := by
  unfold destroyPortKeys
  (try dsimp only)
  repeat' (first | (simp (maxDischargeDepth := 30) [hk]; done) | split | (simp (maxDischargeDepth := 30) +contextual [hk]; done))

@[simp] theorem destroyPortSessions_keeps (z : State) (p : Nat) (s : State) (hk : Keeps z s) :
    Keeps z (destroyPortSessions p s) := by
  unfold destroyPortSessions
  (try dsimp only)
  repeat' (first | (simp (maxDischargeDepth := 30) [hk]; done) | split | (simp (maxDischargeDepth := 30) +contextual [hk]; done))

@[simp] theorem destroyPortRings_keeps (z : State) (p : Nat) (s : State) (hk : Keeps z s) :
    Keeps z (destroyPortRings p s) := by
  unfold destroyPortRings
  (try dsimp only)
  repeat' (first | (simp (maxDischargeDepth := 30) [hk]; done) | split | (simp (maxDischargeDepth := 30) +contextual [hk]; done))

@[simp] theorem closePortChans_keeps (z : State) (p : Nat) (s : State) (hk : Keeps z s) :
    Keeps z (closePortChans p s) := by
  unfold closePortChans
  (try dsimp only)
  repeat' (first | (simp (maxDischargeDepth := 30) [hk]; done) | split | (simp (maxDischargeDepth := 30) +contextual [hk]; done))

@[simp] theorem closePort_keeps (z : State) (p : Nat) (s : State) (hk : Keeps z s) :
    Keeps z (closePort p s) := by
  unfold closePort
  (try dsimp only)
  repeat' (first | (simp (maxDischargeDepth := 30) [hk]; done) | split | (simp (maxDischargeDepth := 30) +contextual [hk]; done))

@[simp] theorem endFenced_keeps (z : State) (e : CmdEntry) (s : State) (hk : Keeps z s) :
    Keeps z (endFenced e s) := by
  unfold endFenced
  (try dsimp only)
  repeat' (first | (simp (maxDischargeDepth := 30) [hk]; done) | split | (simp (maxDischargeDepth := 30) +contextual [hk]; done))

@[simp] theorem awaitLeases_keeps (z : State) (e : CmdEntry) (p : Lease → Bool) (s : State) (hk : Keeps z s) :
    Keeps z (awaitLeases e p s) := by
  unfold awaitLeases
  (try dsimp only)
  repeat' (first | (simp (maxDischargeDepth := 30) [hk]; done) | split | (simp (maxDischargeDepth := 30) +contextual [hk]; done))

@[simp] theorem leaseEnded_keeps (z : State) (ix : Nat) (s : State) (hk : Keeps z s) :
    Keeps z (leaseEnded ix s) := by
  unfold leaseEnded
  (try dsimp only)
  repeat' (first | (simp (maxDischargeDepth := 30) [hk]; done) | split | (simp (maxDischargeDepth := 30) +contextual [hk]; done))

@[simp] theorem afterFence_keeps (z : State) (e : CmdEntry) (f : Fence) (s : State) (hk : Keeps z s) :
    Keeps z (afterFence e f s) := by
  unfold afterFence
  (try dsimp only)
  repeat' (first | (simp (maxDischargeDepth := 30) [hk]; done) | split | (simp (maxDischargeDepth := 30) +contextual [hk]; done))

@[simp] theorem fence_keeps (z : State) (e : CmdEntry) (obj : FenceObj) (payload : Bytes) (s : State) (hk : Keeps z s) :
    Keeps z (fence e obj payload s) := by
  unfold fence
  (try dsimp only)
  repeat' (first | (simp (maxDischargeDepth := 30) [hk]; done) | split | (simp (maxDischargeDepth := 30) +contextual [hk]; done))

@[simp] theorem modSrc_keeps (z : State) (n : Nat) (f : Src → Src) (s : State) (hk : Keeps z s)
    (hf : ∀ r, ((f r).severe && !(f r).acked) = true → (r.severe && !r.acked) = true) : Keeps z (modSrc n f s) :=
  hk.trans ⟨rfl, rfl, rfl, rfl, faultsSound_tmod _ _ _ hf, id, id⟩

@[simp] theorem feedDraw_keeps (z : State) (i : Nat) (s : State) (hk : Keeps z s) :
    Keeps z (feedDraw i s) := by
  unfold feedDraw
  (try dsimp only)
  repeat' (first | (simp (maxDischargeDepth := 30) [hk]; done) | split | (simp (maxDischargeDepth := 30) +contextual [hk]; done))

@[simp] theorem makeSession_keeps (z : State) (e : CmdEntry) (ix : Nat) (s0 : State) (hk : Keeps z s0) :
    Keeps z (makeSession e ix s0) := by
  unfold makeSession
  (try dsimp only)
  repeat' (first | (simp (maxDischargeDepth := 30) [hk]; done) | split | (simp (maxDischargeDepth := 30) +contextual [hk]; done))

@[simp] theorem addRing_keeps (z : State) (id : Nat) (r : Ring) (s : State) (hk : Keeps z s) :
    Keeps z (addRing id r s) := by
  unfold addRing
  (try dsimp only)
  repeat' (first | (simp (maxDischargeDepth := 30) [hk]; done) | split | (simp (maxDischargeDepth := 30) +contextual [hk]; done))

@[simp] theorem remark_keeps (z : State) (id : Nat) (r : Ring) (s : State) (hk : Keeps z s) :
    Keeps z (remark id r s) := by
  unfold remark
  (try dsimp only)
  repeat' (first | (simp (maxDischargeDepth := 30) [hk]; done) | split | (simp (maxDischargeDepth := 30) +contextual [hk]; done))

@[simp] theorem onLease_keeps (z : State) (e : CmdEntry) (f : Nat → Lease → State → State) (s : State) (hk : Keeps z s) (h0 : ∀ x0 x1 x2, Keeps z x2 → Keeps z (f x0 x1 x2)) :
    Keeps z (onLease e f s) := by
  unfold onLease
  (try dsimp only)
  repeat' (first | (simp (maxDischargeDepth := 30) [h0, hk]; done) | split | (simp (maxDischargeDepth := 30) +contextual [h0, hk]; done))

@[simp] theorem clearEnded_keeps (z : State) (cid ix : Nat) (l : Lease) (s : State) (hk : Keeps z s) : Keeps z (clearEnded cid ix l s) := by
  unfold clearEnded
  have k1 : Keeps z { s with eng := { s.eng with leases := tput s.eng.leases ix { l with data := [], contentsLost := false, zeroing := none } } } :=
    Keeps.trans hk ⟨rfl, rfl, rfl, rfl, id, id, leasesSound_tput _ _ _ rfl⟩
  dsimp only
  split
  · exact finish_keeps _ _ _ _ k1
  · exact k1

end Sys2Proof.Machine
end

