-- ==== Sys2Proof/Laws/Kept6.lean ====
section
/-! SUPPORT. What the operations keep: engines, streams and the clocks. One lemma per operation. -/
namespace Sys2Proof.Machine
open Sys2Proof.Safety
set_option linter.unusedSimpArgs false

@[simp] theorem endRun_keeps (z : State) (i : Nat) (j : Job) (us : List Nat) (s : State) (hk : Keeps z s) :
    Keeps z (endRun i j us s) := by
  unfold endRun
  (try dsimp only)
  repeat' (first | (simp (maxDischargeDepth := 30) [hk]; done) | split | (simp (maxDischargeDepth := 30) +contextual [hk]; done))

@[simp] theorem countEnd_keeps (z : State) (i : Nat) (j : Job) (r : Session) (us : List Nat) (done : Bool) (s : State) (hk : Keeps z s) :
    Keeps z (countEnd i j r us done s) := by
  unfold countEnd
  (try dsimp only)
  repeat' (first | (simp (maxDischargeDepth := 30) [hk]; done) | split | (simp (maxDischargeDepth := 30) +contextual [hk]; done))

@[simp] theorem moveContext_keeps (z : State) (j : Job) (unit : Nat) (s : State) (hk : Keeps z s) :
    Keeps z (moveContext j unit s) := by
  unfold moveContext
  (try dsimp only)
  repeat' (first | (simp (maxDischargeDepth := 30) [hk]; done) | split | (simp (maxDischargeDepth := 30) +contextual [hk]; done))

@[simp] theorem holdLater_keeps (z : State) (j : Job) (stop : Nat) (s : State) (hk : Keeps z s) :
    Keeps z (holdLater j stop s) := by
  unfold holdLater
  (try dsimp only)
  repeat' (first | (simp (maxDischargeDepth := 30) [hk]; done) | split | (simp (maxDischargeDepth := 30) +contextual [hk]; done))

@[simp] theorem startRetry_keeps (z : State) (i : Nat) (j : Job) (r : Session) (p : Retry) (s : State) (hk : Keeps z s) :
    Keeps z (startRetry i j r p s) := by
  unfold startRetry
  (try dsimp only)
  repeat' (first | (simp (maxDischargeDepth := 30) [hk]; done) | split | (simp (maxDischargeDepth := 30) +contextual [hk]; done))

@[simp] theorem disagree_keeps (z : State) (i : Nat) (j : Job) (r : Session) (us : List Nat) (s : State) (hk : Keeps z s) :
    Keeps z (disagree i j r us s) := by
  unfold disagree
  (try dsimp only)
  repeat' (first | (simp (maxDischargeDepth := 30) [hk]; done) | split | (simp (maxDischargeDepth := 30) +contextual [hk]; done))

@[simp] theorem engineEnd_keeps (z : State) (i : Nat) (p : Job → Bool) (agree : Bool) (yield : Nat → Job → Session → State → State) (s : State) (hk : Keeps z s) (h0 : ∀ x0 x1 x2 x3, Keeps z x3 → Keeps z (yield x0 x1 x2 x3)) :
    Keeps z (engineEnd i p agree yield s) := by
  unfold engineEnd
  (try dsimp only)
  repeat' (first | (simp (maxDischargeDepth := 30) [h0, hk]; done) | split | (simp (maxDischargeDepth := 30) +contextual [h0, hk]; done))

@[simp] theorem release_keeps (z : State) (i : Nat) (reqs : List Req) (f : Job → Job) (s : State) (hk : Keeps z s) :
    Keeps z (release i reqs f s) := by
  unfold release
  (try dsimp only)
  repeat' (first | (simp (maxDischargeDepth := 30) [hk]; done) | split | (simp (maxDischargeDepth := 30) +contextual [hk]; done))

@[simp] theorem nibYield_keeps (z : State) (i : Nat) (j : Job) (r : Session) (s : State) (hk : Keeps z s) :
    Keeps z (nibYield i j r s) := by
  unfold nibYield
  (try dsimp only)
  repeat' (first | (simp (maxDischargeDepth := 30) [hk]; done) | split | (simp (maxDischargeDepth := 30) +contextual [hk]; done))

@[simp] theorem suspendNow_keeps (z : State) (x c t : Nat) (j : Job) (r : Session) (s : State) (hk : Keeps z s) :
    Keeps z (suspendNow x c t j r s) := by
  unfold suspendNow
  (try dsimp only)
  repeat' (first | (simp (maxDischargeDepth := 30) [hk]; done) | split | (simp (maxDischargeDepth := 30) +contextual [hk]; done))

@[simp] theorem quillEnd_keeps (z : State) (i : Nat) (j : Job) (r : Session) (padded : Bytes) (s : State) (hk : Keeps z s) :
    Keeps z (quillEnd i j r padded s) := by
  unfold quillEnd
  (try dsimp only)
  repeat' (first | (simp (maxDischargeDepth := 30) [hk]; done) | split | (simp (maxDischargeDepth := 30) +contextual [hk]; done))

@[simp] theorem quillYield_keeps (z : State) (i : Nat) (j : Job) (r : Session) (s : State) (hk : Keeps z s) :
    Keeps z (quillYield i j r s) := by
  unfold quillYield
  (try dsimp only)
  repeat' (first | (simp (maxDischargeDepth := 30) [hk]; done) | split | (simp (maxDischargeDepth := 30) +contextual [hk]; done))

@[simp] theorem hookYield_keeps (z : State) (i : Nat) (j : Job) (r : Session) (s : State) (hk : Keeps z s) : Keeps z (hookYield i j r s) := by
  unfold hookYield
  repeat' split
  all_goals try (simp (maxDischargeDepth := 30) [hk]; done)
  rename_i h _ _ _ _
  apply release_keeps
  refine kept_leases z s _ hk ?_
  exact fun hs => leasesSound_tput _ _ _ (Memory_writeBytes_wf _ _ _ (hs _ (leaseAt_mem _ _ _ _ h))) hs

@[simp] theorem rowRepaired_keeps (z : State) (a row : Nat) (s : State) (hk : Keeps z s) :
    Keeps z (rowRepaired a row s) := by
  unfold rowRepaired
  (try dsimp only)
  repeat' (first | (simp (maxDischargeDepth := 30) [hk]; done) | split | (simp (maxDischargeDepth := 30) +contextual [hk]; done))

@[simp] theorem startCopy_keeps (z : State) (a row : Nat) (cid esc : Option Nat) (s : State) (hk : Keeps z s) :
    Keeps z (startCopy a row cid esc s) := by
  unfold startCopy
  (try dsimp only)
  repeat' (first | (simp (maxDischargeDepth := 30) [hk]; done) | split | (simp (maxDischargeDepth := 30) +contextual [hk]; done))

@[simp] theorem autoRepair_keeps (z : State) (a row : Nat) (s : State) (hk : Keeps z s) :
    Keeps z (autoRepair a row s) := by
  unfold autoRepair
  (try dsimp only)
  repeat' (first | (simp (maxDischargeDepth := 30) [hk]; done) | split | (simp (maxDischargeDepth := 30) +contextual [hk]; done))

@[simp] theorem countCorrected_keeps (z : State) (a row : Nat) (s : State) (hk : Keeps z s) :
    Keeps z (countCorrected a row s) := by
  unfold countCorrected
  (try dsimp only)
  repeat' (first | (simp (maxDischargeDepth := 30) [hk]; done) | split | (simp (maxDischargeDepth := 30) +contextual [hk]; done))

@[simp] theorem countParity_keeps (z : State) (a row : Nat) (s : State) (hk : Keeps z s) :
    Keeps z (countParity a row s) := by
  unfold countParity
  (try dsimp only)
  repeat' (first | (simp (maxDischargeDepth := 30) [hk]; done) | split | (simp (maxDischargeDepth := 30) +contextual [hk]; done))

@[simp] theorem modFrame_keeps (z : State) (n f : Nat) (g : Frame → Frame) (s : State) (hk : Keeps z s) :
    Keeps z (modFrame n f g s) := by
  unfold modFrame
  (try dsimp only)
  repeat' (first | (simp (maxDischargeDepth := 30) [hk]; done) | split | (simp (maxDischargeDepth := 30) +contextual [hk]; done))

@[simp] theorem openFrame_keeps (z : State) (n : Nat) (x : Frame) (s : State) (hk : Keeps z s) :
    Keeps z (openFrame n x s) := by
  unfold openFrame
  (try dsimp only)
  repeat' (first | (simp (maxDischargeDepth := 30) [hk]; done) | split | (simp (maxDischargeDepth := 30) +contextual [hk]; done))

@[simp] theorem openFrames_keeps (z : State) (n : Nat) (l : List Frame) (s : State) (hk : Keeps z s) : Keeps z (openFrames n l s) := by
  induction l generalizing s with
  | nil => exact hk
  | cons x r ih =>
    unfold openFrames
    dsimp only
    split
    · exact ih _ hk
    · split
      · exact hk
      · exact ih _ (openFrame_keeps z n x s hk)

@[simp] theorem openAllFrames_keeps (z : State) (s : State) (hk : Keeps z s) :
    Keeps z (openAllFrames s) := by
  unfold openAllFrames
  (try dsimp only)
  repeat' (first | (simp (maxDischargeDepth := 30) [hk]; done) | split | (simp (maxDischargeDepth := 30) +contextual [hk]; done))

@[simp] theorem useJobKey_keeps (z : State) (i : Nat) (s : State) (hk : Keeps z s) :
    Keeps z (useJobKey i s) := by
  unfold useJobKey
  (try dsimp only)
  repeat' (first | (simp (maxDischargeDepth := 30) [hk]; done) | split | (simp (maxDischargeDepth := 30) +contextual [hk]; done))

@[simp] theorem evalStream_keeps (z : State) (i : Nat) (s : State) (hk : Keeps z s) : Keeps z (evalStream i s) := by
  unfold evalStream
  split
  · split
    · exact admitJob_keeps _ _ _ _ _ (useJobKey_keeps _ _ _ hk)
    · exact hk
  · exact hk

@[simp] theorem fetchNeeded_keeps (z : State) (j : Job) (s : State) (hk : Keeps z s) :
    Keeps z (fetchNeeded j s) := by
  unfold fetchNeeded
  (try dsimp only)
  repeat' (first | (simp (maxDischargeDepth := 30) [hk]; done) | split | (simp (maxDischargeDepth := 30) +contextual [hk]; done))

@[simp] theorem fetchAll_keeps (z : State) (s : State) (hk : Keeps z s) :
    Keeps z (fetchAll s) := by
  unfold fetchAll
  (try dsimp only)
  repeat' (first | (simp (maxDischargeDepth := 30) [hk]; done) | split | (simp (maxDischargeDepth := 30) +contextual [hk]; done))

@[simp] theorem useNextKey_keeps (z : State) (s : State) (hk : Keeps z s) :
    Keeps z (useNextKey s) := by
  unfold useNextKey
  (try dsimp only)
  repeat' (first | (simp (maxDischargeDepth := 30) [hk]; done) | split | (simp (maxDischargeDepth := 30) +contextual [hk]; done))

@[simp] theorem placeHeld_keeps (z : State) (i : Nat) (r : Session) (j : Job) (s : State) (hk : Keeps z s) :
    Keeps z (placeHeld i r j s) := by
  unfold placeHeld
  (try dsimp only)
  repeat' (first | (simp (maxDischargeDepth := 30) [hk]; done) | split | (simp (maxDischargeDepth := 30) +contextual [hk]; done))

@[simp] theorem releaseHeld_keeps (z : State) (i : Nat) (j : Job) (s : State) (hk : Keeps z s) :
    Keeps z (releaseHeld i j s) := by
  unfold releaseHeld
  (try dsimp only)
  repeat' (first | (simp (maxDischargeDepth := 30) [hk]; done) | split | (simp (maxDischargeDepth := 30) +contextual [hk]; done))

@[simp] theorem modChan_keeps (z : State) (n : Nat) (f : Chan → Chan) (s : State) (hk : Keeps z s) :
    Keeps z (modChan n f s) := by
  unfold modChan
  (try dsimp only)
  repeat' (first | (simp (maxDischargeDepth := 30) [hk]; done) | split | (simp (maxDischargeDepth := 30) +contextual [hk]; done))

@[simp] theorem dropFrame_keeps (z : State) (n : Nat) (x : Frame) (st : Status) (drops : Bool) (s : State) (hk : Keeps z s) :
    Keeps z (dropFrame n x st drops s) := by
  unfold dropFrame
  (try dsimp only)
  repeat' (first | (simp (maxDischargeDepth := 30) [hk]; done) | split | (simp (maxDischargeDepth := 30) +contextual [hk]; done))

@[simp] theorem truncFrame_keeps (z : State) (n : Nat) (x : Frame) (s : State) (hk : Keeps z s) :
    Keeps z (truncFrame n x s) := by
  unfold truncFrame
  (try dsimp only)
  repeat' (first | (simp (maxDischargeDepth := 30) [hk]; done) | split | (simp (maxDischargeDepth := 30) +contextual [hk]; done))

@[simp] theorem closeFrame_keeps (z : State) (n f : Nat) (s : State) (hk : Keeps z s) :
    Keeps z (closeFrame n f s) := by
  unfold closeFrame
  (try dsimp only)
  repeat' (first | (simp (maxDischargeDepth := 30) [hk]; done) | split | (simp (maxDischargeDepth := 30) +contextual [hk]; done))

@[simp] theorem countDropped_keeps (z : State) (n k : Nat) (s : State) (hk : Keeps z s) :
    Keeps z (countDropped n k s) := by
  unfold countDropped
  (try dsimp only)
  repeat' (first | (simp (maxDischargeDepth := 30) [hk]; done) | split | (simp (maxDischargeDepth := 30) +contextual [hk]; done))

@[simp] theorem takeWord_keeps (z : State) (n : Nat) (x : Frame) (b : StreamBeat) (s : State) (hk : Keeps z s) :
    Keeps z (takeWord n x b s) := by
  unfold takeWord
  (try dsimp only)
  repeat' (first | (simp (maxDischargeDepth := 30) [hk]; done) | split | (simp (maxDischargeDepth := 30) +contextual [hk]; done))

@[simp] theorem endOfFrame_keeps (z : State) (n f : Nat) (trunc : Bool) (s : State) (hk : Keeps z s) :
    Keeps z (endOfFrame n f trunc s) := by
  unfold endOfFrame
  (try dsimp only)
  repeat' (first | (simp (maxDischargeDepth := 30) [hk]; done) | split | (simp (maxDischargeDepth := 30) +contextual [hk]; done))

@[simp] theorem beginFrame_keeps (z : State) (n len : Nat) (s : State) (hk : Keeps z s) :
    Keeps z (beginFrame n len s) := by
  unfold beginFrame
  (try dsimp only)
  repeat' (first | (simp (maxDischargeDepth := 30) [hk]; done) | split | (simp (maxDischargeDepth := 30) +contextual [hk]; done))

@[simp] theorem streamBeat_keeps (z : State) (b : StreamBeat) (s : State) (hk : Keeps z s) :
    Keeps z (streamBeat b s) := by
  unfold streamBeat
  (try dsimp only)
  repeat' (first | (simp (maxDischargeDepth := 30) [hk]; done) | split | (simp (maxDischargeDepth := 30) +contextual [hk]; done))

@[simp] theorem frameYield_keeps (z : State) (i : Nat) (j : Job) (r : Session) (s : State) (hk : Keeps z s) :
    Keeps z (frameYield i j r s) := by
  unfold frameYield
  (try dsimp only)
  repeat' (first | (simp (maxDischargeDepth := 30) [hk]; done) | split | (simp (maxDischargeDepth := 30) +contextual [hk]; done))

@[simp] theorem poisonFrame_keeps (z : State) (i n : Nat) (x : Frame) (s : State) (hk : Keeps z s) :
    Keeps z (poisonFrame i n x s) := by
  unfold poisonFrame
  (try dsimp only)
  repeat' (first | (simp (maxDischargeDepth := 30) [hk]; done) | split | (simp (maxDischargeDepth := 30) +contextual [hk]; done))

@[simp] theorem frameEnd_keeps (z : State) (i op : Nat) (agree parityOk : Bool) (s : State) (hk : Keeps z s) :
    Keeps z (frameEnd i op agree parityOk s) := by
  unfold frameEnd
  (try dsimp only)
  repeat' (first | (simp (maxDischargeDepth := 30) [hk]; done) | split | (simp (maxDischargeDepth := 30) +contextual [hk]; done))

@[simp] theorem refuseWaiting_keeps (z : State) (n : Nat) (s : State) (hk : Keeps z s) : Keeps z (refuseWaiting n s) := by
  refine keeps_foldl _ z (fun x e hx => ?_) _ _ hk
  repeat' split
  all_goals first | exact hx | exact refuseJob_keeps _ _ _ _ hx

@[simp] theorem refusePartial_keeps (z : State) (revoke : Bool) (n : Nat) (s : State) (hk : Keeps z s) :
    Keeps z (refusePartial revoke n s) := by
  unfold refusePartial
  (try dsimp only)
  repeat' (first | (simp (maxDischargeDepth := 30) [hk]; done) | split | (simp (maxDischargeDepth := 30) +contextual [hk]; done))

@[simp] theorem setSchedule_keeps (z : State) (kind len base log2 number : Nat) (s : State) (hk : Keeps z s) :
    Keeps z (setSchedule kind len base log2 number s) := by
  unfold setSchedule
  (try dsimp only)
  repeat' (first | (simp (maxDischargeDepth := 30) [hk]; done) | split | (simp (maxDischargeDepth := 30) +contextual [hk]; done))

end Sys2Proof.Machine
end

