-- ==== Sys2Proof/Laws/Kept7.lean ====
section
/-! SUPPORT. What the operations keep: randomness, sparing, scrubbing and the link. One lemma per operation. -/
namespace Sys2Proof.Machine
open Sys2Proof.Safety
set_option linter.unusedSimpArgs false

@[simp] theorem modCell_keeps (z : State) (c : Nat) (f : Cell → Cell) (s : State) (hk : Keeps z s) :
    Keeps z (modCell c f s) := by
  unfold modCell
  (try dsimp only)
  repeat' (first | (simp (maxDischargeDepth := 30) [hk]; done) | split | (simp (maxDischargeDepth := 30) +contextual [hk]; done))

@[simp] theorem fillCells_keeps (z : State) (s : State) (hk : Keeps z s) :
    Keeps z (fillCells s) := by
  unfold fillCells
  (try dsimp only)
  repeat' (first | (simp (maxDischargeDepth := 30) [hk]; done) | split | (simp (maxDischargeDepth := 30) +contextual [hk]; done))

@[simp] theorem leaveOnline_keeps (z : State) (c : Nat) (s : State) (hk : Keeps z s) :
    Keeps z (leaveOnline c s) := by
  unfold leaveOnline
  (try dsimp only)
  repeat' (first | (simp (maxDischargeDepth := 30) [hk]; done) | split | (simp (maxDischargeDepth := 30) +contextual [hk]; done))

@[simp] theorem takeWindows_keeps (z : State) (src n : Nat) (s : State) (hk : Keeps z s) :
    Keeps z (takeWindows src n s) := by
  unfold takeWindows
  (try dsimp only)
  repeat' (first | (simp (maxDischargeDepth := 30) [hk]; done) | split | (simp (maxDischargeDepth := 30) +contextual [hk]; done))

@[simp] theorem aptFail_keeps (z : State) (c : Nat) (s : State) (hk : Keeps z s) :
    Keeps z (aptFail c s) := by
  unfold aptFail
  (try dsimp only)
  repeat' (first | (simp (maxDischargeDepth := 30) [hk]; done) | split | (simp (maxDischargeDepth := 30) +contextual [hk]; done))

@[simp] theorem refillState_keeps (z : State) (s : State) (hk : Keeps z s) :
    Keeps z (refillState s) := by
  unfold refillState
  (try dsimp only)
  repeat' (first | (simp (maxDischargeDepth := 30) [hk]; done) | split | (simp (maxDischargeDepth := 30) +contextual [hk]; done))

@[simp] theorem feedMismatch_keeps (z : State) (i : Nat) (s : State) (hk : Keeps z s) :
    Keeps z (feedMismatch i s) := by
  unfold feedMismatch
  (try dsimp only)
  repeat' (first | (simp (maxDischargeDepth := 30) [hk]; done) | split | (simp (maxDischargeDepth := 30) +contextual [hk]; done))

@[simp] theorem setRole_keeps (z : State) (c : Nat) (r : Role) (s : State) (hk : Keeps z s) :
    Keeps z (setRole c r s) := by
  unfold setRole
  (try dsimp only)
  repeat' (first | (simp (maxDischargeDepth := 30) [hk]; done) | split | (simp (maxDischargeDepth := 30) +contextual [hk]; done))

@[simp] theorem recordRole_keeps (z : State) (c : Nat) (r : Option Role) (s : State) (hk : Keeps z s) :
    Keeps z (recordRole c r s) := by
  unfold recordRole
  (try dsimp only)
  repeat' (first | (simp (maxDischargeDepth := 30) [hk]; done) | split | (simp (maxDischargeDepth := 30) +contextual [hk]; done))

@[simp] theorem spareAlert_keeps (z : State) (k before : Nat) (s : State) (hk : Keeps z s) :
    Keeps z (spareAlert k before s) := by
  unfold spareAlert
  (try dsimp only)
  repeat' (first | (simp (maxDischargeDepth := 30) [hk]; done) | split | (simp (maxDischargeDepth := 30) +contextual [hk]; done))

@[simp] theorem settle_keeps (z : State) (k before : Nat) (s : State) (hk : Keeps z s) :
    Keeps z (settle k before s) := by
  unfold settle
  (try dsimp only)
  repeat' (first | (simp (maxDischargeDepth := 30) [hk]; done) | split | (simp (maxDischargeDepth := 30) +contextual [hk]; done))

@[simp] theorem advanceGen_keeps (z : State) (c : Nat) (s : State) (hk : Keeps z s) :
    Keeps z (advanceGen c s) := by
  unfold advanceGen
  (try dsimp only)
  repeat' (first | (simp (maxDischargeDepth := 30) [hk]; done) | split | (simp (maxDischargeDepth := 30) +contextual [hk]; done))

@[simp] theorem withdraw_keeps (z : State) (c : Nat) (why : DrainWhy) (s : State) (hk : Keeps z s) :
    Keeps z (withdraw c why s) := by
  unfold withdraw
  (try dsimp only)
  repeat' (first | (simp (maxDischargeDepth := 30) [hk]; done) | split | (simp (maxDischargeDepth := 30) +contextual [hk]; done))

@[simp] theorem switchNib_keeps (z : State) (c r : Nat) (s : State) (hk : Keeps z s) :
    Keeps z (switchNib c r s) := by
  unfold switchNib
  (try dsimp only)
  repeat' (first | (simp (maxDischargeDepth := 30) [hk]; done) | split | (simp (maxDischargeDepth := 30) +contextual [hk]; done))

@[simp] theorem switchUnit_keeps (z : State) (c r : Nat) (s : State) (hk : Keeps z s) :
    Keeps z (switchUnit c r s) := by
  unfold switchUnit
  (try dsimp only)
  repeat' (first | (simp (maxDischargeDepth := 30) [hk]; done) | split | (simp (maxDischargeDepth := 30) +contextual [hk]; done))

@[simp] theorem loseContents_keeps (z : State) (c : Nat) (s : State) (hk : Keeps z s) : Keeps z (loseContents c s) := by
  unfold loseContents
  refine (keeps_foldl (fun a k => loseMessage k a) z (fun x a hx => loseMessage_keeps z a x hx)
    ((s.eng.messages.filter (fun e => e.2.quill == c)).map (·.1)) _ hk).trans
    ⟨rfl, rfl, rfl, rfl, id, id, leasesSound_map _ _ ?_⟩
  intro e h
  dsimp only
  split
  · rfl
  · exact h

@[simp] theorem partNib_keeps (z : State) (c : Nat) (testing : Bool) (s : State) (hk : Keeps z s) :
    Keeps z (partNib c testing s) := by
  unfold partNib
  (try dsimp only)
  repeat' (first | (simp (maxDischargeDepth := 30) [hk]; done) | split | (simp (maxDischargeDepth := 30) +contextual [hk]; done))

@[simp] theorem leaveService_keeps (z : State) (c : Nat) (rep : Option Nat) (testing : Bool) (s : State) (hk : Keeps z s) :
    Keeps z (leaveService c rep testing s) := by
  unfold leaveService
  (try dsimp only)
  repeat' (first | (simp (maxDischargeDepth := 30) [hk]; done) | split | (simp (maxDischargeDepth := 30) +contextual [hk]; done))

@[simp] theorem beginTest_keeps (z : State) (t : UnitTest) (sweep : Bool) (s : State) (hk : Keeps z s) :
    Keeps z (beginTest t sweep s) := by
  unfold beginTest
  (try dsimp only)
  repeat' (first | (simp (maxDischargeDepth := 30) [hk]; done) | split | (simp (maxDischargeDepth := 30) +contextual [hk]; done))

@[simp] theorem answerCid_keeps (z : State) (cid : Nat) (payload : Bytes) (s : State) (hk : Keeps z s) :
    Keeps z (answerCid cid payload s) := by
  unfold answerCid
  (try dsimp only)
  repeat' (first | (simp (maxDischargeDepth := 30) [hk]; done) | split | (simp (maxDischargeDepth := 30) +contextual [hk]; done))

@[simp] theorem afterDrain_keeps (z : State) (c : Nat) (d : Drain) (partner : Option Nat) (before : Nat) (s : State) (hk : Keeps z s) :
    Keeps z (afterDrain c d partner before s) := by
  unfold afterDrain
  (try dsimp only)
  repeat' (first | (simp (maxDischargeDepth := 30) [hk]; done) | split | (simp (maxDischargeDepth := 30) +contextual [hk]; done))

@[simp] theorem sweepUnit_keeps (z : State) (c : Nat) (s : State) (hk : Keeps z s) :
    Keeps z (sweepUnit c s) := by
  unfold sweepUnit
  (try dsimp only)
  repeat' (first | (simp (maxDischargeDepth := 30) [hk]; done) | split | (simp (maxDischargeDepth := 30) +contextual [hk]; done))

@[simp] theorem writeSequencer_keeps (z : State) (l : List Readback) (c : Nat) (s : State) (hk : Keeps z s) :
    Keeps z (writeSequencer l c s) := by
  unfold writeSequencer
  (try dsimp only)
  repeat' (first | (simp (maxDischargeDepth := 30) [hk]; done) | split | (simp (maxDischargeDepth := 30) +contextual [hk]; done))

@[simp] theorem readbackEvent_keeps (z : State) (c : Nat) (s : State) (hk : Keeps z s) :
    Keeps z (readbackEvent c s) := by
  unfold readbackEvent
  (try dsimp only)
  repeat' (first | (simp (maxDischargeDepth := 30) [hk]; done) | split | (simp (maxDischargeDepth := 30) +contextual [hk]; done))

@[simp] theorem stayOut_keeps (z : State) (c : Nat) (s : State) (hk : Keeps z s) :
    Keeps z (stayOut c s) := by
  unfold stayOut
  (try dsimp only)
  repeat' (first | (simp (maxDischargeDepth := 30) [hk]; done) | split | (simp (maxDischargeDepth := 30) +contextual [hk]; done))

@[simp] theorem returnUnit_keeps (z : State) (l : List Readback) (c : Nat) (back : State → State) (s : State) (hk : Keeps z s) (h0 : ∀ x0, Keeps z x0 → Keeps z (back x0)) :
    Keeps z (returnUnit l c back s) := by
  unfold returnUnit
  (try dsimp only)
  repeat' (first | (simp (maxDischargeDepth := 30) [h0, hk]; done) | split | (simp (maxDischargeDepth := 30) +contextual [h0, hk]; done))

@[simp] theorem backAsSpare_keeps (z : State) (c : Nat) (s : State) (hk : Keeps z s) :
    Keeps z (backAsSpare c s) := by
  unfold backAsSpare
  (try dsimp only)
  repeat' (first | (simp (maxDischargeDepth := 30) [hk]; done) | split | (simp (maxDischargeDepth := 30) +contextual [hk]; done))

@[simp] theorem returnPair_keeps (z : State) (l : List Readback) (c p : Nat) (s : State) (hk : Keeps z s) :
    Keeps z (returnPair l c p s) := by
  unfold returnPair
  (try dsimp only)
  repeat' (first | (simp (maxDischargeDepth := 30) [hk]; done) | split | (simp (maxDischargeDepth := 30) +contextual [hk]; done))

@[simp] theorem bistRows_keeps (z : State) (n c : Nat) (s : State) (hk : Keeps z s) : Keeps z (bistRows n c s) := by
  induction n generalizing s with
  | zero => exact hk
  | succ n ih =>
    unfold bistRows
    split
    · exact hk
    · exact ih _ (by simp (maxDischargeDepth := 30) [hk])

@[simp] theorem testPassed_keeps (z : State) (t : UnitTest) (l : List Readback) (s : State) (hk : Keeps z s) :
    Keeps z (testPassed t l s) := by
  unfold testPassed
  (try dsimp only)
  repeat' (first | (simp (maxDischargeDepth := 30) [hk]; done) | split | (simp (maxDischargeDepth := 30) +contextual [hk]; done))

@[simp] theorem testFailed_keeps (z : State) (t : UnitTest) (res : Nat) (l : List Readback) (s : State) (hk : Keeps z s) :
    Keeps z (testFailed t res l s) := by
  unfold testFailed
  (try dsimp only)
  repeat' (first | (simp (maxDischargeDepth := 30) [hk]; done) | split | (simp (maxDischargeDepth := 30) +contextual [hk]; done))

@[simp] theorem retireTested_keeps (z : State) (t : UnitTest) (s : State) (hk : Keeps z s) :
    Keeps z (retireTested t s) := by
  unfold retireTested
  (try dsimp only)
  repeat' (first | (simp (maxDischargeDepth := 30) [hk]; done) | split | (simp (maxDischargeDepth := 30) +contextual [hk]; done))

@[simp] theorem staleSlot_keeps (z : State) (n : Nat) (s : State) (hk : Keeps z s) :
    Keeps z (staleSlot n s) := by
  unfold staleSlot
  (try dsimp only)
  repeat' (first | (simp (maxDischargeDepth := 30) [hk]; done) | split | (simp (maxDischargeDepth := 30) +contextual [hk]; done))

@[simp] theorem dropContext_keeps (z : State) (v : Nat) (s : State) (hk : Keeps z s) :
    Keeps z (dropContext v s) := by
  unfold dropContext
  (try dsimp only)
  repeat' (first | (simp (maxDischargeDepth := 30) [hk]; done) | split | (simp (maxDischargeDepth := 30) +contextual [hk]; done))

@[simp] theorem dropSession_keeps (z : State) (v : Nat) (s : State) (hk : Keeps z s) :
    Keeps z (dropSession v s) := by
  unfold dropSession
  (try dsimp only)
  repeat' (first | (simp (maxDischargeDepth := 30) [hk]; done) | split | (simp (maxDischargeDepth := 30) +contextual [hk]; done))

@[simp] theorem poisonRead_keeps (z : State) (n v : Nat) (s : State) (hk : Keeps z s) :
    Keeps z (poisonRead n v s) := by
  unfold poisonRead
  (try dsimp only)
  repeat' (first | (simp (maxDischargeDepth := 30) [hk]; done) | split | (simp (maxDischargeDepth := 30) +contextual [hk]; done))

@[simp] theorem loseFeed_keeps (z : State) (v : Nat) (s : State) (hk : Keeps z s) :
    Keeps z (loseFeed v s) := by
  unfold loseFeed
  (try dsimp only)
  repeat' (first | (simp (maxDischargeDepth := 30) [hk]; done) | split | (simp (maxDischargeDepth := 30) +contextual [hk]; done))

@[simp] theorem retryRunning_keeps (z : State) (c : Nat) (s : State) (hk : Keeps z s) :
    Keeps z (retryRunning c s) := by
  unfold retryRunning
  (try dsimp only)
  repeat' (first | (simp (maxDischargeDepth := 30) [hk]; done) | split | (simp (maxDischargeDepth := 30) +contextual [hk]; done))

@[simp] theorem loseOneMessage_keeps (z : State) (c v : Nat) (s : State) (hk : Keeps z s) :
    Keeps z (loseOneMessage c v s) := by
  unfold loseOneMessage
  (try dsimp only)
  repeat' (first | (simp (maxDischargeDepth := 30) [hk]; done) | split | (simp (maxDischargeDepth := 30) +contextual [hk]; done))

@[simp] theorem failLeaseJobs_keeps (z : State) (wid : Nat) (s : State) (hk : Keeps z s) :
    Keeps z (failLeaseJobs wid s) := by
  unfold failLeaseJobs
  (try dsimp only)
  repeat' (first | (simp (maxDischargeDepth := 30) [hk]; done) | split | (simp (maxDischargeDepth := 30) +contextual [hk]; done))

@[simp] theorem loseWindow_keeps (z : State) (c v : Nat) (s : State) (hk : Keeps z s) : Keeps z (loseWindow c v s) := by
  unfold loseWindow
  split
  · exact hk
  · refine failLeaseJobs_keeps _ _ _ (Keeps.trans hk ⟨rfl, rfl, rfl, rfl, id, id, leasesSound_map _ _ ?_⟩)
    intro e h
    dsimp only
    split
    · exact Memory_filter_wf _ _ h
    · exact h

@[simp] theorem wordLost_keeps (z : State) (a : Nat) (s0 : State) (hk : Keeps z s0) :
    Keeps z (wordLost a s0) := by
  unfold wordLost
  (try dsimp only)
  repeat' (first | (simp (maxDischargeDepth := 30) [hk]; done) | split | (simp (maxDischargeDepth := 30) +contextual [hk]; done))

@[simp] theorem eccCorrected_keeps (z : State) (a row word : Nat) (s : State) (hk : Keeps z s) :
    Keeps z (eccCorrected a row word s) := by
  unfold eccCorrected
  (try dsimp only)
  repeat' (first | (simp (maxDischargeDepth := 30) [hk]; done) | split | (simp (maxDischargeDepth := 30) +contextual [hk]; done))

@[simp] theorem eccUncorrectable_keeps (z : State) (a row word : Nat) (s : State) (hk : Keeps z s) :
    Keeps z (eccUncorrectable a row word s) := by
  unfold eccUncorrectable
  (try dsimp only)
  repeat' (first | (simp (maxDischargeDepth := 30) [hk]; done) | split | (simp (maxDischargeDepth := 30) +contextual [hk]; done))

@[simp] theorem eventCost_keeps (z : State) (src kind addr : Nat) (s : State) (hk : Keeps z s) :
    Keeps z (eventCost src kind addr s) := by
  unfold eventCost
  (try dsimp only)
  repeat' (first | (simp (maxDischargeDepth := 30) [hk]; done) | split | (simp (maxDischargeDepth := 30) +contextual [hk]; done))

@[simp] theorem modLane_keeps (z : State) (i : Nat) (f : Lane → Lane) (s : State) (hk : Keeps z s) :
    Keeps z (modLane i f s) := by
  unfold modLane
  (try dsimp only)
  repeat' (first | (simp (maxDischargeDepth := 30) [hk]; done) | split | (simp (maxDischargeDepth := 30) +contextual [hk]; done))

@[simp] theorem trainSteps_keeps (z : State) (s : State) (hk : Keeps z s) :
    Keeps z (trainSteps s) := by
  unfold trainSteps
  (try dsimp only)
  repeat' (first | (simp (maxDischargeDepth := 30) [hk]; done) | split | (simp (maxDischargeDepth := 30) +contextual [hk]; done))

@[simp] theorem linkDown_keeps (z : State) (healthy : Nat) (s : State) (hk : Keeps z s) :
    Keeps z (linkDown healthy s) := by
  unfold linkDown
  (try dsimp only)
  repeat' (first | (simp (maxDischargeDepth := 30) [hk]; done) | split | (simp (maxDischargeDepth := 30) +contextual [hk]; done))

@[simp] theorem moveLane_keeps (z : State) (i j : Nat) (s : State) (hk : Keeps z s) :
    Keeps z (moveLane i j s) := by
  unfold moveLane
  (try dsimp only)
  repeat' (first | (simp (maxDischargeDepth := 30) [hk]; done) | split | (simp (maxDischargeDepth := 30) +contextual [hk]; done))

@[simp] theorem narrowLink_keeps (z : State) (i : Nat) (s : State) (hk : Keeps z s) :
    Keeps z (narrowLink i s) := by
  unfold narrowLink
  (try dsimp only)
  repeat' (first | (simp (maxDischargeDepth := 30) [hk]; done) | split | (simp (maxDischargeDepth := 30) +contextual [hk]; done))

@[simp] theorem loseLane_keeps (z : State) (i : Nat) (s : State) (hk : Keeps z s) :
    Keeps z (loseLane i s) := by
  unfold loseLane
  (try dsimp only)
  repeat' (first | (simp (maxDischargeDepth := 30) [hk]; done) | split | (simp (maxDischargeDepth := 30) +contextual [hk]; done))

@[simp] theorem lanesWrite_keeps (z : State) (b : Bytes) (s : State) (hk : Keeps z s) :
    Keeps z (lanesWrite b s) := by
  unfold lanesWrite
  (try dsimp only)
  repeat' (first | (simp (maxDischargeDepth := 30) [hk]; done) | split | (simp (maxDischargeDepth := 30) +contextual [hk]; done))

@[simp] theorem lanesRead_keeps (z : State) (b : Bytes) (s : State) (hk : Keeps z s) :
    Keeps z (lanesRead b s) := by
  unfold lanesRead
  (try dsimp only)
  repeat' (first | (simp (maxDischargeDepth := 30) [hk]; done) | split | (simp (maxDischargeDepth := 30) +contextual [hk]; done))

@[simp] theorem takeMessage_keeps (z : State) (b : Bytes) (s : State) (hk : Keeps z s) :
    Keeps z (takeMessage b s) := by
  unfold takeMessage
  (try dsimp only)
  repeat' (first | (simp (maxDischargeDepth := 30) [hk]; done) | split | (simp (maxDischargeDepth := 30) +contextual [hk]; done))

@[simp] theorem takeFlitCredits_keeps (z : State) (b : Bytes) (s : State) (hk : Keeps z s) :
    Keeps z (takeFlitCredits b s) := by
  unfold takeFlitCredits
  (try dsimp only)
  repeat' (first | (simp (maxDischargeDepth := 30) [hk]; done) | split | (simp (maxDischargeDepth := 30) +contextual [hk]; done))

@[simp] theorem sendNak_keeps (z : State) (s : State) (hk : Keeps z s) :
    Keeps z (sendNak s) := by
  unfold sendNak
  (try dsimp only)
  repeat' (first | (simp (maxDischargeDepth := 30) [hk]; done) | split | (simp (maxDischargeDepth := 30) +contextual [hk]; done))

@[simp] theorem takeNak_keeps (z : State) (n : Nat) (s : State) (hk : Keeps z s) :
    Keeps z (takeNak n s) := by
  unfold takeNak
  (try dsimp only)
  repeat' (first | (simp (maxDischargeDepth := 30) [hk]; done) | split | (simp (maxDischargeDepth := 30) +contextual [hk]; done))

@[simp] theorem obeyMap_keeps (z : State) (m : List (Nat × Nat)) (s : State) (hk : Keeps z s) :
    Keeps z (obeyMap m s) := by
  unfold obeyMap
  (try dsimp only)
  repeat' (first | (simp (maxDischargeDepth := 30) [hk]; done) | split | (simp (maxDischargeDepth := 30) +contextual [hk]; done))

@[simp] theorem takeFlit_keeps (z : State) (b : Bytes) (s : State) (hk : Keeps z s) :
    Keeps z (takeFlit b s) := by
  unfold takeFlit
  (try dsimp only)
  repeat' (first | (simp (maxDischargeDepth := 30) [hk]; done) | split | (simp (maxDischargeDepth := 30) +contextual [hk]; done))

theorem tick_keeps (s : State) :
    Keeps { s with clk := { s.clk with now := s.clk.now + 1 }, tim := if aonOn s then tickTim s.tim else s.tim } (tick s) := by
  simp (maxDischargeDepth := 30) [tick]

end Sys2Proof.Machine
end

