-- ==== Sys2Proof/Laws/Kept8.lean ====
section
/-! SUPPORT. What the operations keep: the stores, the image and reset. One lemma per operation. -/
namespace Sys2Proof.Machine
open Sys2Proof.Safety
set_option linter.unusedSimpArgs false

@[simp] theorem retireSector_keeps (z : State) (l : Nat) (s : State) (hk : Keeps z s) :
    Keeps z (retireSector l s) := by
  unfold retireSector
  (try dsimp only)
  repeat' (first | (simp (maxDischargeDepth := 30) [hk]; done) | split | (simp (maxDischargeDepth := 30) +contextual [hk]; done))

@[simp] theorem correctSector_keeps (z : State) (l : Nat) (s : State) (hk : Keeps z s) :
    Keeps z (correctSector l s) := by
  unfold correctSector
  (try dsimp only)
  repeat' (first | (simp (maxDischargeDepth := 30) [hk]; done) | split | (simp (maxDischargeDepth := 30) +contextual [hk]; done))

@[simp] theorem nvmDone_keeps (z : State) (cid : Option Nat) (s : State) (hk : Keeps z s) :
    Keeps z (nvmDone cid s) := by
  unfold nvmDone
  (try dsimp only)
  repeat' (first | (simp (maxDischargeDepth := 30) [hk]; done) | split | (simp (maxDischargeDepth := 30) +contextual [hk]; done))

@[simp] theorem nvmFail_keeps (z : State) (o : NvmOp) (rest : List NvmOp) (s : State) (hk : Keeps z s) :
    Keeps z (nvmFail o rest s) := by
  unfold nvmFail
  (try dsimp only)
  repeat' (first | (simp (maxDischargeDepth := 30) [hk]; done) | split | (simp (maxDischargeDepth := 30) +contextual [hk]; done))

@[simp] theorem applyCore_keeps (z : State) (x : Settings) (s : State) (hk : Keeps z s) : Keeps z (applyCore x s) :=
  hk.trans ⟨rfl, rfl, rfl, rfl, faultsSound_of _ _ rfl rfl rfl rfl, id, id⟩

@[simp] theorem applyKept_keeps (z : State) (x : Settings) (s : State) (hk : Keeps z s) :
    Keeps z (applyKept x s) := by
  unfold applyKept
  (try dsimp only)
  repeat' (first | (simp (maxDischargeDepth := 30) [hk]; done) | split | (simp (maxDischargeDepth := 30) +contextual [hk]; done))

@[simp] theorem storeRecord_keeps (z : State) (e : CmdEntry) (x : Settings) (s : State) (hk : Keeps z s) :
    Keeps z (storeRecord e x s) := by
  unfold storeRecord
  (try dsimp only)
  repeat' (first | (simp (maxDischargeDepth := 30) [hk]; done) | split | (simp (maxDischargeDepth := 30) +contextual [hk]; done))

@[simp] theorem startReplay_keeps (z : State) (why : ReplayWhy) (s : State) (hk : Keeps z s) :
    Keeps z (startReplay why s) := by
  unfold startReplay
  (try dsimp only)
  repeat' (first | (simp (maxDischargeDepth := 30) [hk]; done) | split | (simp (maxDischargeDepth := 30) +contextual [hk]; done))

@[simp] theorem endHold_keeps (z : State) (s : State) (hk : Keeps z s) :
    Keeps z (endHold s) := by
  unfold endHold
  (try dsimp only)
  repeat' (first | (simp (maxDischargeDepth := 30) [hk]; done) | split | (simp (maxDischargeDepth := 30) +contextual [hk]; done))

@[simp] theorem queueOps_keeps (z : State) (l : List NvmOp) (s : State) (hk : Keeps z s) :
    Keeps z (queueOps l s) := by
  unfold queueOps
  (try dsimp only)
  repeat' (first | (simp (maxDischargeDepth := 30) [hk]; done) | split | (simp (maxDischargeDepth := 30) +contextual [hk]; done))

@[simp] theorem failTransfer_keeps (z : State) (e : CmdEntry) (st : Status) (s : State) (hk : Keeps z s) :
    Keeps z (failTransfer e st s) := by
  unfold failTransfer
  (try dsimp only)
  repeat' (first | (simp (maxDischargeDepth := 30) [hk]; done) | split | (simp (maxDischargeDepth := 30) +contextual [hk]; done))

@[simp] theorem failActivation_keeps (z : State) (s : State) (hk : Keeps z s) :
    Keeps z (failActivation s) := by
  unfold failActivation
  (try dsimp only)
  repeat' (first | (simp (maxDischargeDepth := 30) [hk]; done) | split | (simp (maxDischargeDepth := 30) +contextual [hk]; done))

@[simp] theorem prepare_keeps (z : State) (now_ : Bool) (s : State) (hk : Keeps z s) :
    Keeps z (prepare now_ s) := by
  unfold prepare
  (try dsimp only)
  repeat' (first | (simp (maxDischargeDepth := 30) [hk]; done) | split | (simp (maxDischargeDepth := 30) +contextual [hk]; done))

@[simp] theorem beginPause_keeps (z : State) (s : State) (hk : Keeps z s) :
    Keeps z (beginPause s) := by
  unfold beginPause
  (try dsimp only)
  repeat' (first | (simp (maxDischargeDepth := 30) [hk]; done) | split | (simp (maxDischargeDepth := 30) +contextual [hk]; done))

@[simp] theorem endPause_keeps (z : State) (s : State) (hk : Keeps z s) :
    Keeps z (endPause s) := by
  unfold endPause
  (try dsimp only)
  repeat' (first | (simp (maxDischargeDepth := 30) [hk]; done) | split | (simp (maxDischargeDepth := 30) +contextual [hk]; done))

@[simp] theorem offRollover_keeps (z : State) (c : Nat) (s : State) (hk : Keeps z s) :
    Keeps z (offRollover c s) := by
  unfold offRollover
  (try dsimp only)
  repeat' (first | (simp (maxDischargeDepth := 30) [hk]; done) | split | (simp (maxDischargeDepth := 30) +contextual [hk]; done))

@[simp] theorem reloaded_keeps (z : State) (l : List Readback) (c : Nat) (s : State) (hk : Keeps z s) :
    Keeps z (reloaded l c s) := by
  unfold reloaded
  (try dsimp only)
  repeat' (first | (simp (maxDischargeDepth := 30) [hk]; done) | split | (simp (maxDischargeDepth := 30) +contextual [hk]; done))

@[simp] theorem returnReloaded_keeps (z : State) (l : List Readback) (c : Nat) (s : State) (hk : Keeps z s) :
    Keeps z (returnReloaded l c s) := by
  unfold returnReloaded
  (try dsimp only)
  repeat' (first | (simp (maxDischargeDepth := 30) [hk]; done) | split | (simp (maxDischargeDepth := 30) +contextual [hk]; done))

@[simp] theorem relayForward_keeps (z : State) (e : CmdEntry) (b : Bytes) (s : State) (hk : Keeps z s) :
    Keeps z (relayForward e b s) := by
  unfold relayForward
  (try dsimp only)
  repeat' (first | (simp (maxDischargeDepth := 30) [hk]; done) | split | (simp (maxDischargeDepth := 30) +contextual [hk]; done))

@[simp] theorem relayWritten_keeps (z : State) (e : CmdEntry) (b : Bytes) (s : State) (hk : Keeps z s) :
    Keeps z (relayWritten e b s) := by
  unfold relayWritten
  (try dsimp only)
  repeat' (first | (simp (maxDischargeDepth := 30) [hk]; done) | split | (simp (maxDischargeDepth := 30) +contextual [hk]; done))

@[simp] theorem relayChunk_keeps (z : State) (e : CmdEntry) (b : Bytes) (s : State) (hk : Keeps z s) :
    Keeps z (relayChunk e b s) := by
  unfold relayChunk
  (try dsimp only)
  repeat' (first | (simp (maxDischargeDepth := 30) [hk]; done) | split | (simp (maxDischargeDepth := 30) +contextual [hk]; done))

theorem schedule_keeps (z : State) (a b : Nat) (s s1 : State) (h : schedule a b s = some s1) (hk : Keeps z s) : Keeps z s1 := by
  unfold schedule at h
  dsimp only at h
  split at h
  · cases h
  · cases h
    refine keeps_ite _ _ _ _ ?_ ?_
    all_goals simp (maxDischargeDepth := 30) [hk]
@[simp] theorem relaySchedule_keeps (z : State) (e : CmdEntry) (b : Bytes) (s : State) (hk : Keeps z s) : Keeps z (relaySchedule e b s) := by
  unfold relaySchedule
  repeat' split
  all_goals try (simp (maxDischargeDepth := 30) [hk]; done)
  rename_i h
  exact relayForward_keeps _ _ _ _ (schedule_keeps _ _ _ _ _ h hk)

@[simp] theorem relayAbort_keeps (z : State) (e : CmdEntry) (b : Bytes) (s : State) (hk : Keeps z s) :
    Keeps z (relayAbort e b s) := by
  unfold relayAbort
  (try dsimp only)
  repeat' (first | (simp (maxDischargeDepth := 30) [hk]; done) | split | (simp (maxDischargeDepth := 30) +contextual [hk]; done))

@[simp] theorem eraseContent_keeps (z : State) (l : Nat) (s : State) (hk : Keeps z s) :
    Keeps z (eraseContent l s) := by
  unfold eraseContent
  (try dsimp only)
  repeat' (first | (simp (maxDischargeDepth := 30) [hk]; done) | split | (simp (maxDischargeDepth := 30) +contextual [hk]; done))

@[simp] theorem markHalf_keeps (z : State) (l : Nat) (s : State) (hk : Keeps z s) :
    Keeps z (markHalf l s) := by
  unfold markHalf
  (try dsimp only)
  repeat' (first | (simp (maxDischargeDepth := 30) [hk]; done) | split | (simp (maxDischargeDepth := 30) +contextual [hk]; done))

@[simp] theorem cutOp_keeps (z : State) (o : NvmOp) (s0 : State) (hk : Keeps z s0) :
    Keeps z (cutOp o s0) := by
  unfold cutOp
  (try dsimp only)
  repeat' (first | (simp (maxDischargeDepth := 30) [hk]; done) | split | (simp (maxDischargeDepth := 30) +contextual [hk]; done))

@[simp] theorem settleOps_keeps (z : State) (s : State) (hk : Keeps z s) :
    Keeps z (settleOps s) := by
  unfold settleOps
  (try dsimp only)
  repeat' (first | (simp (maxDischargeDepth := 30) [hk]; done) | split | (simp (maxDischargeDepth := 30) +contextual [hk]; done))

theorem fltReset_sound (f : Flt) : FaultsSound (fltReset f) := by
  refine ⟨List.nodup_nil, fun hn => absurd ?_ hn⟩
  unfold unacked fltReset
  generalize f.sources = t
  induction t with
  | nil => rfl
  | cons e r ih => simpa [tcount, tmap] using ih
@[simp] theorem coreReset_keeps (z : State) (s : State) (hk : Keeps z s) : Keeps z (coreReset s) := by
  have h := settleOps_keeps z s hk
  exact ⟨h.1, h.2.1, h.2.2.1, h.2.2.2.1, fun _ => fltReset_sound _, h.2.2.2.2.2.1, fun _ => leasesSound_nil⟩

theorem fullReset_keeps (p : Bool) (s : State) :
    Keeps { s with clk := { s.clk with now := 0 }, tim := State.reset.tim } (fullReset p s) := by
  have h : ∀ o, Keeps s (cutOp o s) := fun o => by simp
  have g : Keeps s (match s.nvm.ops with | o :: _ => if aonOn s then cutOp o s else s | [] => s) := by
    split
    · exact keeps_ite _ _ _ _ (h _) (keeps_refl s)
    · exact keeps_refl s
  exact ⟨g.1, g.2.1, rfl, rfl, fun _ => ⟨List.nodup_nil, fun hn => absurd rfl hn⟩, fun _ => ⟨rfl, rfl⟩, fun _ => leasesSound_nil⟩

@[simp] theorem setOps_keeps (z : State) (l : List NvmOp) (s : State) (hk : Keeps z s) :
    Keeps z (setOps l s) := by
  unfold setOps
  (try dsimp only)
  repeat' (first | (simp (maxDischargeDepth := 30) [hk]; done) | split | (simp (maxDischargeDepth := 30) +contextual [hk]; done))

@[simp] theorem recordEffect_keeps (z : State) (w : NvmWork) (s : State) (hk : Keeps z s) :
    Keeps z (recordEffect w s) := by
  unfold recordEffect
  (try dsimp only)
  repeat' (first | (simp (maxDischargeDepth := 30) [hk]; done) | split | (simp (maxDischargeDepth := 30) +contextual [hk]; done))

@[simp] theorem counterEffect_keeps (z : State) (cid : Option Nat) (id value : Nat) (s : State) (hk : Keeps z s) :
    Keeps z (counterEffect cid id value s) := by
  unfold counterEffect
  (try dsimp only)
  repeat' (first | (simp (maxDischargeDepth := 30) [hk]; done) | split | (simp (maxDischargeDepth := 30) +contextual [hk]; done))

@[simp] theorem bankEffect_keeps (z : State) (cid : Option Nat) (b version : Nat) (s : State) (hk : Keeps z s) :
    Keeps z (bankEffect cid b version s) := by
  unfold bankEffect
  (try dsimp only)
  repeat' (first | (simp (maxDischargeDepth := 30) [hk]; done) | split | (simp (maxDischargeDepth := 30) +contextual [hk]; done))

theorem transitionEffect_keeps (a b c : Nat) (d : Bytes) (s : State) :
    Keeps { s with fuse := { s.fuse with lifecycle := if s.fuse.lifecycle = a then b else s.fuse.lifecycle } } (transitionEffect a b c d s) :=
  coreReset_keeps _ _ ⟨rfl, rfl, rfl, rfl, id, id, id⟩

@[simp] theorem chunkWritten_keeps (z : State) (cid : Option Nat) (i : Nat) (s : State) (hk : Keeps z s) :
    Keeps z (chunkWritten cid i s) := by
  unfold chunkWritten
  (try dsimp only)
  repeat' (first | (simp (maxDischargeDepth := 30) [hk]; done) | split | (simp (maxDischargeDepth := 30) +contextual [hk]; done))

@[simp] theorem verified_keeps (z : State) (o : NvmOp) (rest : List NvmOp) (s : State) (hk : Keeps z s)
    (hw : ∀ a b n d, o.work ≠ .transition a b n d) : Keeps z (verified o rest s) := by
  unfold verified
  dsimp only
  repeat' (first | (simp (maxDischargeDepth := 30) [hk]; done) | split)
  rename_i h
  exact absurd h (hw _ _ _ _)

@[simp] theorem failedVerify_keeps (z : State) (l : Nat) (o : NvmOp) (rest : List NvmOp) (s : State) (hk : Keeps z s) :
    Keeps z (failedVerify l o rest s) := by
  unfold failedVerify
  (try dsimp only)
  repeat' (first | (simp (maxDischargeDepth := 30) [hk]; done) | split | (simp (maxDischargeDepth := 30) +contextual [hk]; done))

@[simp] theorem uncorrectableWord_keeps (z : State) (l : Nat) (s : State) (hk : Keeps z s) :
    Keeps z (uncorrectableWord l s) := by
  unfold uncorrectableWord
  (try dsimp only)
  repeat' (first | (simp (maxDischargeDepth := 30) [hk]; done) | split | (simp (maxDischargeDepth := 30) +contextual [hk]; done))

@[simp] theorem countErases_keeps (z : State) (l k : Nat) (s : State) (hk : Keeps z s) :
    Keeps z (countErases l k s) := by
  unfold countErases
  (try dsimp only)
  repeat' (first | (simp (maxDischargeDepth := 30) [hk]; done) | split | (simp (maxDischargeDepth := 30) +contextual [hk]; done))

@[simp] theorem eraseRetire_keeps (z : State) (l : Nat) (blank : Bool) (s : State) (hk : Keeps z s) :
    Keeps z (eraseRetire l blank s) := by
  unfold eraseRetire
  (try dsimp only)
  repeat' (first | (simp (maxDischargeDepth := 30) [hk]; done) | split | (simp (maxDischargeDepth := 30) +contextual [hk]; done))

@[simp] theorem restartOp_keeps (z : State) (o : NvmOp) (s : State) (hk : Keeps z s) :
    Keeps z (restartOp o s) := by
  unfold restartOp
  (try dsimp only)
  repeat' (first | (simp (maxDischargeDepth := 30) [hk]; done) | split | (simp (maxDischargeDepth := 30) +contextual [hk]; done))

end Sys2Proof.Machine
end

