-- ==== Sys2Proof/Laws/Kept9.lean ====
section
/-! SUPPORT. What the operations keep: identity, escalation, the start, power and the card. One lemma per operation. -/
namespace Sys2Proof.Machine
open Sys2Proof.Safety
set_option linter.unusedSimpArgs false

@[simp] theorem bookHook_keeps (z : State) (n : Nat) (s s1 : State) (h : bookHook n s = some s1) (hk : Keeps z s) : Keeps z s1 := by
  unfold bookHook at h
  split at h
  · cases h
  · injection h with h
    subst h
    exact hk
@[simp] theorem onHook_keeps (z : State) (e : CmdEntry) (cycles : Nat) (f : State → State) (s : State) (hk : Keeps z s)
    (h0 : ∀ x, Keeps z x → Keeps z (f x)) : Keeps z (onHook e cycles f s) := by
  unfold onHook
  split
  · rename_i h
    exact h0 _ (bookHook_keeps _ _ _ _ h hk)
  · split
    · simp (maxDischargeDepth := 30) [hk]
    · exact hk

@[simp] theorem idRefuse_keeps (z : State) (e : CmdEntry) (st : Status) (s : State) (hk : Keeps z s) :
    Keeps z (idRefuse e st s) := by
  unfold idRefuse
  (try dsimp only)
  repeat' (first | (simp (maxDischargeDepth := 30) [hk]; done) | split | (simp (maxDischargeDepth := 30) +contextual [hk]; done))

@[simp] theorem idChecked_keeps (z : State) (e : CmdEntry) (srcLen out : Nat) (states : List Nat) (f : State → State) (s : State) (hk : Keeps z s) (h0 : ∀ x0, Keeps z x0 → Keeps z (f x0)) :
    Keeps z (idChecked e srcLen out states f s) := by
  unfold idChecked
  (try dsimp only)
  repeat' (first | (simp (maxDischargeDepth := 30) [h0, hk]; done) | split | (simp (maxDischargeDepth := 30) +contextual [h0, hk]; done))

@[simp] theorem withInput_keeps (z : State) (e : CmdEntry) (n : Nat) (f : Bytes → State → State) (s : State) (hk : Keeps z s) (h0 : ∀ x0 x1, Keeps z x1 → Keeps z (f x0 x1)) :
    Keeps z (withInput e n f s) := by
  unfold withInput
  (try dsimp only)
  repeat' (first | (simp (maxDischargeDepth := 30) [h0, hk]; done) | split | (simp (maxDischargeDepth := 30) +contextual [h0, hk]; done))

@[simp] theorem idOutput_keeps (z : State) (e : CmdEntry) (out : Bytes) (s : State) (hk : Keeps z s) :
    Keeps z (idOutput e out s) := by
  unfold idOutput
  (try dsimp only)
  repeat' (first | (simp (maxDischargeDepth := 30) [hk]; done) | split | (simp (maxDischargeDepth := 30) +contextual [hk]; done))

@[simp] theorem idWait_keeps (z : State) (e : CmdEntry) (ops : List NvmOp) (s : State) (hk : Keeps z s) :
    Keeps z (idWait e ops s) := by
  unfold idWait
  (try dsimp only)
  repeat' (first | (simp (maxDischargeDepth := 30) [hk]; done) | split | (simp (maxDischargeDepth := 30) +contextual [hk]; done))

@[simp] theorem abortTransfer_keeps (z : State) (s : State) (hk : Keeps z s) :
    Keeps z (abortTransfer s) := by
  unfold abortTransfer
  (try dsimp only)
  repeat' (first | (simp (maxDischargeDepth := 30) [hk]; done) | split | (simp (maxDischargeDepth := 30) +contextual [hk]; done))

@[simp] theorem takeover_keeps (z : State) (k : Nat) (s : State) (hk : Keeps z s) : Keeps z (takeover k s) := by
  unfold takeover
  extract_lets old busy b1 s1 s2 keep s3 w4 s4
  have k1 : Keeps z s1 := Keeps.trans hk ⟨rfl, rfl, rfl, rfl, id, fun _ => setScribe_sound _ _ _ (award_sound _ _ _), id⟩
  have k2 : Keeps z s2 := abortTransfer_keeps _ _ k1
  have k3 : Keeps z s3 := by
    refine sendReply_keeps _ _ ?_
    exact k2
  have k4 : Keeps z s4 := k3
  exact keeps_ite _ _ _ _ (keeps_ite _ _ _ _ (beginPause_keeps _ _ k4) k4) k3

@[simp] theorem batonFault_keeps (z : State) (s : State) (hk : Keeps z s) :
    Keeps z (batonFault s) := by
  unfold batonFault
  (try dsimp only)
  repeat' (first | (simp (maxDischargeDepth := 30) [hk]; done) | split | (simp (maxDischargeDepth := 30) +contextual [hk]; done))

@[simp] theorem configWrite_keeps (z : State) (k epoch : Nat) (f : State → State) (s : State) (hk : Keeps z s) (h0 : ∀ x, Keeps z x → Keeps z (f x)) :
    Keeps z (configWrite k epoch f s) := by
  unfold configWrite
  exact keeps_ite _ _ _ _ (batonFault_keeps _ _ hk) (keeps_ite _ _ _ _ (h0 _ hk) (Keeps.trans hk ⟨rfl, rfl, rfl, rfl, id, fun h => h, id⟩))

@[simp] theorem lateWrite_keeps (z : State) (k : Nat) (s : State) (hk : Keeps z s) : Keeps z (lateWrite k s) := by
  unfold lateWrite
  split
  · exact keeps_ite _ _ _ _ (configWrite_keeps _ _ _ _ _ (Keeps.trans hk ⟨rfl, rfl, rfl, rfl, id, fun h => h, id⟩) fun _ h => h) hk
  · exact hk

@[simp] theorem isolateUnit_keeps (z : State) (c : Nat) (s : State) (hk : Keeps z s) :
    Keeps z (isolateUnit c s) := by
  unfold isolateUnit
  (try dsimp only)
  repeat' (first | (simp (maxDischargeDepth := 30) [hk]; done) | split | (simp (maxDischargeDepth := 30) +contextual [hk]; done))

@[simp] theorem escalateUnit_keeps (z : State) (c : Nat) (s : State) (hk : Keeps z s) : Keeps z (escalateUnit c s) := by
  unfold escalateUnit
  dsimp only
  repeat' split
  all_goals try (simp (maxDischargeDepth := 30) [hk]; done)
  exact hk.trans ⟨rfl, rfl, rfl, rfl, faultsSound_of _ _ rfl rfl rfl rfl, id, id⟩

@[simp] theorem escalateCell_keeps (z : State) (c : Nat) (s : State) (hk : Keeps z s) :
    Keeps z (escalateCell c s) := by
  unfold escalateCell
  (try dsimp only)
  repeat' (first | (simp (maxDischargeDepth := 30) [hk]; done) | split | (simp (maxDischargeDepth := 30) +contextual [hk]; done))

@[simp] theorem escalatePort_keeps (z : State) (src : Nat) (s : State) (hk : Keeps z s) :
    Keeps z (escalatePort src s) := by
  unfold escalatePort
  (try dsimp only)
  repeat' (first | (simp (maxDischargeDepth := 30) [hk]; done) | split | (simp (maxDischargeDepth := 30) +contextual [hk]; done))

@[simp] theorem escalateLane_keeps (z : State) (src : Nat) (s : State) (hk : Keeps z s) :
    Keeps z (escalateLane src s) := by
  unfold escalateLane
  (try dsimp only)
  repeat' (first | (simp (maxDischargeDepth := 30) [hk]; done) | split | (simp (maxDischargeDepth := 30) +contextual [hk]; done))

@[simp] theorem escalateSilent_keeps (z : State) (src : Nat) (s : State) (hk : Keeps z s) :
    Keeps z (escalateSilent src s) := by
  unfold escalateSilent
  (try dsimp only)
  repeat' (first | (simp (maxDischargeDepth := 30) [hk]; done) | split | (simp (maxDischargeDepth := 30) +contextual [hk]; done))

@[simp] theorem escalateRow_keeps (z : State) (src : Nat) (s : State) (hk : Keeps z s) :
    Keeps z (escalateRow src s) := by
  unfold escalateRow
  (try dsimp only)
  repeat' (first | (simp (maxDischargeDepth := 30) [hk]; done) | split | (simp (maxDischargeDepth := 30) +contextual [hk]; done))

@[simp] theorem escalateScribe_keeps (z : State) (src : Nat) (s : State) (hk : Keeps z s) :
    Keeps z (escalateScribe src s) := by
  unfold escalateScribe
  (try dsimp only)
  repeat' (first | (simp (maxDischargeDepth := 30) [hk]; done) | split | (simp (maxDischargeDepth := 30) +contextual [hk]; done))

@[simp] theorem escalate_keeps (z : State) (src : Nat) (s : State) (hk : Keeps z s) :
    Keeps z (escalate src s) := by
  unfold escalate
  (try dsimp only)
  repeat' (first | (simp (maxDischargeDepth := 30) [hk]; done) | split | (simp (maxDischargeDepth := 30) +contextual [hk]; done))

@[simp] theorem loadRepairs_keeps (z : State) (s : State) (hk : Keeps z s) :
    Keeps z (loadRepairs s) := by
  unfold loadRepairs
  (try dsimp only)
  repeat' (first | (simp (maxDischargeDepth := 30) [hk]; done) | split | (simp (maxDischargeDepth := 30) +contextual [hk]; done))

@[simp] theorem recoverErases_keeps (z : State) (s : State) (hk : Keeps z s) :
    Keeps z (recoverErases s) := by
  unfold recoverErases
  (try dsimp only)
  repeat' (first | (simp (maxDischargeDepth := 30) [hk]; done) | split | (simp (maxDischargeDepth := 30) +contextual [hk]; done))

@[simp] theorem lifecycleErase_keeps (z : State) (s : State) (hk : Keeps z s) :
    Keeps z (lifecycleErase s) := by
  unfold lifecycleErase
  (try dsimp only)
  repeat' (first | (simp (maxDischargeDepth := 30) [hk]; done) | split | (simp (maxDischargeDepth := 30) +contextual [hk]; done))

@[simp] theorem startFail_keeps (z : State) (cause : Nat) (s : State) (hk : Keeps z s) :
    Keeps z (startFail cause s) := by
  unfold startFail
  (try dsimp only)
  repeat' (first | (simp (maxDischargeDepth := 30) [hk]; done) | split | (simp (maxDischargeDepth := 30) +contextual [hk]; done))

@[simp] theorem runImage_keeps (z : State) (s : State) (hk : Keeps z s) :
    Keeps z (runImage s) := by
  unfold runImage
  (try dsimp only)
  repeat' (first | (simp (maxDischargeDepth := 30) [hk]; done) | split | (simp (maxDischargeDepth := 30) +contextual [hk]; done))

@[simp] theorem verifyImage_keeps (z : State) (s : State) (hk : Keeps z s) :
    Keeps z (verifyImage s) := by
  unfold verifyImage
  (try dsimp only)
  repeat' (first | (simp (maxDischargeDepth := 30) [hk]; done) | split | (simp (maxDischargeDepth := 30) +contextual [hk]; done))

@[simp] theorem bootRecords_keeps (z : State) (s : State) (hk : Keeps z s) :
    Keeps z (bootRecords s) := by
  unfold bootRecords
  (try dsimp only)
  repeat' (first | (simp (maxDischargeDepth := 30) [hk]; done) | split | (simp (maxDischargeDepth := 30) +contextual [hk]; done))

@[simp] theorem bistEvent_keeps (z : State) (src : Nat) (r : Option TestOutcome) (s : State) (hk : Keeps z s) :
    Keeps z (bistEvent src r s) := by
  unfold bistEvent
  (try dsimp only)
  repeat' (first | (simp (maxDischargeDepth := 30) [hk]; done) | split | (simp (maxDischargeDepth := 30) +contextual [hk]; done))

@[simp] theorem startScribes_keeps (z : State) (a b : Option TestOutcome) (s : State) (hk : Keeps z s) : Keeps z (startScribes a b s) := by
  unfold startScribes
  dsimp only
  have k1 : ∀ x, Keeps z x → Keeps z (if testFails a = true then bistEvent 0x0A0 a x else x) := fun x hx =>
    keeps_ite _ _ _ _ (by simp [hx]) hx
  have k2 := keeps_ite (testFails b = true) z _ _ (bistEvent_keeps z 0x0A1 b _ (k1 s hk)) (k1 s hk)
  split
  · apply startFail_keeps
    exact Keeps.trans k2 ⟨rfl, rfl, rfl, rfl, id, fun h => h, id⟩
  · exact Keeps.trans k2 ⟨rfl, rfl, rfl, rfl, id, fun _ => setScribe_sound _ _ _ (award_sound _ _ _), id⟩

@[simp] theorem loadSettings_keeps (z : State) (por : Bool) (s : State) (hk : Keeps z s) :
    Keeps z (loadSettings por s) := by
  unfold loadSettings
  (try dsimp only)
  repeat' (first | (simp (maxDischargeDepth := 30) [hk]; done) | split | (simp (maxDischargeDepth := 30) +contextual [hk]; done))

@[simp] theorem carveAgain_keeps (z : State) (s : State) (hk : Keeps z s) :
    Keeps z (carveAgain s) := by
  unfold carveAgain
  (try dsimp only)
  repeat' (first | (simp (maxDischargeDepth := 30) [hk]; done) | split | (simp (maxDischargeDepth := 30) +contextual [hk]; done))

@[simp] theorem bistUnit_keeps (z : State) (l : List UnitBist) (c : Nat) (s : State) (hk : Keeps z s) :
    Keeps z (bistUnit l c s) := by
  unfold bistUnit
  (try dsimp only)
  repeat' (first | (simp (maxDischargeDepth := 30) [hk]; done) | split | (simp (maxDischargeDepth := 30) +contextual [hk]; done))

@[simp] theorem startUnits_keeps (z : State) (t : StartTests) (s : State) (hk : Keeps z s) :
    Keeps z (startUnits t s) := by
  unfold startUnits
  (try dsimp only)
  repeat' (first | (simp (maxDischargeDepth := 30) [hk]; done) | split | (simp (maxDischargeDepth := 30) +contextual [hk]; done))

@[simp] theorem stage__keeps (z : State) (n : Nat) (f : State → State) (s : State) (hk : Keeps z s) (h0 : ∀ x0, Keeps z x0 → Keeps z (f x0)) :
    Keeps z (stage_ n f s) := by
  unfold stage_
  (try dsimp only)
  repeat' (first | (simp (maxDischargeDepth := 30) [h0, hk]; done) | split | (simp (maxDischargeDepth := 30) +contextual [h0, hk]; done))

@[simp] theorem controlTest_keeps (z : State) (c : Option (BitVec 12)) (s : State) (hk : Keeps z s) :
    Keeps z (controlTest c s) := by
  unfold controlTest
  (try dsimp only)
  repeat' (first | (simp (maxDischargeDepth := 30) [hk]; done) | split | (simp (maxDischargeDepth := 30) +contextual [hk]; done))

@[simp] theorem startLink_keeps (z : State) (s : State) (hk : Keeps z s) :
    Keeps z (startLink s) := by
  unfold startLink
  (try dsimp only)
  repeat' (first | (simp (maxDischargeDepth := 30) [hk]; done) | split | (simp (maxDischargeDepth := 30) +contextual [hk]; done))

@[simp] theorem linkStage_keeps (z : State) (s : State) (hk : Keeps z s) :
    Keeps z (linkStage s) := by
  unfold linkStage
  (try dsimp only)
  repeat' (first | (simp (maxDischargeDepth := 30) [hk]; done) | split | (simp (maxDischargeDepth := 30) +contextual [hk]; done))

@[simp] theorem runStart_keeps (z : State) (t : StartTests) (s : State) (hk : Keeps z s) : Keeps z (runStart t s) := by
  unfold runStart
  extract_lets por p1 p2 p3 s0 s1 s2 s3 s4 s5 s6 s7 p8 s8
  have k0 : Keeps z s0 := hk
  have k1 : Keeps z s1 := startLink_keeps _ _ k0
  have k2 : Keeps z s2 := keeps_ite _ _ _ _ (startFail_keeps _ _ _ k1) k1
  have k3 : Keeps z s3 := stage__keeps _ _ _ _ k2 fun x hx => by simp (maxDischargeDepth := 30) [hx]
  have k4 : Keeps z s4 := stage__keeps _ _ _ _ k3 fun x hx => by simp (maxDischargeDepth := 30) [hx]
  have k5 : Keeps z s5 := stage__keeps _ _ _ _ k4 fun x hx => by simp (maxDischargeDepth := 30) [hx]
  have k6 : Keeps z s6 := stage__keeps _ _ _ _ k5 fun x hx => by cases por <;> simp (maxDischargeDepth := 30) [hx]
  have k7 : Keeps z s7 := stage__keeps _ _ _ _ k6 fun x hx => by simp (maxDischargeDepth := 30) [hx]
  exact startComplete_keeps _ _ (keeps_ite _ _ _ _ (show Keeps z { s7 with pwr := { p8 with stage := 8 } } from k7) (linkStage_keeps _ _ k7))

@[simp] theorem fallBack_keeps (z : State) (cause : Nat) (s : State) (hk : Keeps z s) :
    Keeps z (fallBack cause s) := by
  unfold fallBack
  (try dsimp only)
  repeat' (first | (simp (maxDischargeDepth := 30) [hk]; done) | split | (simp (maxDischargeDepth := 30) +contextual [hk]; done))

@[simp] theorem shiftTimers_keeps (z : State) (d0 d1 : Nat) (s : State) (hk : Keeps z s) :
    Keeps z (shiftTimers d0 d1 s) := by
  unfold shiftTimers
  (try dsimp only)
  repeat' (first | (simp (maxDischargeDepth := 30) [hk]; done) | split | (simp (maxDischargeDepth := 30) +contextual [hk]; done))

@[simp] theorem backToP0_keeps (z : State) (deep : Bool) (s : State) (hk : Keeps z s) :
    Keeps z (backToP0 deep s) := by
  unfold backToP0
  (try dsimp only)
  repeat' (first | (simp (maxDischargeDepth := 30) [hk]; done) | split | (simp (maxDischargeDepth := 30) +contextual [hk]; done))

@[simp] theorem writeBack_keeps (z : State) (s : State) (hk : Keeps z s) :
    Keeps z (writeBack s) := by
  unfold writeBack
  (try dsimp only)
  repeat' (first | (simp (maxDischargeDepth := 30) [hk]; done) | split | (simp (maxDischargeDepth := 30) +contextual [hk]; done))

@[simp] theorem spillSlots_keeps (z : State) (s : State) (hk : Keeps z s) : Keeps z (spillSlots s) := by
  refine keeps_foldl _ z (fun x e hx => ?_) _ _ hk
  dsimp only
  repeat' split
  all_goals simp (maxDischargeDepth := 30) [hx]

@[simp] theorem entryWork_keeps (z : State) (t : PState) (s : State) (hk : Keeps z s) :
    Keeps z (entryWork t s) := by
  unfold entryWork
  (try dsimp only)
  repeat' (first | (simp (maxDischargeDepth := 30) [hk]; done) | split | (simp (maxDischargeDepth := 30) +contextual [hk]; done))

@[simp] theorem loseP2_keeps (z : State) (s : State) (hk : Keeps z s) : Keeps z (loseP2 s) :=
  kept_leases z s _ hk (leasesSound_map _ _ fun _ _ => rfl)

@[simp] theorem loseP3r_keeps (z : State) (s : State) (hk : Keeps z s) : Keeps z (loseP3r s) := by
  refine hk.trans ⟨rfl, rfl, rfl, rfl, fun h => ⟨List.nodup_nil, fun hn => h.2 ?_⟩, id, id⟩
  exact tcount_map s.flt.sources (fun e => (e.1, { sticky := e.2.sticky, severe := e.2.severe, acked := e.2.acked })) _ (fun _ => id) hn

@[simp] theorem loseP3_keeps (z : State) (s : State) (hk : Keeps z s) :
    Keeps z (loseP3 s) := by
  unfold loseP3
  (try dsimp only)
  repeat' (first | (simp (maxDischargeDepth := 30) [hk]; done) | split | (simp (maxDischargeDepth := 30) +contextual [hk]; done))

@[simp] theorem wakeNow_keeps (z : State) (cause : Nat) (s : State) (hk : Keeps z s) :
    Keeps z (wakeNow cause s) := by
  unfold wakeNow
  (try dsimp only)
  repeat' (first | (simp (maxDischargeDepth := 30) [hk]; done) | split | (simp (maxDischargeDepth := 30) +contextual [hk]; done))

@[simp] theorem loadUnit_keeps (z : State) (l : List Readback) (c : Nat) (s : State) (hk : Keeps z s) :
    Keeps z (loadUnit l c s) := by
  unfold loadUnit
  (try dsimp only)
  repeat' (first | (simp (maxDischargeDepth := 30) [hk]; done) | split | (simp (maxDischargeDepth := 30) +contextual [hk]; done))

@[simp] theorem enginesBack_keeps (z : State) (l : List Readback) (s : State) (hk : Keeps z s) :
    Keeps z (enginesBack l s) := by
  unfold enginesBack
  (try dsimp only)
  repeat' (first | (simp (maxDischargeDepth := 30) [hk]; done) | split | (simp (maxDischargeDepth := 30) +contextual [hk]; done))

@[simp] theorem cellsBack_keeps (z : State) (s : State) (hk : Keeps z s) :
    Keeps z (cellsBack s) := by
  unfold cellsBack
  (try dsimp only)
  repeat' (first | (simp (maxDischargeDepth := 30) [hk]; done) | split | (simp (maxDischargeDepth := 30) +contextual [hk]; done))

@[simp] theorem clearCounts_keeps (z : State) (s : State) (hk : Keeps z s) :
    Keeps z (clearCounts s) := by
  unfold clearCounts
  (try dsimp only)
  repeat' (first | (simp (maxDischargeDepth := 30) [hk]; done) | split | (simp (maxDischargeDepth := 30) +contextual [hk]; done))

@[simp] theorem resyncStandby_keeps (z : State) (s : State) (hk : Keeps z s) :
    Keeps z (resyncStandby s) := by
  unfold resyncStandby
  (try dsimp only)
  repeat' (first | (simp (maxDischargeDepth := 30) [hk]; done) | split | (simp (maxDischargeDepth := 30) +contextual [hk]; done))

@[simp] theorem retrainLink_keeps (z : State) (s : State) (hk : Keeps z s) :
    Keeps z (retrainLink s) := by
  unfold retrainLink
  (try dsimp only)
  repeat' (first | (simp (maxDischargeDepth := 30) [hk]; done) | split | (simp (maxDischargeDepth := 30) +contextual [hk]; done))

@[simp] theorem resumeRegs_keeps (z : State) (s : State) (hk : Keeps z s) :
    Keeps z (resumeRegs s) := by
  unfold resumeRegs
  (try dsimp only)
  repeat' (first | (simp (maxDischargeDepth := 30) [hk]; done) | split | (simp (maxDischargeDepth := 30) +contextual [hk]; done))

@[simp] theorem exitWork_keeps (z : State) (p : PState) (l : List Readback) (s : State) (hk : Keeps z s) :
    Keeps z (exitWork p l s) := by
  unfold exitWork
  (try dsimp only)
  repeat' (first | (simp (maxDischargeDepth := 30) [hk]; done) | split | (simp (maxDischargeDepth := 30) +contextual [hk]; done))

@[simp] theorem sendCard_keeps (z : State) (task : CardTask) (attempt : Nat) (c : CardCmd) (s : State) (hk : Keeps z s) :
    Keeps z (sendCard task attempt c s) := by
  unfold sendCard
  (try dsimp only)
  repeat' (first | (simp (maxDischargeDepth := 30) [hk]; done) | split | (simp (maxDischargeDepth := 30) +contextual [hk]; done))

@[simp] theorem cardAnswer_keeps (z : State) (st : Status) (payload : Bytes) (s : State) (hk : Keeps z s) :
    Keeps z (cardAnswer st payload s) := by
  unfold cardAnswer
  (try dsimp only)
  repeat' (first | (simp (maxDischargeDepth := 30) [hk]; done) | split | (simp (maxDischargeDepth := 30) +contextual [hk]; done))

@[simp] theorem cardFailure_keeps (z : State) (addr : Nat) (s : State) (hk : Keeps z s) :
    Keeps z (cardFailure addr s) := by
  unfold cardFailure
  (try dsimp only)
  repeat' (first | (simp (maxDischargeDepth := 30) [hk]; done) | split | (simp (maxDischargeDepth := 30) +contextual [hk]; done))

@[simp] theorem cardFault_keeps (z : State) (c : CardState) (cause : Nat) (s : State) (hk : Keeps z s) :
    Keeps z (cardFault c cause s) := by
  unfold cardFault
  (try dsimp only)
  repeat' (first | (simp (maxDischargeDepth := 30) [hk]; done) | split | (simp (maxDischargeDepth := 30) +contextual [hk]; done))

@[simp] theorem startRecovery_keeps (z : State) (s : State) (hk : Keeps z s) :
    Keeps z (startRecovery s) := by
  unfold startRecovery
  (try dsimp only)
  repeat' (first | (simp (maxDischargeDepth := 30) [hk]; done) | split | (simp (maxDischargeDepth := 30) +contextual [hk]; done))

@[simp] theorem identFail_keeps (z : State) (s : State) (hk : Keeps z s) :
    Keeps z (identFail s) := by
  unfold identFail
  (try dsimp only)
  repeat' (first | (simp (maxDischargeDepth := 30) [hk]; done) | split | (simp (maxDischargeDepth := 30) +contextual [hk]; done))

@[simp] theorem afterStat_keeps (z : State) (s : State) (hk : Keeps z s) :
    Keeps z (afterStat s) := by
  unfold afterStat
  (try dsimp only)
  repeat' (first | (simp (maxDischargeDepth := 30) [hk]; done) | split | (simp (maxDischargeDepth := 30) +contextual [hk]; done))

@[simp] theorem takeGens_keeps (z : State) (s : State) (hk : Keeps z s) :
    Keeps z (takeGens s) := by
  unfold takeGens
  (try dsimp only)
  repeat' (first | (simp (maxDischargeDepth := 30) [hk]; done) | split | (simp (maxDischargeDepth := 30) +contextual [hk]; done))

@[simp] theorem statStep_keeps (z : State) (s : State) (hk : Keeps z s) :
    Keeps z (statStep s) := by
  unfold statStep
  (try dsimp only)
  repeat' (first | (simp (maxDischargeDepth := 30) [hk]; done) | split | (simp (maxDischargeDepth := 30) +contextual [hk]; done))

@[simp] theorem startStat_keeps (z : State) (s : State) (hk : Keeps z s) :
    Keeps z (startStat s) := by
  unfold startStat
  (try dsimp only)
  repeat' (first | (simp (maxDischargeDepth := 30) [hk]; done) | split | (simp (maxDischargeDepth := 30) +contextual [hk]; done))

@[simp] theorem powerCard_keeps (z : State) (s : State) (hk : Keeps z s) :
    Keeps z (powerCard s) := by
  unfold powerCard
  (try dsimp only)
  repeat' (first | (simp (maxDischargeDepth := 30) [hk]; done) | split | (simp (maxDischargeDepth := 30) +contextual [hk]; done))

@[simp] theorem identEnd_keeps (z : State) (s : State) (hk : Keeps z s) :
    Keeps z (identEnd s) := by
  unfold identEnd
  (try dsimp only)
  repeat' (first | (simp (maxDischargeDepth := 30) [hk]; done) | split | (simp (maxDischargeDepth := 30) +contextual [hk]; done))

@[simp] theorem trySettings_keeps (z : State) (l : List (Bool × Nat)) (s : State) (hk : Keeps z s) :
    Keeps z (trySettings l s) := by
  unfold trySettings
  (try dsimp only)
  repeat' (first | (simp (maxDischargeDepth := 30) [hk]; done) | split | (simp (maxDischargeDepth := 30) +contextual [hk]; done))

@[simp] theorem identified_keeps (z : State) (data : Bytes) (s : State) (hk : Keeps z s) :
    Keeps z (identified data s) := by
  unfold identified
  (try dsimp only)
  repeat' (first | (simp (maxDischargeDepth := 30) [hk]; done) | split | (simp (maxDischargeDepth := 30) +contextual [hk]; done))

@[simp] theorem busSet_keeps (z : State) (s : State) (hk : Keeps z s) :
    Keeps z (busSet s) := by
  unfold busSet
  (try dsimp only)
  repeat' (first | (simp (maxDischargeDepth := 30) [hk]; done) | split | (simp (maxDischargeDepth := 30) +contextual [hk]; done))

@[simp] theorem nextSetting_keeps (z : State) (s : State) (hk : Keeps z s) :
    Keeps z (nextSetting s) := by
  unfold nextSetting
  (try dsimp only)
  repeat' (first | (simp (maxDischargeDepth := 30) [hk]; done) | split | (simp (maxDischargeDepth := 30) +contextual [hk]; done))

@[simp] theorem readIdDone_keeps (z : State) (data : Bytes) (erasing : Bool) (s : State) (hk : Keeps z s) :
    Keeps z (readIdDone data erasing s) := by
  unfold readIdDone
  (try dsimp only)
  repeat' (first | (simp (maxDischargeDepth := 30) [hk]; done) | split | (simp (maxDischargeDepth := 30) +contextual [hk]; done))

@[simp] theorem cardGiveUp_keeps (z : State) (s : State) (hk : Keeps z s) :
    Keeps z (cardGiveUp s) := by
  unfold cardGiveUp
  (try dsimp only)
  repeat' (first | (simp (maxDischargeDepth := 30) [hk]; done) | split | (simp (maxDischargeDepth := 30) +contextual [hk]; done))

@[simp] theorem transferError_keeps (z : State) (s : State) (hk : Keeps z s) :
    Keeps z (transferError s) := by
  unfold transferError
  (try dsimp only)
  repeat' (first | (simp (maxDischargeDepth := 30) [hk]; done) | split | (simp (maxDischargeDepth := 30) +contextual [hk]; done))

@[simp] theorem countCrc_keeps (z : State) (n : Nat) (s : State) (hk : Keeps z s) :
    Keeps z (countCrc n s) := by
  unfold countCrc
  (try dsimp only)
  repeat' (first | (simp (maxDischargeDepth := 30) [hk]; done) | split | (simp (maxDischargeDepth := 30) +contextual [hk]; done))

@[simp] theorem writeArch_keeps (z : State) (i : Nat) (s : State) (hk : Keeps z s) :
    Keeps z (writeArch i s) := by
  unfold writeArch
  (try dsimp only)
  repeat' (first | (simp (maxDischargeDepth := 30) [hk]; done) | split | (simp (maxDischargeDepth := 30) +contextual [hk]; done))

@[simp] theorem verifyArch_keeps (z : State) (i : Nat) (s : State) (hk : Keeps z s) :
    Keeps z (verifyArch i s) := by
  unfold verifyArch
  (try dsimp only)
  repeat' (first | (simp (maxDischargeDepth := 30) [hk]; done) | split | (simp (maxDischargeDepth := 30) +contextual [hk]; done))

@[simp] theorem copyVerified_keeps (z : State) (s : State) (hk : Keeps z s) :
    Keeps z (copyVerified s) := by
  unfold copyVerified
  (try dsimp only)
  repeat' (first | (simp (maxDischargeDepth := 30) [hk]; done) | split | (simp (maxDischargeDepth := 30) +contextual [hk]; done))

@[simp] theorem usePair_keeps (z : State) (bundle : Option Bytes) (l : List Archive) (s : State) (hk : Keeps z s) :
    Keeps z (usePair bundle l s) := by
  unfold usePair
  (try dsimp only)
  repeat' (first | (simp (maxDischargeDepth := 30) [hk]; done) | split | (simp (maxDischargeDepth := 30) +contextual [hk]; done))

@[simp] theorem finishRestore_keeps (z : State) (e : CmdEntry) (s0 : State) (hk : Keeps z s0) :
    Keeps z (finishRestore e s0) := by
  unfold finishRestore
  (try dsimp only)
  repeat' (first | (simp (maxDischargeDepth := 30) [hk]; done) | split | (simp (maxDischargeDepth := 30) +contextual [hk]; done))

@[simp] theorem restoreStep_keeps (z : State) (s : State) (hk : Keeps z s) :
    Keeps z (restoreStep s) := by
  unfold restoreStep
  (try dsimp only)
  repeat' (first | (simp (maxDischargeDepth := 30) [hk]; done) | split | (simp (maxDischargeDepth := 30) +contextual [hk]; done))

@[simp] theorem cardOk_keeps (z : State) (s : State) (hk : Keeps z s) :
    Keeps z (cardOk s) := by
  unfold cardOk
  (try dsimp only)
  repeat' (first | (simp (maxDischargeDepth := 30) [hk]; done) | split | (simp (maxDischargeDepth := 30) +contextual [hk]; done))

@[simp] theorem cardDone_keeps (z : State) (data : Bytes) (erasing : Bool) (s : State) (hk : Keeps z s) :
    Keeps z (cardDone data erasing s) := by
  unfold cardDone
  (try dsimp only)
  repeat' (first | (simp (maxDischargeDepth := 30) [hk]; done) | split | (simp (maxDischargeDepth := 30) +contextual [hk]; done))

@[simp] theorem probed_keeps (z : State) (p : Probe) (s : State) (hk : Keeps z s) :
    Keeps z (probed p s) := by
  unfold probed
  (try dsimp only)
  repeat' (first | (simp (maxDischargeDepth := 30) [hk]; done) | split | (simp (maxDischargeDepth := 30) +contextual [hk]; done))

@[simp] theorem dropRestore_keeps (z : State) (s : State) (hk : Keeps z s) :
    Keeps z (dropRestore s) := by
  unfold dropRestore
  (try dsimp only)
  repeat' (first | (simp (maxDischargeDepth := 30) [hk]; done) | split | (simp (maxDischargeDepth := 30) +contextual [hk]; done))

@[simp] theorem pwFailed_keeps (z : State) (s : State) (hk : Keeps z s) :
    Keeps z (pwFailed s) := by
  unfold pwFailed
  (try dsimp only)
  repeat' (first | (simp (maxDischargeDepth := 30) [hk]; done) | split | (simp (maxDischargeDepth := 30) +contextual [hk]; done))

@[simp] theorem responded_keeps (z : State) (c : CardCmd) (st : Nat) (s0 : State) (hk : Keeps z s0) :
    Keeps z (responded c st s0) := by
  unfold responded
  (try dsimp only)
  repeat' (first | (simp (maxDischargeDepth := 30) [hk]; done) | split | (simp (maxDischargeDepth := 30) +contextual [hk]; done))

@[simp] theorem withCard_keeps (z : State) (lockedRuns : Bool) (e : CmdEntry) (f : State → State) (s : State) (hk : Keeps z s) (h0 : ∀ x0, Keeps z x0 → Keeps z (f x0)) :
    Keeps z (withCard lockedRuns e f s) := by
  unfold withCard
  (try dsimp only)
  repeat' (first | (simp (maxDischargeDepth := 30) [h0, hk]; done) | split | (simp (maxDischargeDepth := 30) +contextual [h0, hk]; done))

@[simp] theorem takeBus_keeps (z : State) (e : CmdEntry) (s : State) (hk : Keeps z s) :
    Keeps z (takeBus e s) := by
  unfold takeBus
  (try dsimp only)
  repeat' (first | (simp (maxDischargeDepth := 30) [hk]; done) | split | (simp (maxDischargeDepth := 30) +contextual [hk]; done))

@[simp] theorem takeUp1_keeps (z : State) (e : CmdEntry) (s : State) (hk : Keeps z s) :
    Keeps z (takeUp1 e s) := by
  unfold takeUp1
  (try dsimp only)
  repeat' (first | (simp (maxDischargeDepth := 30) [hk]; done) | split | (simp (maxDischargeDepth := 30) +contextual [hk]; done))

@[simp] theorem takeMbox_keeps (z : State) (s : State) (hk : Keeps z s) :
    Keeps z (takeMbox s) := by
  unfold takeMbox
  (try dsimp only)
  repeat' (first | (simp (maxDischargeDepth := 30) [hk]; done) | split | (simp (maxDischargeDepth := 30) +contextual [hk]; done))

@[simp] theorem framingHalt_keeps (z : State) (off : Nat) (s : State) (hk : Keeps z s) :
    Keeps z (framingHalt off s) := by
  unfold framingHalt
  (try dsimp only)
  repeat' (first | (simp (maxDischargeDepth := 30) [hk]; done) | split | (simp (maxDischargeDepth := 30) +contextual [hk]; done))

@[simp] theorem takeAdmin_keeps (z : State) (s : State) (hk : Keeps z s) :
    Keeps z (takeAdmin s) := by
  unfold takeAdmin
  (try dsimp only)
  repeat' (first | (simp (maxDischargeDepth := 30) [hk]; done) | split | (simp (maxDischargeDepth := 30) +contextual [hk]; done))

end Sys2Proof.Machine
end

