-- ==== Sys2Proof/Laws/KeptExecA.lean ====
section
/-! SUPPORT. What the commands keep, first half: one lemma per meaning. -/
namespace Sys2Proof.Machine
open Sys2Proof.Safety
set_option linter.unusedSimpArgs false

/-- A next state, where the outcome is one, keeps what `Keeps` names. -/
def KeepsO (s : State) (o : Host.Outcome State Fault Refusal) : Prop := ∀ t, o = .next t → Keeps s t
/-- A next state, where the outcome is one, keeps all but the time. -/
def KeepsT (s : State) (o : Host.Outcome State Fault Refusal) : Prop := ∀ t, o = .next t → Keeps { s with tim := t.tim } t
@[simp] theorem keepsO_next (s t : State) (h : Keeps s t) : KeepsO s (.next t) := fun _ hu => by cases hu; exact h
@[simp] theorem keepsO_fault (s : State) (f : Fault) : KeepsO s (.fault f) := fun _ hu => by cases hu
theorem keepsT_onTime (f : Tim → Tim) (s : State) : KeepsT s (.next (onTime f s)) := fun _ hu => by
  cases hu; exact onTime_keeps s f s (keeps_refl s)

@[simp] theorem gather_keeps (z : State) (fuel c : Nat) (acc : List Job) (s : State) (hk : Keeps z s) : Keeps z (gather fuel c acc s).2 := by
  induction fuel generalizing acc s with
  | zero => exact hk
  | succ n ih =>
    unfold gather
    split
    · exact hk
    · split
      · exact ih _ _ (by simp (maxDischargeDepth := 30) [hk])
      · exact hk

theorem installKey_keeps (z : State) (port keyType usage validUntil : Nat) (material : Bytes) (s : State) (q : State × Nat)
    (h : installKey port keyType usage validUntil material s = some q) (hk : Keeps z s) : Keeps z q.1 := by
  unfold installKey at h
  repeat' split at h
  all_goals cases h
  all_goals simp (maxDischargeDepth := 30) [hk]

@[simp] theorem testResult_keeps (z : State) (c : Nat) (pass : Bool) (s : State) (hk : Keeps z s) : Keeps z (testResult c pass s).2 := by
  unfold testResult
  dsimp only
  exact keeps_ite _ _ _ _ (by simp (maxDischargeDepth := 30) [hk]) hk

@[simp] theorem signObject_keeps (z : State) (m : Bytes) (s : State) (hk : Keeps z s) : Keeps z (signObject m s).2 := by
  unfold signObject
  dsimp only
  repeat' split
  all_goals simp (maxDischargeDepth := 30) [hk]

/-- A state with other fault values, which stay sound. -/
theorem keeps_flt (z s : State) (f : Flt) (hk : Keeps z s) (h : FaultsSound s.flt → FaultsSound f) : Keeps z { s with flt := f } :=
  hk.trans ⟨rfl, rfl, rfl, rfl, h, id, id⟩
/-- A state with other values of the baton, which stay sound. -/
theorem keeps_baton (z s : State) (b : Baton) (hk : Keeps z s) (h : BatonSound s.baton → BatonSound b) : Keeps z { s with baton := b } :=
  hk.trans ⟨rfl, rfl, rfl, rfl, id, h, id⟩
/-- A state with other leases, which stay sound. -/
theorem keeps_eng (z s : State) (g : Engines) (hk : Keeps z s) (h : LeasesSound s.eng.leases → LeasesSound g.leases) :
    Keeps z { s with eng := g } :=
  hk.trans ⟨rfl, rfl, rfl, rfl, id, id, h⟩
theorem faultsSound_same (f g : Flt) (h : g.queue = f.queue ∧ g.sources = f.sources ∧ g.err = f.err ∧ g.relWait = f.relWait) :
    FaultsSound f → FaultsSound g := faultsSound_of f g h.1 h.2.1 h.2.2.1 h.2.2.2

theorem leaseHolding_mem (s : State) (port h ix : Nat) (l : Lease) (hl : leaseHolding s port h = some (ix, l)) : (ix, l) ∈ s.eng.leases := by
  unfold leaseHolding tfind at hl
  split at hl
  · exact List.mem_of_find?_eq_some hl
  · cases hl

theorem onLease_mem (z : State) (e : CmdEntry) (f : Nat → Lease → State → State) (s : State) (hk : Keeps z s)
    (h : ∀ ix l, (ix, l) ∈ s.eng.leases → Keeps z (f ix l s)) : Keeps z (onLease e f s) := by
  unfold onLease
  dsimp only
  split
  · simp [hk]
  · rename_i hl
    exact keeps_ite _ _ _ _ (by simp [hk]) (h _ _ (leaseHolding_mem _ _ _ _ _ hl))

theorem armInject_sound (src ck n : Nat) (double : Bool) (f : Flt) (h : FaultsSound f) : FaultsSound (armInject src ck n double f) := by
  refine ⟨h.1, fun hn => h.2 ?_⟩
  rcases unacked_tput f src _ hn with h1 | h1
  · exact h1
  · exact unacked_of_srcOf f src h1

theorem keeps_getD (s x : State) (q : Option State) (hx : Keeps s x) (h : ∀ w, q = some w → Keeps s w) : Keeps s (q.getD x) := by
  cases q with
  | none => exact hx
  | some w => exact h _ rfl


@[simp] theorem execEpochClose_keeps (s : State) : KeepsO s (execEpochClose s) := by
  unfold execEpochClose
  refine keepsO_next _ _ ?_
  try dsimp only
  repeat' (first | (simp (maxDischargeDepth := 30); done) | split | (simp (maxDischargeDepth := 30) +contextual; done))

@[simp] theorem execKeyEpochClose_keeps (s : State) : KeepsO s (execKeyEpochClose s) := by
  unfold execKeyEpochClose
  refine keepsO_next _ _ ?_
  try dsimp only
  repeat' (first | (simp (maxDischargeDepth := 30); done) | split | (simp (maxDischargeDepth := 30) +contextual; done))

@[simp] theorem execLedgerBankWrite_keeps (s : State) : KeepsO s (execLedgerBankWrite s) := by
  unfold execLedgerBankWrite
  refine keepsO_next _ _ ?_
  try dsimp only
  repeat' (first | (simp (maxDischargeDepth := 30); done) | split | (simp (maxDischargeDepth := 30) +contextual; done))

theorem execTimPpsEdge_keepsT (ref : TimeSample) (s : State) : KeepsT s (execTimPpsEdge ref s) := by
  unfold execTimPpsEdge
  exact keepsT_onTime _ _

theorem execPpsMissing_keepsT (ref : TimeSample) (s : State) : KeepsT s (execPpsMissing ref s) := by
  unfold execPpsMissing
  exact keepsT_onTime _ _

theorem execTimeInputUsable_keepsT (ref : TimeSample) (s : State) : KeepsT s (execTimeInputUsable ref s) := by
  unfold execTimeInputUsable
  exact fun t h => keepsT_onTime _ { s with pins := { s.pins with timClkLost := if aonOn s then false else s.pins.timClkLost } } t h

theorem execTimeInputUnusable_keepsT (clockLost : Bool) (s : State) : KeepsT s (execTimeInputUnusable clockLost s) := by
  unfold execTimeInputUnusable
  dsimp only
  have k := keepsT_onTime (fun t => if t.usable = true then (if t.following = true then setPending true 0 { t with usable := false } else { t with usable := false }) else t) s _ rfl
  intro t h
  split at h
  · cases h
    exact raiseEvent_keeps _ _ _ _ _ k
  · cases h
    exact k

theorem execTimRankChange_keepsT (ref : TimeSample) (s : State) : KeepsT s (execTimRankChange ref s) := by
  unfold execTimRankChange
  exact keepsT_onTime _ _

theorem execReferenceSwitchCommit_keepsT (s : State) : KeepsT s (execReferenceSwitchCommit s) := by
  unfold execReferenceSwitchCommit
  exact keepsT_onTime _ _

theorem execSlewEnd_keepsT (s : State) : KeepsT s (execSlewEnd s) := by
  unfold execSlewEnd
  exact keepsT_onTime _ _

theorem execEpochTick_keepsT (s : State) : KeepsT s (execEpochTick s) := by
  unfold execEpochTick
  exact keepsT_onTime _ _

@[simp] theorem execCommandDeadlineExpiry_keeps (s : State) : KeepsO s (execCommandDeadlineExpiry s) := by
  unfold execCommandDeadlineExpiry
  refine keepsO_next _ _ ?_
  try dsimp only
  repeat' (first | (simp (maxDischargeDepth := 30); done) | split | (simp (maxDischargeDepth := 30) +contextual; done))

@[simp] theorem execRegisterWrite_keeps (addr : BitVec 19) (lanes : Lanes) (data : Word) (s : State) : KeepsO s (execRegisterWrite addr lanes data s) := by
  unfold execRegisterWrite
  refine keepsO_next _ _ ?_
  try dsimp only
  repeat' (first | (simp (maxDischargeDepth := 30); done) | split | (simp (maxDischargeDepth := 30) +contextual; done))

@[simp] theorem execRcCounterRead_keeps (addr : ReadAddr) (lanes : Lanes) (s : State) : KeepsO s (execRcCounterRead addr lanes s) := by
  unfold execRcCounterRead
  refine keepsO_next _ _ ?_
  try dsimp only
  repeat' (first | (simp (maxDischargeDepth := 30); done) | split | (simp (maxDischargeDepth := 30) +contextual; done))

@[simp] theorem execDoorbellDirectWrite_keeps (page : Fin 1024) (slot : Fin 512) (sid : BitVec 16) (wide : Bool) (data : Word) (s : State) : KeepsO s (execDoorbellDirectWrite page slot sid wide data s) := by
  unfold execDoorbellDirectWrite
  refine keepsO_next _ _ ?_
  try dsimp only
  repeat' (first | (simp (maxDischargeDepth := 30); done) | split | (simp (maxDischargeDepth := 30) +contextual; done))

@[simp] theorem execDoorbellIndirectTail_keeps (page : Fin 1024) (sid : BitVec 16) (wide : Bool) (data : Word) (s : State) : KeepsO s (execDoorbellIndirectTail page sid wide data s) := by
  unfold execDoorbellIndirectTail
  refine keepsO_next _ _ ?_
  try dsimp only
  repeat' (first | (simp (maxDischargeDepth := 30); done) | split | (simp (maxDischargeDepth := 30) +contextual; done))

@[simp] theorem execDoorbellIndirectHead_keeps (page : Fin 1024) (sid : BitVec 16) (wide : Bool) (data : Word) (s : State) : KeepsO s (execDoorbellIndirectHead page sid wide data s) := by
  unfold execDoorbellIndirectHead
  refine keepsO_next _ _ ?_
  try dsimp only
  repeat' (first | (simp (maxDischargeDepth := 30); done) | split | (simp (maxDischargeDepth := 30) +contextual; done))

@[simp] theorem execCmdAdminTailWrite_keeps (lanes : Lanes) (data : Word) (s : State) : KeepsO s (execCmdAdminTailWrite lanes data s) := by
  unfold execCmdAdminTailWrite
  refine keepsO_next _ _ ?_
  try dsimp only
  repeat' (first | (simp (maxDischargeDepth := 30); done) | split | (simp (maxDischargeDepth := 30) +contextual; done))

@[simp] theorem execCmdAdminEnableWrite_keeps (lanes : Lanes) (data : Word) (s : State) : KeepsO s (execCmdAdminEnableWrite lanes data s) := by
  unfold execCmdAdminEnableWrite
  refine keepsO_next _ _ ?_
  try dsimp only
  repeat' (first | (simp (maxDischargeDepth := 30); done) | split | (simp (maxDischargeDepth := 30) +contextual; done))

@[simp] theorem execCmdAdminReset_keeps (lanes : Lanes) (data : Word) (s : State) : KeepsO s (execCmdAdminReset lanes data s) := by
  unfold execCmdAdminReset
  refine keepsO_next _ _ ?_
  try dsimp only
  repeat' (first | (simp (maxDischargeDepth := 30); done) | split | (simp (maxDischargeDepth := 30) +contextual; done))

@[simp] theorem execCmdReplyHeadWrite_keeps (lanes : Lanes) (data : Word) (s : State) : KeepsO s (execCmdReplyHeadWrite lanes data s) := by
  unfold execCmdReplyHeadWrite
  refine keepsO_next _ _ ?_
  try dsimp only
  repeat' (first | (simp (maxDischargeDepth := 30); done) | split | (simp (maxDischargeDepth := 30) +contextual; done))

@[simp] theorem execCmdReplyEnableWrite_keeps (lanes : Lanes) (data : Word) (s : State) : KeepsO s (execCmdReplyEnableWrite lanes data s) := by
  unfold execCmdReplyEnableWrite
  refine keepsO_next _ _ ?_
  try dsimp only
  repeat' (first | (simp (maxDischargeDepth := 30); done) | split | (simp (maxDischargeDepth := 30) +contextual; done))

@[simp] theorem execCmdMboxGo_keeps (lanes : Lanes) (data : Word) (s : State) : KeepsO s (execCmdMboxGo lanes data s) := by
  unfold execCmdMboxGo
  refine keepsO_next _ _ ?_
  try dsimp only
  repeat' (first | (simp (maxDischargeDepth := 30); done) | split | (simp (maxDischargeDepth := 30) +contextual; done))

@[simp] theorem execGlbPowerWakeWrite_keeps (lanes : Lanes) (data : Word) (s : State) : KeepsO s (execGlbPowerWakeWrite lanes data s) := by
  unfold execGlbPowerWakeWrite
  refine keepsO_next _ _ ?_
  try dsimp only
  repeat' (first | (simp (maxDischargeDepth := 30); done) | split | (simp (maxDischargeDepth := 30) +contextual; done))

@[simp] theorem execGlbCarveEnableWrite_keeps (lanes : Lanes) (data : Word) (s : State) : KeepsO s (execGlbCarveEnableWrite lanes data s) := by
  unfold execGlbCarveEnableWrite
  refine keepsO_next _ _ ?_
  try dsimp only
  repeat' (first | (simp (maxDischargeDepth := 30); done) | split | (simp (maxDischargeDepth := 30) +contextual; done))

@[simp] theorem execGlbLedgerHeadWrite_keeps (lanes : Lanes) (data : Word) (s : State) : KeepsO s (execGlbLedgerHeadWrite lanes data s) := by
  unfold execGlbLedgerHeadWrite
  refine keepsO_next _ _ ?_
  try dsimp only
  repeat' (first | (simp (maxDischargeDepth := 30); done) | split | (simp (maxDischargeDepth := 30) +contextual; done))

@[simp] theorem execCpwIrqEnableWrite_keeps (lanes : Lanes) (data : Word) (s : State) : KeepsO s (execCpwIrqEnableWrite lanes data s) := by
  unfold execCpwIrqEnableWrite
  refine keepsO_next _ _ ?_
  try dsimp only
  repeat' (first | (simp (maxDischargeDepth := 30); done) | split | (simp (maxDischargeDepth := 30) +contextual; done))

@[simp] theorem execRngRotateWrite_keeps (lanes : Lanes) (data : Word) (s : State) : KeepsO s (execRngRotateWrite lanes data s) := by
  unfold execRngRotateWrite
  refine keepsO_next _ _ ?_
  try dsimp only
  repeat' (first | (simp (maxDischargeDepth := 30); done) | split | (simp (maxDischargeDepth := 30) +contextual; done))

@[simp] theorem execRngDataRead_keeps (lanes : Lanes) (s : State) : KeepsO s (execRngDataRead lanes s) := by
  unfold execRngDataRead
  refine keepsO_next _ _ ?_
  try dsimp only
  repeat' (first | (simp (maxDischargeDepth := 30); done) | split | (simp (maxDischargeDepth := 30) +contextual; done))

@[simp] theorem execFltMsgRead_keeps (lanes : Lanes) (s : State) : KeepsO s (execFltMsgRead lanes s) := by
  unfold execFltMsgRead
  refine keepsO_next _ _ ?_
  try dsimp only
  repeat' (first | (simp (maxDischargeDepth := 30); done) | split | (simp (maxDischargeDepth := 30) +contextual; done))

@[simp] theorem execTimNowSecRead_keeps (lanes : Lanes) (s : State) : KeepsO s (execTimNowSecRead lanes s) := by
  unfold execTimNowSecRead
  refine keepsO_next _ _ ?_
  try dsimp only
  repeat' (first | (simp (maxDischargeDepth := 30); done) | split | (simp (maxDischargeDepth := 30) +contextual; done))

@[simp] theorem execLaneRetrain_keeps (lanes : Lanes) (data : Word) (s : State) : KeepsO s (execLaneRetrain lanes data s) := by
  unfold execLaneRetrain
  refine keepsO_next _ _ ?_
  try dsimp only
  repeat' (first | (simp (maxDischargeDepth := 30); done) | split | (simp (maxDischargeDepth := 30) +contextual; done))

@[simp] theorem execSkeinVisit_keeps (s : State) : KeepsO s (execSkeinVisit s) := by
  unfold execSkeinVisit
  refine keepsO_next _ _ ?_
  try dsimp only
  repeat' (first | (simp (maxDischargeDepth := 30); done) | split | (simp (maxDischargeDepth := 30) +contextual; done))

@[simp] theorem execCompletionPost_keeps (s : State) : KeepsO s (execCompletionPost s) := by
  unfold execCompletionPost
  refine keepsO_next _ _ ?_
  split
  · split
    · exact keeps_refl _
    · split
      · simp (maxDischargeDepth := 30)
      · exact postBeat_keeps _ _ _ _ _ (touchRing_keeps _ _ _ (gather_keeps _ _ _ _ _ (keeps_refl _)))
  · exact keeps_refl _

@[simp] theorem execCoalesceTimerExpiry_keeps (ring : BitVec 20) (s : State) : KeepsO s (execCoalesceTimerExpiry ring s) := by
  unfold execCoalesceTimerExpiry
  refine keepsO_next _ _ ?_
  try dsimp only
  repeat' (first | (simp (maxDischargeDepth := 30); done) | split | (simp (maxDischargeDepth := 30) +contextual; done))

@[simp] theorem execFabReadData_keeps (port : Fin 4) (tag : BitVec 11) (status : RspStatus) (parityOk last : Bool) (data : Bytes) (s : State) : KeepsO s (execFabReadData port tag status parityOk last data s) := by
  unfold execFabReadData
  try dsimp only
  (try refine keepsO_next _ _ ?_)
  repeat' (first | (simp (maxDischargeDepth := 30); done) | split | (refine keepsO_next _ _ ?_; done))

@[simp] theorem execFabWriteAck_keeps (port : Fin 4) (tag : BitVec 11) (status : RspStatus) (s : State) : KeepsO s (execFabWriteAck port tag status s) := by
  unfold execFabWriteAck
  refine keepsO_next _ _ ?_
  try dsimp only
  repeat' (first | (simp (maxDischargeDepth := 30); done) | split | (simp (maxDischargeDepth := 30) +contextual; done))

@[simp] theorem execFabricTimeout_keeps (port : Fin 4) (tag : BitVec 11) (s : State) : KeepsO s (execFabricTimeout port tag s) := by
  unfold execFabricTimeout
  try dsimp only
  (try refine keepsO_next _ _ ?_)
  repeat' (first | (simp (maxDischargeDepth := 30); done) | split | (refine keepsO_next _ _ ?_; done))

@[simp] theorem execFabCreditReturn_keeps (port : Fin 4) (req : Bool) (wdat : BitVec 2) (s : State) : KeepsO s (execFabCreditReturn port req wdat s) := by
  unfold execFabCreditReturn
  refine keepsO_next _ _ ?_
  try dsimp only
  repeat' (first | (simp (maxDischargeDepth := 30); done) | split | (simp (maxDischargeDepth := 30) +contextual; done))

@[simp] theorem execFabPortResetAssert_keeps (port : Fin 4) (s : State) : KeepsO s (execFabPortResetAssert port s) := by
  unfold execFabPortResetAssert
  try dsimp only
  (try refine keepsO_next _ _ ?_)
  repeat' (first | (simp (maxDischargeDepth := 30); done) | split | (refine keepsO_next _ _ ?_; done))

@[simp] theorem execFabPortResetRelease_keeps (port : Fin 4) (s : State) : KeepsO s (execFabPortResetRelease port s) := by
  unfold execFabPortResetRelease
  refine keepsO_next _ _ ?_
  try dsimp only
  repeat' (first | (simp (maxDischargeDepth := 30); done) | split | (simp (maxDischargeDepth := 30) +contextual; done))

@[simp] theorem execFabClockLost_keeps (port : Fin 4) (s : State) : KeepsO s (execFabClockLost port s) := by
  unfold execFabClockLost
  try dsimp only
  (try refine keepsO_next _ _ ?_)
  repeat' (first | (simp (maxDischargeDepth := 30); done) | split | (refine keepsO_next _ _ ?_; done))

@[simp] theorem execCreditRateMeasure_keeps (s : State) : KeepsO s (execCreditRateMeasure s) := by
  unfold execCreditRateMeasure
  refine keepsO_next _ _ ?_
  try dsimp only
  repeat' (first | (simp (maxDischargeDepth := 30); done) | split | (simp (maxDischargeDepth := 30) +contextual; done))

@[simp] theorem execFenceDrainComplete_keeps (s : State) : KeepsO s (execFenceDrainComplete s) := by
  unfold execFenceDrainComplete
  refine keepsO_next _ _ ?_
  try dsimp only
  repeat' (first | (simp (maxDischargeDepth := 30); done) | split | (simp (maxDischargeDepth := 30) +contextual; done))

@[simp] theorem execNop_keeps (s : State) : KeepsO s (execNop s) := by
  unfold execNop
  refine keepsO_next _ _ (onCommand_keeps _ _ _ _ (keeps_refl _) fun e x hx => ?_)
  try dsimp only
  repeat' (first | (simp (maxDischargeDepth := 30) [hx]; done) | split | (simp (maxDischargeDepth := 30) +contextual [hx]; done))

@[simp] theorem execGetInfo_keeps (s : State) : KeepsO s (execGetInfo s) := by
  unfold execGetInfo
  refine keepsO_next _ _ (onCommand_keeps _ _ _ _ (keeps_refl _) fun e x hx => ?_)
  try dsimp only
  repeat' (first | (simp (maxDischargeDepth := 30) [hx]; done) | split | (simp (maxDischargeDepth := 30) +contextual [hx]; done))

@[simp] theorem execStatusSnapshot_keeps (s : State) : KeepsO s (execStatusSnapshot s) := by
  unfold execStatusSnapshot
  refine keepsO_next _ _ (onCommand_keeps _ _ _ _ (keeps_refl _) fun e x hx => ?_)
  try dsimp only
  repeat' (first | (simp (maxDischargeDepth := 30) [hx]; done) | split | (simp (maxDischargeDepth := 30) +contextual [hx]; done))

@[simp] theorem execSetPowerPolicy_keeps (s : State) : KeepsO s (execSetPowerPolicy s) := by
  unfold execSetPowerPolicy
  refine keepsO_next _ _ (onCommand_keeps _ _ _ _ (keeps_refl _) fun e x hx => ?_)
  try dsimp only
  repeat' (first | (simp (maxDischargeDepth := 30) [hx]; done) | split | (simp (maxDischargeDepth := 30) +contextual [hx]; done))

@[simp] theorem execScribeHandover_keeps (s : State) : KeepsO s (execScribeHandover s) := by
  unfold execScribeHandover
  refine keepsO_next _ _ (onCommand_keeps _ _ _ _ (keeps_refl _) fun e x hx => ?_)
  try dsimp only
  repeat' (first | (simp (maxDischargeDepth := 30) [hx]; done) | split | (simp (maxDischargeDepth := 30) +contextual [hx]; done))

@[simp] theorem execFltSetClass_keeps (s : State) : KeepsO s (execFltSetClass s) := by
  unfold execFltSetClass
  refine keepsO_next _ _ (onCommand_keeps _ _ _ _ (keeps_refl _) fun e x hx => ?_)
  try dsimp only
  exact answer_keeps _ _ _ _ _ (logCommit_keeps _ _ _ (keeps_flt _ _ _ hx (faultsSound_same _ _ ⟨rfl, rfl, rfl, rfl⟩)))

@[simp] theorem execFltSetTimers_keeps (s : State) : KeepsO s (execFltSetTimers s) := by
  unfold execFltSetTimers
  refine keepsO_next _ _ (onCommand_keeps _ _ _ _ (keeps_refl _) fun e x hx => ?_)
  try dsimp only
  exact answer_keeps _ _ _ _ _ (logCommit_keeps _ _ _ (keeps_flt _ _ _ hx (faultsSound_same _ _ ⟨rfl, rfl, rfl, rfl⟩)))

@[simp] theorem execFltAck_keeps (s : State) : KeepsO s (execFltAck s) := by
  unfold execFltAck
  refine keepsO_next _ _ (onCommand_keeps _ _ _ _ (keeps_refl _) fun e x hx => ?_)
  try dsimp only
  refine answer_keeps _ _ _ _ _ (logCommit_keeps _ _ _ (keeps_ite _ _ _ _ (modSrc_keeps _ _ _ _ hx ?_) hx))
  intro r h
  simp at h

@[simp] theorem execFltClear_keeps (s : State) : KeepsO s (execFltClear s) := by
  unfold execFltClear
  refine keepsO_next _ _ (onCommand_keeps _ _ _ _ (keeps_refl _) fun e x hx => ?_)
  try dsimp only
  split
  · exact refuseAt_keeps _ _ _ _ _ (keeps_flt _ _ _ hx (faultsSound_same _ _ ⟨rfl, rfl, rfl, rfl⟩))
  · refine answer_keeps _ _ _ _ _ (logCommit_keeps _ _ _ (modSrc_keeps _ _ _ _ (keeps_baton _ _ _ hx (restartScribe_sound _ _)) ?_))
    intro r h
    simp [clearSrc] at h

@[simp] theorem execFltReleaseErr_keeps (s : State) : KeepsO s (execFltReleaseErr s) := by
  unfold execFltReleaseErr
  refine keepsO_next _ _ (onCommand_keeps _ _ _ _ (keeps_refl _) fun e x hx => ?_)
  try dsimp only
  split
  · simp [hx]
  · rename_i hu
    refine answer_keeps _ _ _ _ _ (logCommit_keeps _ _ _ (keeps_flt _ _ _ hx fun h => ⟨?_, fun hn => absurd ?_ hu⟩))
    · split
      · exact h.1
      · exact h.1
    · split at hn <;> exact hn

@[simp] theorem execFltInject_keeps (s : State) : KeepsO s (execFltInject s) := by
  unfold execFltInject
  refine keepsO_next _ _ (onCommand_keeps _ _ _ _ (keeps_refl _) fun e x hx => ?_)
  try dsimp only
  split
  · simp [hx]
  · refine answer_keeps _ _ _ _ _ (logCommit_keeps _ _ _ (keeps_ite _ _ _ _ hx (keeps_flt _ _ _ hx ?_)))
    exact armInject_sound _ _ _ _ _

@[simp] theorem execErrpwExpiry_keeps (s : State) : KeepsO s (execErrpwExpiry s) := by
  unfold execErrpwExpiry
  refine keepsO_next _ _ ?_
  refine keeps_ite _ _ _ _ (keeps_flt _ _ _ (keeps_refl _) fun h => ⟨h.1, fun hn => ?_⟩) (keeps_refl _)
  have := h.2 hn
  simp [this.1, this.2]

@[simp] theorem execErrNReadbackMismatch_keeps (level : Bool) (s : State) : KeepsO s (execErrNReadbackMismatch level s) := by
  unfold execErrNReadbackMismatch
  refine keepsO_next _ _ ?_
  try dsimp only
  repeat' (first | (simp (maxDischargeDepth := 30); done) | split | (simp (maxDischargeDepth := 30) +contextual; done))

@[simp] theorem execErrNReadbackAgree_keeps (s : State) : KeepsO s (execErrNReadbackAgree s) := by
  unfold execErrNReadbackAgree
  refine keepsO_next _ _ ?_
  try dsimp only
  repeat' (first | (simp (maxDischargeDepth := 30); done) | split | (simp (maxDischargeDepth := 30) +contextual; done))

@[simp] theorem execCpOpen_keeps (s : State) : KeepsO s (execCpOpen s) := by
  unfold execCpOpen
  refine keepsO_next _ _ (onCommand_keeps _ _ _ _ (keeps_refl _) fun e x hx => ?_)
  try dsimp only
  repeat' (first | (simp (maxDischargeDepth := 30) [hx]; done) | split | (simp (maxDischargeDepth := 30) +contextual [hx]; done))

@[simp] theorem execCpClose_keeps (s : State) : KeepsO s (execCpClose s) := by
  unfold execCpClose
  refine keepsO_next _ _ (onCommand_keeps _ _ _ _ (keeps_refl _) fun e x hx => ?_)
  try dsimp only
  repeat' (first | (simp (maxDischargeDepth := 30) [hx]; done) | split | (simp (maxDischargeDepth := 30) +contextual [hx]; done))

@[simp] theorem execCpSetPolicy_keeps (s : State) : KeepsO s (execCpSetPolicy s) := by
  unfold execCpSetPolicy
  refine keepsO_next _ _ (onCommand_keeps _ _ _ _ (keeps_refl _) fun e x hx => ?_)
  try dsimp only
  repeat' (first | (simp (maxDischargeDepth := 30) [hx]; done) | split | (simp (maxDischargeDepth := 30) +contextual [hx]; done))

@[simp] theorem execCpSetQuota_keeps (s : State) : KeepsO s (execCpSetQuota s) := by
  unfold execCpSetQuota
  refine keepsO_next _ _ (onCommand_keeps _ _ _ _ (keeps_refl _) fun e x hx => ?_)
  try dsimp only
  repeat' (first | (simp (maxDischargeDepth := 30) [hx]; done) | split | (simp (maxDischargeDepth := 30) +contextual [hx]; done))

@[simp] theorem execCpQuery_keeps (s : State) : KeepsO s (execCpQuery s) := by
  unfold execCpQuery
  refine keepsO_next _ _ (onCommand_keeps _ _ _ _ (keeps_refl _) fun e x hx => ?_)
  try dsimp only
  repeat' (first | (simp (maxDischargeDepth := 30) [hx]; done) | split | (simp (maxDischargeDepth := 30) +contextual [hx]; done))

@[simp] theorem execKeyImport_keeps (s : State) : KeepsO s (execKeyImport s) := by
  unfold execKeyImport
  refine keepsO_next _ _ (onCommand_keeps _ _ _ _ (keeps_refl _) fun e x hx => ?_)
  try dsimp only
  have hx1 : Keeps s (if (e.readIssued && blobFieldsOk (landed e)) = true then eccInjected 0x0B2 x else x) :=
    keeps_ite _ _ _ _ (eccInjected_keeps _ _ _ hx) hx
  generalize (if (e.readIssued && blobFieldsOk (landed e)) = true then eccInjected 0x0B2 x else x) = w at hx1
  repeat' split
  all_goals try (simp (maxDischargeDepth := 30) [hx1]; done)
  all_goals
    rename_i h
    have hq := installKey_keeps _ _ _ _ _ _ _ _ h hx1
    simp (maxDischargeDepth := 30) [hq]

@[simp] theorem execKeyGenerate_keeps (s : State) : KeepsO s (execKeyGenerate s) := by
  unfold execKeyGenerate
  refine keepsO_next _ _ (onCommand_keeps _ _ _ _ (keeps_refl _) fun e x hx => ?_)
  try dsimp only
  repeat' split
  all_goals try (simp (maxDischargeDepth := 30) [hx]; done)
  all_goals
    rename_i h
    have hq := installKey_keeps _ _ _ _ _ _ _ _ (by assumption) hx
    simp (maxDischargeDepth := 30) [hq]

@[simp] theorem execKeyExport_keeps (s : State) : KeepsO s (execKeyExport s) := by
  unfold execKeyExport
  refine keepsO_next _ _ (onCommand_keeps _ _ _ _ (keeps_refl _) fun e x hx => ?_)
  try dsimp only
  repeat' (first | (simp (maxDischargeDepth := 30) [hx]; done) | split | (simp (maxDischargeDepth := 30) +contextual [hx]; done))

@[simp] theorem execKeyDestroy_keeps (s : State) : KeepsO s (execKeyDestroy s) := by
  unfold execKeyDestroy
  refine keepsO_next _ _ (onCommand_keeps _ _ _ _ (keeps_refl _) fun e x hx => ?_)
  try dsimp only
  repeat' (first | (simp (maxDischargeDepth := 30) [hx]; done) | split | (simp (maxDischargeDepth := 30) +contextual [hx]; done))

@[simp] theorem execKeyStoreNvm_keeps (s : State) : KeepsO s (execKeyStoreNvm s) := by
  unfold execKeyStoreNvm
  refine keepsO_next _ _ (onCommand_keeps _ _ _ _ (keeps_refl _) fun e x hx => ?_)
  try dsimp only
  repeat' (first | (simp (maxDischargeDepth := 30) [hx]; done) | split | (simp (maxDischargeDepth := 30) +contextual [hx]; done))

@[simp] theorem execKeyLoadNvm_keeps (s : State) : KeepsO s (execKeyLoadNvm s) := by
  unfold execKeyLoadNvm
  refine keepsO_next _ _ (onCommand_keeps _ _ _ _ (keeps_refl _) fun e x hx => ?_)
  try dsimp only
  repeat' split
  all_goals try (simp (maxDischargeDepth := 30) [hx]; done)
  all_goals
    rename_i h
    have hq := installKey_keeps _ _ _ _ _ _ _ _ (by assumption) hx
    simp (maxDischargeDepth := 30) [hq]

@[simp] theorem execSessionCreate_keeps (s : State) : KeepsO s (execSessionCreate s) := by
  unfold execSessionCreate
  refine keepsO_next _ _ (onCommand_keeps _ _ _ _ (keeps_refl _) fun e x hx => ?_)
  try dsimp only
  repeat' (first | (simp (maxDischargeDepth := 30) [hx]; done) | split | (simp (maxDischargeDepth := 30) +contextual [hx]; done))

@[simp] theorem execSessionBindRing_keeps (s : State) : KeepsO s (execSessionBindRing s) := by
  unfold execSessionBindRing
  refine keepsO_next _ _ (onCommand_keeps _ _ _ _ (keeps_refl _) fun e x hx => ?_)
  try dsimp only
  repeat' (first | (simp (maxDischargeDepth := 30) [hx]; done) | split | (simp (maxDischargeDepth := 30) +contextual [hx]; done))

@[simp] theorem execSessionClose_keeps (s : State) : KeepsO s (execSessionClose s) := by
  unfold execSessionClose
  refine keepsO_next _ _ (onCommand_keeps _ _ _ _ (keeps_refl _) fun e x hx => ?_)
  try dsimp only
  repeat' (first | (simp (maxDischargeDepth := 30) [hx]; done) | split | (simp (maxDischargeDepth := 30) +contextual [hx]; done))

@[simp] theorem execSessionQuery_keeps (s : State) : KeepsO s (execSessionQuery s) := by
  unfold execSessionQuery
  refine keepsO_next _ _ (onCommand_keeps _ _ _ _ (keeps_refl _) fun e x hx => ?_)
  try dsimp only
  repeat' (first | (simp (maxDischargeDepth := 30) [hx]; done) | split | (simp (maxDischargeDepth := 30) +contextual [hx]; done))

@[simp] theorem execRingCreate_keeps (s : State) : KeepsO s (execRingCreate s) := by
  unfold execRingCreate
  refine keepsO_next _ _ (onCommand_keeps _ _ _ _ (keeps_refl _) fun e x hx => ?_)
  try dsimp only
  repeat' (first | (simp (maxDischargeDepth := 30) [hx]; done) | split | (simp (maxDischargeDepth := 30) +contextual [hx]; done))

@[simp] theorem execCplRingCreate_keeps (s : State) : KeepsO s (execCplRingCreate s) := by
  unfold execCplRingCreate
  refine keepsO_next _ _ (onCommand_keeps _ _ _ _ (keeps_refl _) fun e x hx => ?_)
  try dsimp only
  repeat' (first | (simp (maxDischargeDepth := 30) [hx]; done) | split | (simp (maxDischargeDepth := 30) +contextual [hx]; done))

@[simp] theorem execRingDestroy_keeps (s : State) : KeepsO s (execRingDestroy s) := by
  unfold execRingDestroy
  refine keepsO_next _ _ (onCommand_keeps _ _ _ _ (keeps_refl _) fun e x hx => ?_)
  try dsimp only
  repeat' (first | (simp (maxDischargeDepth := 30) [hx]; done) | split | (simp (maxDischargeDepth := 30) +contextual [hx]; done))

@[simp] theorem execRingRestart_keeps (s : State) : KeepsO s (execRingRestart s) := by
  unfold execRingRestart
  refine keepsO_next _ _ (onCommand_keeps _ _ _ _ (keeps_refl _) fun e x hx => ?_)
  try dsimp only
  repeat' (first | (simp (maxDischargeDepth := 30) [hx]; done) | split | (simp (maxDischargeDepth := 30) +contextual [hx]; done))

@[simp] theorem execRingSetCoalesce_keeps (s : State) : KeepsO s (execRingSetCoalesce s) := by
  unfold execRingSetCoalesce
  refine keepsO_next _ _ (onCommand_keeps _ _ _ _ (keeps_refl _) fun e x hx => ?_)
  try dsimp only
  repeat' (first | (simp (maxDischargeDepth := 30) [hx]; done) | split | (simp (maxDischargeDepth := 30) +contextual [hx]; done))

@[simp] theorem execRingQuery_keeps (s : State) : KeepsO s (execRingQuery s) := by
  unfold execRingQuery
  refine keepsO_next _ _ (onCommand_keeps _ _ _ _ (keeps_refl _) fun e x hx => ?_)
  try dsimp only
  repeat' (first | (simp (maxDischargeDepth := 30) [hx]; done) | split | (simp (maxDischargeDepth := 30) +contextual [hx]; done))

@[simp] theorem execWindowLease_keeps (s : State) : KeepsO s (execWindowLease s) := by
  unfold execWindowLease
  refine keepsO_next _ _ (onCommand_keeps _ _ _ _ (keeps_refl _) fun e x hx => ?_)
  try dsimp only
  repeat' split
  all_goals try (simp (maxDischargeDepth := 30) [hx]; done)
  all_goals
    refine answer_keeps _ _ _ _ _ (logCommit_keeps _ _ _ (keeps_eng _ _ _ hx ?_))
    exact leasesSound_tput _ _ _ rfl

@[simp] theorem execWindowRelease_keeps (s : State) : KeepsO s (execWindowRelease s) := by
  unfold execWindowRelease
  refine keepsO_next _ _ (onCommand_keeps _ _ _ _ (keeps_refl _) fun e x hx => ?_)
  try dsimp only
  refine onLease_mem _ _ _ _ hx fun ix l hl => fence_keeps _ _ _ _ _ (keeps_eng _ _ _ hx fun h => ?_)
  exact leasesSound_tput _ _ _ (h _ hl) h

@[simp] theorem execOperandClear_keeps (s : State) : KeepsO s (execOperandClear s) := by
  unfold execOperandClear
  refine keepsO_next _ _ (onCommand_keeps _ _ _ _ (keeps_refl _) fun e x hx => ?_)
  try dsimp only
  refine onLease_mem _ _ _ _ hx fun ix l hl => ?_
  refine setEntry_keeps _ _ _ _ (logCommit_keeps _ _ _ (keeps_eng _ _ _ hx fun h => ?_))
  exact leasesSound_tput _ _ _ (h _ hl) h

@[simp] theorem execWindowQuery_keeps (s : State) : KeepsO s (execWindowQuery s) := by
  unfold execWindowQuery
  refine keepsO_next _ _ (onCommand_keeps _ _ _ _ (keeps_refl _) fun e x hx => ?_)
  try dsimp only
  repeat' (first | (simp (maxDischargeDepth := 30) [hx]; done) | split | (simp (maxDischargeDepth := 30) +contextual [hx]; done))

@[simp] theorem execLeaseZeroingComplete_keeps (window : BitVec 9) (s : State) : KeepsO s (execLeaseZeroingComplete window s) := by
  unfold execLeaseZeroingComplete
  refine keepsO_next _ _ ?_
  repeat' split
  all_goals try (simp (maxDischargeDepth := 30); done)
  all_goals
    refine finish_keeps _ _ _ _ (keeps_eng _ _ _ (keeps_refl _) fun h => ?_)
    exact leasesSound_tput _ _ _ rfl h

@[simp] theorem execOutputChunkRelease_keeps (job : BitVec 13) (s : State) : KeepsO s (execOutputChunkRelease job s) := by
  unfold execOutputChunkRelease
  refine keepsO_next _ _ ?_
  try dsimp only
  repeat' (first | (simp (maxDischargeDepth := 30); done) | split | (simp (maxDischargeDepth := 30) +contextual; done))

@[simp] theorem execEncrypt_keeps (job : BitVec 13) (agree : Bool) (s : State) : KeepsO s (execEncrypt job agree s) := by
  unfold execEncrypt
  refine keepsO_next _ _ ?_
  try dsimp only
  repeat' (first | (simp (maxDischargeDepth := 30); done) | split | (simp (maxDischargeDepth := 30) +contextual; done))

@[simp] theorem execDecrypt_keeps (job : BitVec 13) (agree : Bool) (s : State) : KeepsO s (execDecrypt job agree s) := by
  unfold execDecrypt
  refine keepsO_next _ _ ?_
  try dsimp only
  repeat' (first | (simp (maxDischargeDepth := 30); done) | split | (simp (maxDischargeDepth := 30) +contextual; done))

@[simp] theorem execMacGen_keeps (job : BitVec 13) (agree : Bool) (s : State) : KeepsO s (execMacGen job agree s) := by
  unfold execMacGen
  refine keepsO_next _ _ ?_
  try dsimp only
  repeat' (first | (simp (maxDischargeDepth := 30); done) | split | (simp (maxDischargeDepth := 30) +contextual; done))

@[simp] theorem execMacVerify_keeps (job : BitVec 13) (agree : Bool) (s : State) : KeepsO s (execMacVerify job agree s) := by
  unfold execMacVerify
  refine keepsO_next _ _ ?_
  try dsimp only
  repeat' (first | (simp (maxDischargeDepth := 30); done) | split | (simp (maxDischargeDepth := 30) +contextual; done))

@[simp] theorem execUrgentSuspendComplete_keeps (nib : Fin 20) (s : State) : KeepsO s (execUrgentSuspendComplete nib s) := by
  unfold execUrgentSuspendComplete
  try dsimp only
  (try refine keepsO_next _ _ ?_)
  repeat' (first | (simp (maxDischargeDepth := 30); done) | split | (refine keepsO_next _ _ ?_; done))

@[simp] theorem execDigest_keeps (job : BitVec 13) (agree : Bool) (s : State) : KeepsO s (execDigest job agree s) := by
  unfold execDigest
  refine keepsO_next _ _ ?_
  try dsimp only
  repeat' (first | (simp (maxDischargeDepth := 30); done) | split | (simp (maxDischargeDepth := 30) +contextual; done))

@[simp] theorem execDigestVerify_keeps (job : BitVec 13) (agree : Bool) (s : State) : KeepsO s (execDigestVerify job agree s) := by
  unfold execDigestVerify
  refine keepsO_next _ _ ?_
  try dsimp only
  repeat' (first | (simp (maxDischargeDepth := 30); done) | split | (simp (maxDischargeDepth := 30) +contextual; done))

@[simp] theorem execHmacGen_keeps (job : BitVec 13) (agree : Bool) (s : State) : KeepsO s (execHmacGen job agree s) := by
  unfold execHmacGen
  refine keepsO_next _ _ ?_
  try dsimp only
  repeat' (first | (simp (maxDischargeDepth := 30); done) | split | (simp (maxDischargeDepth := 30) +contextual; done))

@[simp] theorem execHmacVerify_keeps (job : BitVec 13) (agree : Bool) (s : State) : KeepsO s (execHmacVerify job agree s) := by
  unfold execHmacVerify
  refine keepsO_next _ _ ?_
  try dsimp only
  repeat' (first | (simp (maxDischargeDepth := 30); done) | split | (simp (maxDischargeDepth := 30) +contextual; done))

@[simp] theorem execHookOp_keeps (job : BitVec 13) (agree : Bool) (s : State) : KeepsO s (execHookOp job agree s) := by
  unfold execHookOp
  refine keepsO_next _ _ ?_
  try dsimp only
  repeat' (first | (simp (maxDischargeDepth := 30); done) | split | (simp (maxDischargeDepth := 30) +contextual; done))

@[simp] theorem execRandom_keeps (job : BitVec 13) (s : State) : KeepsO s (execRandom job s) := by
  unfold execRandom
  refine keepsO_next _ _ ?_
  try dsimp only
  repeat' (first | (simp (maxDischargeDepth := 30); done) | split | (simp (maxDischargeDepth := 30) +contextual; done))

@[simp] theorem execNeedleAdmission_keeps (s : State) : KeepsO s (execNeedleAdmission s) := by
  unfold execNeedleAdmission
  refine keepsO_next _ _ ?_
  try dsimp only
  repeat' (first | (simp (maxDischargeDepth := 30); done) | split | (simp (maxDischargeDepth := 30) +contextual; done))

@[simp] theorem execHeldJobRelease_keeps (s : State) : KeepsO s (execHeldJobRelease s) := by
  unfold execHeldJobRelease
  refine keepsO_next _ _ ?_
  try dsimp only
  repeat' (first | (simp (maxDischargeDepth := 30); done) | split | (simp (maxDischargeDepth := 30) +contextual; done))

@[simp] theorem execWindowOpening_keeps (channel : Fin 64) (s : State) : KeepsO s (execWindowOpening channel s) := by
  unfold execWindowOpening
  refine keepsO_next _ _ ?_
  try dsimp only
  repeat' (first | (simp (maxDischargeDepth := 30); done) | split | (simp (maxDischargeDepth := 30) +contextual; done))

@[simp] theorem execStreamWord_keeps (beat : StreamBeat) (s : State) : KeepsO s (execStreamWord beat s) := by
  unfold execStreamWord
  try dsimp only
  (try refine keepsO_next _ _ ?_)
  repeat' (first | (simp (maxDischargeDepth := 30); done) | split | (refine keepsO_next _ _ ?_; done))

@[simp] theorem execStreamFrameVerify_keeps (job : BitVec 13) (agree parityOk : Bool) (s : State) : KeepsO s (execStreamFrameVerify job agree parityOk s) := by
  unfold execStreamFrameVerify
  refine keepsO_next _ _ ?_
  try dsimp only
  repeat' (first | (simp (maxDischargeDepth := 30); done) | split | (simp (maxDischargeDepth := 30) +contextual; done))

@[simp] theorem execStreamFrameTag_keeps (job : BitVec 13) (agree parityOk : Bool) (s : State) : KeepsO s (execStreamFrameTag job agree parityOk s) := by
  unfold execStreamFrameTag
  refine keepsO_next _ _ ?_
  try dsimp only
  repeat' (first | (simp (maxDischargeDepth := 30); done) | split | (simp (maxDischargeDepth := 30) +contextual; done))

@[simp] theorem execStreamOpen_keeps (s : State) : KeepsO s (execStreamOpen s) := by
  unfold execStreamOpen
  refine keepsO_next _ _ (onCommand_keeps _ _ _ _ (keeps_refl _) fun e x hx => ?_)
  try dsimp only
  repeat' (first | (simp (maxDischargeDepth := 30) [hx]; done) | split | (simp (maxDischargeDepth := 30) +contextual [hx]; done))

@[simp] theorem execStreamClose_keeps (s : State) : KeepsO s (execStreamClose s) := by
  unfold execStreamClose
  refine keepsO_next _ _ (onCommand_keeps _ _ _ _ (keeps_refl _) fun e x hx => ?_)
  try dsimp only
  repeat' (first | (simp (maxDischargeDepth := 30) [hx]; done) | split | (simp (maxDischargeDepth := 30) +contextual [hx]; done))

@[simp] theorem execStreamDropRest_keeps (s : State) : KeepsO s (execStreamDropRest s) := by
  unfold execStreamDropRest
  refine keepsO_next _ _ (onCommand_keeps _ _ _ _ (keeps_refl _) fun e x hx => ?_)
  try dsimp only
  repeat' (first | (simp (maxDischargeDepth := 30) [hx]; done) | split | (simp (maxDischargeDepth := 30) +contextual [hx]; done))

@[simp] theorem execStreamSetWindow_keeps (s : State) : KeepsO s (execStreamSetWindow s) := by
  unfold execStreamSetWindow
  refine keepsO_next _ _ (onCommand_keeps _ _ _ _ (keeps_refl _) fun e x hx => ?_)
  try dsimp only
  repeat' (first | (simp (maxDischargeDepth := 30) [hx]; done) | split | (simp (maxDischargeDepth := 30) +contextual [hx]; done))

end Sys2Proof.Machine
end

