-- ==== Sys2Proof/Laws/KeptExecB.lean ====
section
/-! SUPPORT. What the commands keep, second half: one lemma per meaning. -/
namespace Sys2Proof.Machine
open Sys2Proof.Safety
set_option linter.unusedSimpArgs false

@[simp] theorem execTimeQuery_keeps (s : State) : KeepsO s (execTimeQuery s) := by
  unfold execTimeQuery
  refine keepsO_next _ _ (onCommand_keeps _ _ _ _ (keeps_refl _) fun e x hx => ?_)
  try dsimp only
  repeat' (first | (simp (maxDischargeDepth := 30) [hx]; done) | split | (simp (maxDischargeDepth := 30) +contextual [hx]; done))

@[simp] theorem execTimeSetPolicy_keeps (s : State) : KeepsO s (execTimeSetPolicy s) := by
  unfold execTimeSetPolicy
  refine keepsO_next _ _ (onCommand_keeps _ _ _ _ (keeps_refl _) fun e x hx => ?_)
  try dsimp only
  repeat' (first | (simp (maxDischargeDepth := 30) [hx]; done) | split | (simp (maxDischargeDepth := 30) +contextual [hx]; done))

@[simp] theorem execEpochSchedule_keeps (s : State) : KeepsO s (execEpochSchedule s) := by
  unfold execEpochSchedule
  refine keepsO_next _ _ (onCommand_keeps _ _ _ _ (keeps_refl _) fun e x hx => ?_)
  try dsimp only
  repeat' (first | (simp (maxDischargeDepth := 30) [hx]; done) | split | (simp (maxDischargeDepth := 30) +contextual [hx]; done))

@[simp] theorem execCellStartupTestEnd_keeps (cell : Fin 16) (pass : Bool) (s : State) : KeepsO s (execCellStartupTestEnd cell pass s) := by
  unfold execCellStartupTestEnd
  refine keepsO_next _ _ ?_
  dsimp only
  repeat' split
  all_goals simp (maxDischargeDepth := 30)

@[simp] theorem execCellRetestEnd_keeps (cell : Fin 16) (pass : Bool) (s : State) : KeepsO s (execCellRetestEnd cell pass s) := by
  unfold execCellRetestEnd
  refine keepsO_next _ _ ?_
  dsimp only
  repeat' split
  all_goals simp (maxDischargeDepth := 30)

@[simp] theorem execHealthWindowClose_keeps (cell : Fin 16) (count : BitVec 11) (s : State) : KeepsO s (execHealthWindowClose cell count s) := by
  unfold execHealthWindowClose
  try dsimp only
  (try refine keepsO_next _ _ ?_)
  repeat' (first | (simp (maxDischargeDepth := 30); done) | split | (refine keepsO_next _ _ ?_; done))

@[simp] theorem execRepetitionCountFailure_keeps (cell : Fin 16) (s : State) : KeepsO s (execRepetitionCountFailure cell s) := by
  unfold execRepetitionCountFailure
  try dsimp only
  (try refine keepsO_next _ _ ?_)
  repeat' (first | (simp (maxDischargeDepth := 30); done) | split | (refine keepsO_next _ _ ?_; done))

@[simp] theorem execCellRotation_keeps (s : State) : KeepsO s (execCellRotation s) := by
  unfold execCellRotation
  refine keepsO_next _ _ ?_
  try dsimp only
  repeat' (first | (simp (maxDischargeDepth := 30); done) | split | (simp (maxDischargeDepth := 30) +contextual; done))

@[simp] theorem execInkClockLost_keeps (s : State) : KeepsO s (execInkClockLost s) := by
  unfold execInkClockLost
  refine keepsO_next _ _ ?_
  try dsimp only
  repeat' (first | (simp (maxDischargeDepth := 30); done) | split | (simp (maxDischargeDepth := 30) +contextual; done))

@[simp] theorem execInkClockReturn_keeps (s : State) : KeepsO s (execInkClockReturn s) := by
  unfold execInkClockReturn
  refine keepsO_next _ _ ?_
  try dsimp only
  repeat' (first | (simp (maxDischargeDepth := 30); done) | split | (simp (maxDischargeDepth := 30) +contextual; done))

@[simp] theorem execConditionerOutput_keeps (agree : Bool) (s : State) : KeepsO s (execConditionerOutput agree s) := by
  unfold execConditionerOutput
  refine keepsO_next _ _ ?_
  try dsimp only
  repeat' (first | (simp (maxDischargeDepth := 30); done) | split | (simp (maxDischargeDepth := 30) +contextual; done))

@[simp] theorem execFeedReseedDue_keeps (feed : Fin 8) (agree : Bool) (s : State) : KeepsO s (execFeedReseedDue feed agree s) := by
  unfold execFeedReseedDue
  try dsimp only
  (try refine keepsO_next _ _ ?_)
  repeat' (first | (simp (maxDischargeDepth := 30); done) | split | (refine keepsO_next _ _ ?_; done))

@[simp] theorem execRngDataRefill_keeps (s : State) : KeepsO s (execRngDataRefill s) := by
  unfold execRngDataRefill
  refine keepsO_next _ _ ?_
  try dsimp only
  repeat' (first | (simp (maxDischargeDepth := 30); done) | split | (simp (maxDischargeDepth := 30) +contextual; done))

@[simp] theorem execRngFill_keeps (s : State) : KeepsO s (execRngFill s) := by
  unfold execRngFill
  refine keepsO_next _ _ (onCommand_keeps _ _ _ _ (keeps_refl _) fun e x hx => ?_)
  try dsimp only
  repeat' (first | (simp (maxDischargeDepth := 30) [hx]; done) | split | (simp (maxDischargeDepth := 30) +contextual [hx]; done))

@[simp] theorem execRngReseed_keeps (s : State) : KeepsO s (execRngReseed s) := by
  unfold execRngReseed
  refine keepsO_next _ _ (onCommand_keeps _ _ _ _ (keeps_refl _) fun e x hx => ?_)
  try dsimp only
  repeat' (first | (simp (maxDischargeDepth := 30) [hx]; done) | split | (simp (maxDischargeDepth := 30) +contextual [hx]; done))

@[simp] theorem execRngHealth_keeps (s : State) : KeepsO s (execRngHealth s) := by
  unfold execRngHealth
  refine keepsO_next _ _ (onCommand_keeps _ _ _ _ (keeps_refl _) fun e x hx => ?_)
  try dsimp only
  repeat' (first | (simp (maxDischargeDepth := 30) [hx]; done) | split | (simp (maxDischargeDepth := 30) +contextual [hx]; done))

@[simp] theorem execUnitDrainEnd_keeps (engsel : BitVec 10) (s : State) : KeepsO s (execUnitDrainEnd engsel s) := by
  unfold execUnitDrainEnd
  try dsimp only
  (try refine keepsO_next _ _ ?_)
  repeat' (first | (simp (maxDischargeDepth := 30); done) | split | (refine keepsO_next _ _ ?_; done))

@[simp] theorem execQuillContextCopyEnd_keeps (quill : Fin 14) (s : State) : KeepsO s (execQuillContextCopyEnd quill s) := by
  unfold execQuillContextCopyEnd
  try dsimp only
  (try refine keepsO_next _ _ ?_)
  repeat' (first | (simp (maxDischargeDepth := 30); done) | split | (refine keepsO_next _ _ ?_; done))

@[simp] theorem execHookWindowCopyEnd_keeps (hook : Fin 9) (s : State) : KeepsO s (execHookWindowCopyEnd hook s) := by
  unfold execHookWindowCopyEnd
  refine keepsO_next _ _ ?_
  split
  · exact keeps_refl _
  · refine keeps_ite _ _ _ _ (startDue_keeps _ _ (keeps_eng _ _ _ (keeps_refl _) fun h => leasesSound_map _ _ (fun e he => ?_) h)) (keeps_refl _)
    dsimp only
    split <;> exact he

@[simp] theorem execSweepStep_keeps (s : State) : KeepsO s (execSweepStep s) := by
  unfold execSweepStep
  refine keepsO_next _ _ ?_
  try dsimp only
  repeat' (first | (simp (maxDischargeDepth := 30); done) | split | (simp (maxDischargeDepth := 30) +contextual; done))

@[simp] theorem execSweepTestEnd_keeps (result : TestEnd) (s : State) : KeepsO s (execSweepTestEnd result s) := by
  unfold execSweepTestEnd
  refine keepsO_next _ _ ?_
  try dsimp only
  repeat' (first | (simp (maxDischargeDepth := 30); done) | split | (simp (maxDischargeDepth := 30) +contextual; done))

@[simp] theorem execUnitRetire_keeps (s : State) : KeepsO s (execUnitRetire s) := by
  unfold execUnitRetire
  refine keepsO_next _ _ (onCommand_keeps _ _ _ _ (keeps_refl _) fun e x hx => ?_)
  try dsimp only
  repeat' (first | (simp (maxDischargeDepth := 30) [hx]; done) | split | (simp (maxDischargeDepth := 30) +contextual [hx]; done))

@[simp] theorem execUnitTest_keeps (s : State) : KeepsO s (execUnitTest s) := by
  unfold execUnitTest
  refine keepsO_next _ _ (onCommand_keeps _ _ _ _ (keeps_refl _) fun e x hx => ?_)
  try dsimp only
  repeat' (first | (simp (maxDischargeDepth := 30) [hx]; done) | split | (simp (maxDischargeDepth := 30) +contextual [hx]; done))

@[simp] theorem execSweepControl_keeps (s : State) : KeepsO s (execSweepControl s) := by
  unfold execSweepControl
  refine keepsO_next _ _ (onCommand_keeps _ _ _ _ (keeps_refl _) fun e x hx => ?_)
  try dsimp only
  repeat' (first | (simp (maxDischargeDepth := 30) [hx]; done) | split | (simp (maxDischargeDepth := 30) +contextual [hx]; done))

@[simp] theorem execPatrolScrubRow_keeps (array : BitVec 9) (row : BitVec 12) (found : ScrubResult) (s : State) : KeepsO s (execPatrolScrubRow array row found s) := by
  unfold execPatrolScrubRow
  try dsimp only
  (try refine keepsO_next _ _ ?_)
  repeat' (first | (simp (maxDischargeDepth := 30); done) | split | (refine keepsO_next _ _ ?_; done))

@[simp] theorem execRowRepair_keeps (s : State) : KeepsO s (execRowRepair s) := by
  unfold execRowRepair
  refine keepsO_next _ _ (onCommand_keeps _ _ _ _ (keeps_refl _) fun e x hx => ?_)
  try dsimp only
  repeat' (first | (simp (maxDischargeDepth := 30) [hx]; done) | split | (simp (maxDischargeDepth := 30) +contextual [hx]; done))

@[simp] theorem execRowRepairCopyEnd_keeps (array : BitVec 9) (s : State) : KeepsO s (execRowRepairCopyEnd array s) := by
  unfold execRowRepairCopyEnd
  try dsimp only
  (try refine keepsO_next _ _ ?_)
  repeat' (first | (simp (maxDischargeDepth := 30); done) | split | (refine keepsO_next _ _ ?_; done))

@[simp] theorem execFaultEvent_keeps (source : BitVec 12) (kind : BitVec 6) (address : BitVec 44) (s : State) : KeepsO s (execFaultEvent source kind address s) := by
  unfold execFaultEvent
  try dsimp only
  (try refine keepsO_next _ _ ?_)
  repeat' (first | (simp (maxDischargeDepth := 30); done) | split | (refine keepsO_next _ _ ?_; done))

@[simp] theorem execLaneHeaderLock_keeps (lane : Fin 34) (s : State) : KeepsO s (execLaneHeaderLock lane s) := by
  unfold execLaneHeaderLock
  refine keepsO_next _ _ ?_
  try dsimp only
  repeat' (first | (simp (maxDischargeDepth := 30); done) | split | (simp (maxDischargeDepth := 30) +contextual; done))

@[simp] theorem execLaneLockLost_keeps (lane : Fin 34) (s : State) : KeepsO s (execLaneLockLost lane s) := by
  unfold execLaneLockLost
  refine keepsO_next _ _ ?_
  try dsimp only
  repeat' (first | (simp (maxDischargeDepth := 30); done) | split | (simp (maxDischargeDepth := 30) +contextual; done))

@[simp] theorem execLaneAlignmentMarker_keeps (lane : Fin 34) (typeByte : Byte) (logical complement : BitVec 6) (count : BitVec 16) (skew : BitVec 4) (s : State) : KeepsO s (execLaneAlignmentMarker lane typeByte logical complement count skew s) := by
  unfold execLaneAlignmentMarker
  try dsimp only
  (try refine keepsO_next _ _ ?_)
  repeat' (first | (simp (maxDischargeDepth := 30); done) | split | (refine keepsO_next _ _ ?_; done))

@[simp] theorem execLinkTrainingComplete_keeps (healthy : BitVec 34) (s : State) : KeepsO s (execLinkTrainingComplete healthy s) := by
  unfold execLinkTrainingComplete
  try dsimp only
  (try refine keepsO_next _ _ ?_)
  repeat' (first | (simp (maxDischargeDepth := 30); done) | split | (refine keepsO_next _ _ ?_; done))

@[simp] theorem execLaneRefclkLoss_keeps (s : State) : KeepsO s (execLaneRefclkLoss s) := by
  unfold execLaneRefclkLoss
  refine keepsO_next _ _ ?_
  try dsimp only
  repeat' (first | (simp (maxDischargeDepth := 30); done) | split | (simp (maxDischargeDepth := 30) +contextual; done))

@[simp] theorem execLaneDead_keeps (lane : Fin 34) (s : State) : KeepsO s (execLaneDead lane s) := by
  unfold execLaneDead
  try dsimp only
  (try refine keepsO_next _ _ ?_)
  repeat' (first | (simp (maxDischargeDepth := 30); done) | split | (refine keepsO_next _ _ ?_; done))

@[simp] theorem execFlitReceived_keeps (flit : Bytes) (s : State) : KeepsO s (execFlitReceived flit s) := by
  unfold execFlitReceived
  try dsimp only
  (try refine keepsO_next _ _ ?_)
  repeat' (first | (simp (maxDischargeDepth := 30); done) | split | (refine keepsO_next _ _ ?_; done))

@[simp] theorem execNakReceived_keeps (lastGood : BitVec 12) (s : State) : KeepsO s (execNakReceived lastGood s) := by
  unfold execNakReceived
  refine keepsO_next _ _ ?_
  try dsimp only
  repeat' (first | (simp (maxDischargeDepth := 30); done) | split | (simp (maxDischargeDepth := 30) +contextual; done))

@[simp] theorem execStoreSettings_keeps (s : State) : KeepsO s (execStoreSettings s) := by
  unfold execStoreSettings
  refine keepsO_next _ _ (onCommand_keeps _ _ _ _ (keeps_refl _) fun e x hx => ?_)
  try dsimp only
  repeat' (first | (simp (maxDischargeDepth := 30) [hx]; done) | split | (simp (maxDischargeDepth := 30) +contextual [hx]; done))

@[simp] theorem execSettingsImageLoad_keeps (s : State) : KeepsO s (execSettingsImageLoad s) := by
  unfold execSettingsImageLoad
  refine keepsO_next _ _ (onCommand_keeps _ _ _ _ (keeps_refl _) fun e x hx => ?_)
  try dsimp only
  repeat' (first | (simp (maxDischargeDepth := 30) [hx]; done) | split | (simp (maxDischargeDepth := 30) +contextual [hx]; done))

@[simp] theorem execNvmQuery_keeps (s : State) : KeepsO s (execNvmQuery s) := by
  unfold execNvmQuery
  refine keepsO_next _ _ (onCommand_keeps _ _ _ _ (keeps_refl _) fun e x hx => ?_)
  try dsimp only
  repeat' (first | (simp (maxDischargeDepth := 30) [hx]; done) | split | (simp (maxDischargeDepth := 30) +contextual [hx]; done))

@[simp] theorem execCounterRead_keeps (s : State) : KeepsO s (execCounterRead s) := by
  unfold execCounterRead
  refine keepsO_next _ _ (onCommand_keeps _ _ _ _ (keeps_refl _) fun e x hx => ?_)
  try dsimp only
  repeat' (first | (simp (maxDischargeDepth := 30) [hx]; done) | split | (simp (maxDischargeDepth := 30) +contextual [hx]; done))

@[simp] theorem execCounterIncrement_keeps (s : State) : KeepsO s (execCounterIncrement s) := by
  unfold execCounterIncrement
  refine keepsO_next _ _ (onCommand_keeps _ _ _ _ (keeps_refl _) fun e x hx => ?_)
  try dsimp only
  repeat' (first | (simp (maxDischargeDepth := 30) [hx]; done) | split | (simp (maxDischargeDepth := 30) +contextual [hx]; done))

@[simp] theorem execJournalReplayEnd_keeps (s : State) : KeepsO s (execJournalReplayEnd s) := by
  unfold execJournalReplayEnd
  refine keepsO_next _ _ ?_
  try dsimp only
  repeat' (first | (simp (maxDischargeDepth := 30); done) | split | (simp (maxDischargeDepth := 30) +contextual; done))

@[simp] theorem execFwBegin_keeps (s : State) : KeepsO s (execFwBegin s) := by
  unfold execFwBegin
  refine keepsO_next _ _ (onCommand_keeps _ _ _ _ (keeps_refl _) fun e x hx => ?_)
  try dsimp only
  repeat' (first | (simp (maxDischargeDepth := 30) [hx]; done) | split | (simp (maxDischargeDepth := 30) +contextual [hx]; done))

@[simp] theorem execFwChunk_keeps (s : State) : KeepsO s (execFwChunk s) := by
  unfold execFwChunk
  refine keepsO_next _ _ (onCommand_keeps _ _ _ _ (keeps_refl _) fun e x hx => ?_)
  try dsimp only
  repeat' (first | (simp (maxDischargeDepth := 30) [hx]; done) | split | (simp (maxDischargeDepth := 30) +contextual [hx]; done))

@[simp] theorem execFwEnd_keeps (s : State) : KeepsO s (execFwEnd s) := by
  unfold execFwEnd
  refine keepsO_next _ _ (onCommand_keeps _ _ _ _ (keeps_refl _) fun e x hx => ?_)
  try dsimp only
  repeat' (first | (simp (maxDischargeDepth := 30) [hx]; done) | split | (simp (maxDischargeDepth := 30) +contextual [hx]; done))

@[simp] theorem execFwAbort_keeps (s : State) : KeepsO s (execFwAbort s) := by
  unfold execFwAbort
  refine keepsO_next _ _ (onCommand_keeps _ _ _ _ (keeps_refl _) fun e x hx => ?_)
  try dsimp only
  repeat' (first | (simp (maxDischargeDepth := 30) [hx]; done) | split | (simp (maxDischargeDepth := 30) +contextual [hx]; done))

@[simp] theorem execActivate_keeps (s : State) : KeepsO s (execActivate s) := by
  unfold execActivate
  refine keepsO_next _ _ (onCommand_keeps _ _ _ _ (keeps_refl _) fun e x hx => ?_)
  try dsimp only
  repeat' (first | (simp (maxDischargeDepth := 30) [hx]; done) | split | (simp (maxDischargeDepth := 30) +contextual [hx]; done))

@[simp] theorem execActivateAt_keeps (s : State) : KeepsO s (execActivateAt s) := by
  unfold execActivateAt
  refine keepsO_next _ _ (onCommand_keeps _ _ _ _ (keeps_refl _) fun e x hx => ?_)
  refine keeps_ite _ _ _ _ (refuseAt_keeps _ _ _ _ _ hx) (keeps_getD _ _ _ (refuseAt_keeps _ _ _ _ _ hx) fun w hw => ?_)
  exact schedule_keeps _ _ _ _ _ hw (setEntry_keeps _ _ _ _ (Keeps.trans hx ⟨rfl, rfl, rfl, rfl, id, id, id⟩))

@[simp] theorem execActivationPreparationStart_keeps (s : State) : KeepsO s (execActivationPreparationStart s) := by
  unfold execActivationPreparationStart
  refine keepsO_next _ _ ?_
  try dsimp only
  repeat' (first | (simp (maxDischargeDepth := 30); done) | split | (simp (maxDischargeDepth := 30) +contextual; done))

@[simp] theorem execTokenHoldWindowStart_keeps (s : State) : KeepsO s (execTokenHoldWindowStart s) := by
  unfold execTokenHoldWindowStart
  refine keepsO_next _ _ ?_
  try dsimp only
  repeat' (first | (simp (maxDischargeDepth := 30); done) | split | (simp (maxDischargeDepth := 30) +contextual; done))

@[simp] theorem execActivationReadyTimeout_keeps (s : State) : KeepsO s (execActivationReadyTimeout s) := by
  unfold execActivationReadyTimeout
  refine keepsO_next _ _ ?_
  try dsimp only
  repeat' (first | (simp (maxDischargeDepth := 30); done) | split | (simp (maxDischargeDepth := 30) +contextual; done))

@[simp] theorem execActivationPauseStart_keeps (s : State) : KeepsO s (execActivationPauseStart s) := by
  unfold execActivationPauseStart
  refine keepsO_next _ _ ?_
  try dsimp only
  repeat' (first | (simp (maxDischargeDepth := 30); done) | split | (simp (maxDischargeDepth := 30) +contextual; done))

@[simp] theorem execConfirmHealth_keeps (s : State) : KeepsO s (execConfirmHealth s) := by
  unfold execConfirmHealth
  refine keepsO_next _ _ (onCommand_keeps _ _ _ _ (keeps_refl _) fun e x hx => ?_)
  try dsimp only
  repeat' (first | (simp (maxDischargeDepth := 30) [hx]; done) | split | (simp (maxDischargeDepth := 30) +contextual [hx]; done))

@[simp] theorem execMicrocodeRolloverUnit_keeps (unit : Reload) (s : State) : KeepsO s (execMicrocodeRolloverUnit unit s) := by
  unfold execMicrocodeRolloverUnit
  try dsimp only
  (try refine keepsO_next _ _ ?_)
  repeat' (first | (simp (maxDischargeDepth := 30); done) | split | (refine keepsO_next _ _ ?_; done))

@[simp] theorem execRelayPacket_keeps (s : State) : KeepsO s (execRelayPacket s) := by
  unfold execRelayPacket
  refine keepsO_next _ _ (onCommand_keeps _ _ _ _ (keeps_refl _) fun e x hx => ?_)
  try dsimp only
  repeat' (first | (simp (maxDischargeDepth := 30) [hx]; done) | split | (simp (maxDischargeDepth := 30) +contextual [hx]; done))

@[simp] theorem execCoreResetAssert_keeps (s : State) : KeepsO s (execCoreResetAssert s) := by
  unfold execCoreResetAssert
  refine keepsO_next _ _ ?_
  try dsimp only
  repeat' (first | (simp (maxDischargeDepth := 30); done) | split | (simp (maxDischargeDepth := 30) +contextual; done))

theorem execNvmOperationComplete_keeps (result : NvmResult) (s : State)
    (hw : ∀ o rest, s.nvm.ops = o :: rest → ∀ a b n d, o.work ≠ .transition a b n d) : KeepsO s (execNvmOperationComplete result s) := by
  unfold execNvmOperationComplete
  refine keepsO_next _ _ ?_
  split
  · exact keeps_refl _
  · rename_i o rest h
    have hv := fun x hx => verified_keeps s o rest x hx (hw o rest h)
    dsimp only
    repeat' split
    all_goals first | (simp (maxDischargeDepth := 30); done) | exact hv _ (by simp (maxDischargeDepth := 30))

@[simp] theorem execNvmEraseComplete_keeps (blankFirst blankSecond : Bool) (s : State) : KeepsO s (execNvmEraseComplete blankFirst blankSecond s) := by
  unfold execNvmEraseComplete
  refine keepsO_next _ _ ?_
  try dsimp only
  repeat' (first | (simp (maxDischargeDepth := 30); done) | split | (simp (maxDischargeDepth := 30) +contextual; done))

@[simp] theorem execLogCompaction_keeps (log : NvmLog) (s : State) : KeepsO s (execLogCompaction log s) := by
  unfold execLogCompaction
  try dsimp only
  (try refine keepsO_next _ _ ?_)
  repeat' (first | (simp (maxDischargeDepth := 30); done) | split | (refine keepsO_next _ _ ?_; done))

@[simp] theorem execVddNvmBrownout_keeps (s : State) : KeepsO s (execVddNvmBrownout s) := by
  unfold execVddNvmBrownout
  refine keepsO_next _ _ ?_
  try dsimp only
  repeat' (first | (simp (maxDischargeDepth := 30); done) | split | (simp (maxDischargeDepth := 30) +contextual; done))

@[simp] theorem execVddNvmRecover_keeps (s : State) : KeepsO s (execVddNvmRecover s) := by
  unfold execVddNvmRecover
  refine keepsO_next _ _ ?_
  try dsimp only
  repeat' (first | (simp (maxDischargeDepth := 30); done) | split | (simp (maxDischargeDepth := 30) +contextual; done))

@[simp] theorem execVddNvmLowTimeout_keeps (s : State) : KeepsO s (execVddNvmLowTimeout s) := by
  unfold execVddNvmLowTimeout
  refine keepsO_next _ _ ?_
  try dsimp only
  repeat' (first | (simp (maxDischargeDepth := 30); done) | split | (simp (maxDischargeDepth := 30) +contextual; done))

@[simp] theorem execReadCert_keeps (s : State) : KeepsO s (execReadCert s) := by
  unfold execReadCert
  refine keepsO_next _ _ (onCommand_keeps _ _ _ _ (keeps_refl _) fun e x hx => ?_)
  try dsimp only
  repeat' (first | (simp (maxDischargeDepth := 30) [hx]; done) | split | (simp (maxDischargeDepth := 30) +contextual [hx]; done))

@[simp] theorem execAttest_keeps (s : State) : KeepsO s (execAttest s) := by
  unfold execAttest
  refine keepsO_next _ _ (onCommand_keeps _ _ _ _ (keeps_refl _) fun e x hx => ?_)
  try dsimp only
  refine idChecked_keeps _ _ _ _ _ _ _ hx fun y hy => withInput_keeps _ _ _ _ _ hy fun b w hw => ?_
  split
  · simp [hw]
  · refine onHook_keeps _ _ _ _ _ hw fun v hv => ?_
    have h := signObject_keeps s (statement b v) v hv
    split <;> simp_all

@[simp] theorem execRewrapKey_keeps (s : State) : KeepsO s (execRewrapKey s) := by
  unfold execRewrapKey
  refine keepsO_next _ _ (onCommand_keeps _ _ _ _ (keeps_refl _) fun e x hx => ?_)
  try dsimp only
  refine idChecked_keeps _ _ _ _ _ _ _ hx fun y hy => ?_
  refine keeps_ite _ _ _ _ (by simp [hy]) (onHook_keeps _ _ _ _ _ hy fun v hv => ?_)
  have h := signObject_keeps s (rewrapRequest (wrapInc 32 v.id.lastRequest) (freeBytes v 112) (feedDraw 7 (feedDraw 7 (useFree 112 v))))
    (feedDraw 7 (feedDraw 7 (useFree 112 v))) (feedDraw_keeps _ _ _ (feedDraw_keeps _ _ _ (useFree_keeps _ _ _ hv)))
  split
  · rename_i hs
    rw [hs] at h
    exact idOutput_keeps _ _ _ _ (Keeps.trans h ⟨rfl, rfl, rfl, rfl, id, id, id⟩)
  · rename_i hs
    rw [hs] at h
    simp [h]

@[simp] theorem execProvision_keeps (s : State) : KeepsO s (execProvision s) := by
  unfold execProvision
  refine keepsO_next _ _ (onCommand_keeps _ _ _ _ (keeps_refl _) fun e x hx => ?_)
  try dsimp only
  repeat' (first | (simp (maxDischargeDepth := 30) [hx]; done) | split | (simp (maxDischargeDepth := 30) +contextual [hx]; done))

@[simp] theorem execPair_keeps (s : State) : KeepsO s (execPair s) := by
  unfold execPair
  refine keepsO_next _ _ (onCommand_keeps _ _ _ _ (keeps_refl _) fun e x hx => ?_)
  try dsimp only
  repeat' (first | (simp (maxDischargeDepth := 30) [hx]; done) | split | (simp (maxDischargeDepth := 30) +contextual [hx]; done))

@[simp] theorem execLifecycle_keeps (s : State) : KeepsO s (execLifecycle s) := by
  unfold execLifecycle
  refine keepsO_next _ _ (onCommand_keeps _ _ _ _ (keeps_refl _) fun e x hx => ?_)
  try dsimp only
  repeat' (first | (simp (maxDischargeDepth := 30) [hx]; done) | split | (simp (maxDischargeDepth := 30) +contextual [hx]; done))

@[simp] theorem execTapInstruction_keeps (ir : TapIr) (s : State) : KeepsO s (execTapInstruction ir s) := by
  unfold execTapInstruction
  refine keepsO_next _ _ ?_
  try dsimp only
  repeat' (first | (simp (maxDischargeDepth := 30); done) | split | (simp (maxDischargeDepth := 30) +contextual; done))

@[simp] theorem execBatonRenewal_keeps (scribe : Scribe) (epoch : BitVec 48) (s : State) : KeepsO s (execBatonRenewal scribe epoch s) := by
  unfold execBatonRenewal
  refine keepsO_next _ _ ?_
  refine keeps_ite _ _ _ _ (keeps_ite _ _ _ _ (by simp) (keeps_ite _ _ _ _ ?_ ?_)) (keeps_refl _)
  · exact keeps_baton _ _ _ (keeps_refl _) fun h => h
  · exact keeps_baton _ _ _ (keeps_refl _) fun h => h

@[simp] theorem execBatonLapse_keeps (s : State) : KeepsO s (execBatonLapse s) := by
  unfold execBatonLapse
  refine keepsO_next _ _ ?_
  have k : ∀ b : Baton, (BatonSound s.baton → BatonSound b) → Keeps s { s with baton := b } := fun b h => keeps_baton _ _ _ (keeps_refl _) h
  dsimp only
  refine keeps_ite _ _ _ _ (keeps_ite _ _ _ _ (by simp) (keeps_ite _ _ _ _ ?_ ?_)) (keeps_refl _)
  · exact raiseEvent_keeps _ _ _ _ _ (takeover_keeps _ _ _ (k _ fun h => h))
  · exact enterFailSilent_keeps _ _ _ (k _ fun h => h)

@[simp] theorem execScribeGoQuiet_keeps (scribe : Scribe) (s : State) : KeepsO s (execScribeGoQuiet scribe s) := by
  unfold execScribeGoQuiet
  refine keepsO_next _ _ ?_
  exact keeps_ite _ _ _ _ (keeps_baton _ _ _ (lateWrite_keeps _ _ _ (keeps_refl _)) (setScribe_sound _ _ _)) (keeps_refl _)

@[simp] theorem execStandbyReady_keeps (scribe : Scribe) (s : State) : KeepsO s (execStandbyReady scribe s) := by
  unfold execStandbyReady
  refine keepsO_next _ _ ?_
  exact keeps_ite _ _ _ _ (keeps_baton _ _ _ (keeps_refl _) (setScribe_sound _ _ _)) (keeps_refl _)

@[simp] theorem execReactionTimerExpiry_keeps (source : BitVec 12) (s : State) : KeepsO s (execReactionTimerExpiry source s) := by
  unfold execReactionTimerExpiry
  refine keepsO_next _ _ ?_
  refine keeps_ite _ _ _ _ (escalate_keeps _ _ _ (keeps_flt _ _ _ (keeps_refl _) ?_)) (keeps_refl _)
  exact faultsSound_tmod _ _ _ (fun _ => id)

@[simp] theorem execEscalationDeferredStart_keeps (s : State) : KeepsO s (execEscalationDeferredStart s) := by
  unfold execEscalationDeferredStart
  refine keepsO_next _ _ ?_
  repeat' split
  all_goals try (exact keeps_refl _)
  exact escalate_keeps _ _ _ (keeps_flt _ _ _ (keeps_refl _) (faultsSound_same _ _ ⟨rfl, rfl, rfl, rfl⟩))

@[simp] theorem execCoreResetRelease_keeps (tests : StartTests) (s : State) : KeepsO s (execCoreResetRelease tests s) := by
  unfold execCoreResetRelease
  try dsimp only
  (try refine keepsO_next _ _ ?_)
  repeat' (first | (simp (maxDischargeDepth := 30); done) | split | (refine keepsO_next _ _ ?_; done))

@[simp] theorem execCarveInitComplete_keeps (s : State) : KeepsO s (execCarveInitComplete s) := by
  unfold execCarveInitComplete
  refine keepsO_next _ _ ?_
  try dsimp only
  repeat' (first | (simp (maxDischargeDepth := 30); done) | split | (simp (maxDischargeDepth := 30) +contextual; done))

@[simp] theorem execPllRefclkLoss_keeps (s : State) : KeepsO s (execPllRefclkLoss s) := by
  unfold execPllRefclkLoss
  refine keepsO_next _ _ ?_
  try dsimp only
  repeat' (first | (simp (maxDischargeDepth := 30); done) | split | (simp (maxDischargeDepth := 30) +contextual; done))

@[simp] theorem execAonXtalLoss_keeps (s : State) : KeepsO s (execAonXtalLoss s) := by
  unfold execAonXtalLoss
  refine keepsO_next _ _ ?_
  try dsimp only
  repeat' (first | (simp (maxDischargeDepth := 30); done) | split | (simp (maxDischargeDepth := 30) +contextual; done))

@[simp] theorem execAonXtalReturn_keeps (s : State) : KeepsO s (execAonXtalReturn s) := by
  unfold execAonXtalReturn
  refine keepsO_next _ _ ?_
  try dsimp only
  repeat' (first | (simp (maxDischargeDepth := 30); done) | split | (simp (maxDischargeDepth := 30) +contextual; done))

@[simp] theorem execSelfCheckComplete_keeps (pass : Bool) (s : State) : KeepsO s (execSelfCheckComplete pass s) := by
  unfold execSelfCheckComplete
  refine keepsO_next _ _ ?_
  try dsimp only
  repeat' (first | (simp (maxDischargeDepth := 30); done) | split | (simp (maxDischargeDepth := 30) +contextual; done))

@[simp] theorem execProbationExpiry_keeps (s : State) : KeepsO s (execProbationExpiry s) := by
  unfold execProbationExpiry
  refine keepsO_next _ _ ?_
  try dsimp only
  repeat' (first | (simp (maxDischargeDepth := 30); done) | split | (simp (maxDischargeDepth := 30) +contextual; done))

@[simp] theorem execP1Entry_keeps (s : State) : KeepsO s (execP1Entry s) := by
  unfold execP1Entry
  refine keepsO_next _ _ ?_
  try dsimp only
  repeat' (first | (simp (maxDischargeDepth := 30); done) | split | (simp (maxDischargeDepth := 30) +contextual; done))

@[simp] theorem execDeepIdleEntry_keeps (s : State) : KeepsO s (execDeepIdleEntry s) := by
  unfold execDeepIdleEntry
  refine keepsO_next _ _ ?_
  try dsimp only
  repeat' (first | (simp (maxDischargeDepth := 30); done) | split | (simp (maxDischargeDepth := 30) +contextual; done))

@[simp] theorem execPowerEntryCommit_keeps (s : State) : KeepsO s (execPowerEntryCommit s) := by
  unfold execPowerEntryCommit
  refine keepsO_next _ _ ?_
  try dsimp only
  repeat' (first | (simp (maxDischargeDepth := 30); done) | split | (simp (maxDischargeDepth := 30) +contextual; done))

@[simp] theorem execWakeEvent_keeps (cause : WakeCause) (s : State) : KeepsO s (execWakeEvent cause s) := by
  unfold execWakeEvent
  refine keepsO_next _ _ ?_
  try dsimp only
  repeat' (first | (simp (maxDischargeDepth := 30); done) | split | (simp (maxDischargeDepth := 30) +contextual; done))

@[simp] theorem execTimedWake_keeps (s : State) : KeepsO s (execTimedWake s) := by
  unfold execTimedWake
  refine keepsO_next _ _ ?_
  try dsimp only
  repeat' (first | (simp (maxDischargeDepth := 30); done) | split | (simp (maxDischargeDepth := 30) +contextual; done))

@[simp] theorem execPowerExitComplete_keeps (found : ExitCheck) (s : State) : KeepsO s (execPowerExitComplete found s) := by
  unfold execPowerExitComplete
  refine keepsO_next _ _ ?_
  dsimp only
  refine keeps_ite _ _ _ _ (keeps_ite _ _ _ _ (by simp) (crpAccept_keeps _ _ (replayPorch_keeps _ _ (exitWork_keeps _ _ _ _ ?_)))) (keeps_refl _)
  exact Keeps.trans (backToP0_keeps _ _ _ (keeps_refl _)) ⟨rfl, rfl, rfl, rfl, id, fun h => h, id⟩

@[simp] theorem execCardProbe_keeps (millivolts : BitVec 12) (seated : Bool) (s : State) : KeepsO s (execCardProbe millivolts seated s) := by
  unfold execCardProbe
  refine keepsO_next _ _ ?_
  try dsimp only
  repeat' (first | (simp (maxDischargeDepth := 30); done) | split | (simp (maxDischargeDepth := 30) +contextual; done))

@[simp] theorem execCardDebounceDone_keeps (s : State) : KeepsO s (execCardDebounceDone s) := by
  unfold execCardDebounceDone
  refine keepsO_next _ _ ?_
  try dsimp only
  repeat' (first | (simp (maxDischargeDepth := 30); done) | split | (simp (maxDischargeDepth := 30) +contextual; done))

@[simp] theorem execCardRemoval_keeps (s : State) : KeepsO s (execCardRemoval s) := by
  unfold execCardRemoval
  refine keepsO_next _ _ ?_
  try dsimp only
  repeat' (first | (simp (maxDischargeDepth := 30); done) | split | (simp (maxDischargeDepth := 30) +contextual; done))

@[simp] theorem execSlotPowerFail_keeps (s : State) : KeepsO s (execSlotPowerFail s) := by
  unfold execSlotPowerFail
  refine keepsO_next _ _ ?_
  try dsimp only
  repeat' (first | (simp (maxDischargeDepth := 30); done) | split | (simp (maxDischargeDepth := 30) +contextual; done))

@[simp] theorem execCardResponseFrame_keeps (frame : BitVec 48) (s : State) : KeepsO s (execCardResponseFrame frame s) := by
  unfold execCardResponseFrame
  refine keepsO_next _ _ ?_
  try dsimp only
  repeat' (first | (simp (maxDischargeDepth := 30); done) | split | (simp (maxDischargeDepth := 30) +contextual; done))

@[simp] theorem execCardDataBlock_keeps (lines : List (List Bool)) (s : State) : KeepsO s (execCardDataBlock lines s) := by
  unfold execCardDataBlock
  refine keepsO_next _ _ ?_
  try dsimp only
  repeat' (first | (simp (maxDischargeDepth := 30); done) | split | (simp (maxDischargeDepth := 30) +contextual; done))

@[simp] theorem execCardAckByte_keeps (ack : Byte) (s : State) : KeepsO s (execCardAckByte ack s) := by
  unfold execCardAckByte
  refine keepsO_next _ _ ?_
  try dsimp only
  repeat' (first | (simp (maxDischargeDepth := 30); done) | split | (simp (maxDischargeDepth := 30) +contextual; done))

@[simp] theorem execCardBusyEnd_keeps (s : State) : KeepsO s (execCardBusyEnd s) := by
  unfold execCardBusyEnd
  refine keepsO_next _ _ ?_
  try dsimp only
  repeat' (first | (simp (maxDischargeDepth := 30); done) | split | (simp (maxDischargeDepth := 30) +contextual; done))

@[simp] theorem execCardTimeout_keeps (limit : CardTimer) (s : State) : KeepsO s (execCardTimeout limit s) := by
  unfold execCardTimeout
  refine keepsO_next _ _ ?_
  try dsimp only
  repeat' (first | (simp (maxDischargeDepth := 30); done) | split | (simp (maxDischargeDepth := 30) +contextual; done))

@[simp] theorem execCardPwFailReply_keeps (s : State) : KeepsO s (execCardPwFailReply s) := by
  unfold execCardPwFailReply
  refine keepsO_next _ _ ?_
  try dsimp only
  repeat' (first | (simp (maxDischargeDepth := 30); done) | split | (simp (maxDischargeDepth := 30) +contextual; done))

@[simp] theorem execCardQuery_keeps (s : State) : KeepsO s (execCardQuery s) := by
  unfold execCardQuery
  refine keepsO_next _ _ (onCommand_keeps _ _ _ _ (keeps_refl _) fun e x hx => ?_)
  try dsimp only
  repeat' (first | (simp (maxDischargeDepth := 30) [hx]; done) | split | (simp (maxDischargeDepth := 30) +contextual [hx]; done))

@[simp] theorem execCardUnlock_keeps (s : State) : KeepsO s (execCardUnlock s) := by
  unfold execCardUnlock
  refine keepsO_next _ _ (onCommand_keeps _ _ _ _ (keeps_refl _) fun e x hx => ?_)
  try dsimp only
  repeat' (first | (simp (maxDischargeDepth := 30) [hx]; done) | split | (simp (maxDischargeDepth := 30) +contextual [hx]; done))

@[simp] theorem execCardSetPassword_keeps (s : State) : KeepsO s (execCardSetPassword s) := by
  unfold execCardSetPassword
  refine keepsO_next _ _ (onCommand_keeps _ _ _ _ (keeps_refl _) fun e x hx => ?_)
  try dsimp only
  refine withCard_keeps _ _ _ _ _ hx fun y hy => ?_
  repeat' split
  all_goals simp (maxDischargeDepth := 30) [hy]

@[simp] theorem execCardForceErase_keeps (s : State) : KeepsO s (execCardForceErase s) := by
  unfold execCardForceErase
  refine keepsO_next _ _ (onCommand_keeps _ _ _ _ (keeps_refl _) fun e x hx => ?_)
  try dsimp only
  repeat' (first | (simp (maxDischargeDepth := 30) [hx]; done) | split | (simp (maxDischargeDepth := 30) +contextual [hx]; done))

@[simp] theorem execArchiveWrite_keeps (s : State) : KeepsO s (execArchiveWrite s) := by
  unfold execArchiveWrite
  refine keepsO_next _ _ (onCommand_keeps _ _ _ _ (keeps_refl _) fun e x hx => ?_)
  try dsimp only
  refine withCard_keeps _ _ _ _ _ hx fun y hy => ?_
  repeat' split
  all_goals simp (maxDischargeDepth := 30) [hy]

@[simp] theorem execArchiveRestore_keeps (s : State) : KeepsO s (execArchiveRestore s) := by
  unfold execArchiveRestore
  refine keepsO_next _ _ (onCommand_keeps _ _ _ _ (keeps_refl _) fun e x hx => ?_)
  try dsimp only
  repeat' (first | (simp (maxDischargeDepth := 30) [hx]; done) | split | (simp (maxDischargeDepth := 30) +contextual [hx]; done))

@[simp] theorem execCardPower_keeps (s : State) : KeepsO s (execCardPower s) := by
  unfold execCardPower
  refine keepsO_next _ _ (onCommand_keeps _ _ _ _ (keeps_refl _) fun e x hx => ?_)
  try dsimp only
  repeat' (first | (simp (maxDischargeDepth := 30) [hx]; done) | split | (simp (maxDischargeDepth := 30) +contextual [hx]; done))

@[simp] theorem execAdminPacketFetch_keeps (s : State) : KeepsO s (execAdminPacketFetch s) := by
  unfold execAdminPacketFetch
  refine keepsO_next _ _ ?_
  try dsimp only
  repeat' (first | (simp (maxDischargeDepth := 30); done) | split | (simp (maxDischargeDepth := 30) +contextual; done))

end Sys2Proof.Machine
end

