-- ==== Sys2Proof/Laws/PerInstr.lean ====
section
/-! SUPPORT. Family Shape: an ill-formed command carries a beat, a stream word, a flit or a unit code of a shape that the interface
does not have; every other command is well-formed. One lemma per command. -/
namespace Sys2Proof.Laws.Shape

/-- A command is well-formed, or it carries data or a unit code of a shape that does not exist at the interface. -/
def Statement (i : Instr) : Prop :=
  i.wf = true ∨ (∃ p t s q l d, i = .fabReadData p t s q l d ∧ d.length ≠ 128) ∨ (∃ b, i = .streamWord b ∧ b.data.length ≠ 32)
    ∨ (∃ f, i = .flitReceived f ∧ f.length ≠ 256) ∨ (∃ t, i = .coreResetRelease t ∧ ∃ u ∈ t.units, engineCode u.engsel.toNat = false)
    ∨ (∃ c, (i = .unitDrainEnd c ∨ (∃ l, i = .microcodeRolloverUnit ⟨c, l⟩)) ∧ engineCode c.toNat = false)

theorem aonPowerOnReset : Statement .aonPowerOnReset := .inl rfl
theorem coreResetAssert : Statement .coreResetAssert := .inl rfl
theorem coreResetRelease (tests : StartTests) : Statement (.coreResetRelease tests) := by
  by_cases h : ∀ u ∈ tests.units, engineCode u.engsel.toNat = true
  · exact .inl (by simpa [Instr.wf] using h)
  · exact .inr (.inr (.inr (.inr (.inl ⟨tests, rfl, by simpa using h⟩))))
theorem carveInitComplete : Statement .carveInitComplete := .inl rfl
theorem pllRefclkLoss : Statement .pllRefclkLoss := .inl rfl
theorem aonXtalLoss : Statement .aonXtalLoss := .inl rfl
theorem aonXtalReturn : Statement .aonXtalReturn := .inl rfl
theorem vddNvmBrownout : Statement .vddNvmBrownout := .inl rfl
theorem vddNvmRecover : Statement .vddNvmRecover := .inl rfl
theorem vddNvmLowTimeout : Statement .vddNvmLowTimeout := .inl rfl
theorem fabReadData (port : Fin 4) (tag : BitVec 11) (status : RspStatus) (parityOk last : Bool) (data : Bytes) : Statement (.fabReadData port tag status parityOk last data) := by
  by_cases h : data.length = 128
  · exact .inl (by simp [Instr.wf, h])
  · exact .inr (.inl ⟨port, tag, status, parityOk, last, data, rfl, h⟩)
theorem fabWriteAck (port : Fin 4) (tag : BitVec 11) (status : RspStatus) : Statement (.fabWriteAck port tag status) := .inl rfl
theorem fabricTimeout (port : Fin 4) (tag : BitVec 11) : Statement (.fabricTimeout port tag) := .inl rfl
theorem fabCreditReturn (port : Fin 4) (req : Bool) (wdat : BitVec 2) : Statement (.fabCreditReturn port req wdat) := .inl rfl
theorem fabPortResetAssert (port : Fin 4) : Statement (.fabPortResetAssert port) := .inl rfl
theorem fabPortResetRelease (port : Fin 4) : Statement (.fabPortResetRelease port) := .inl rfl
theorem fabClockLost (port : Fin 4) : Statement (.fabClockLost port) := .inl rfl
theorem creditRateMeasure : Statement .creditRateMeasure := .inl rfl
theorem registerWrite (addr : BitVec 19) (lanes : Lanes) (data : Word) : Statement (.registerWrite addr lanes data) := .inl rfl
theorem rcCounterRead (addr : ReadAddr) (lanes : Lanes) : Statement (.rcCounterRead addr lanes) := .inl rfl
theorem doorbellDirectWrite (page : Fin 1024) (slot : Fin 512) (sid : BitVec 16) (wide : Bool) (data : Word) : Statement (.doorbellDirectWrite page slot sid wide data) := .inl rfl
theorem doorbellIndirectTail (page : Fin 1024) (sid : BitVec 16) (wide : Bool) (data : Word) : Statement (.doorbellIndirectTail page sid wide data) := .inl rfl
theorem doorbellIndirectHead (page : Fin 1024) (sid : BitVec 16) (wide : Bool) (data : Word) : Statement (.doorbellIndirectHead page sid wide data) := .inl rfl
theorem cmdAdminTailWrite (lanes : Lanes) (data : Word) : Statement (.cmdAdminTailWrite lanes data) := .inl rfl
theorem cmdAdminEnableWrite (lanes : Lanes) (data : Word) : Statement (.cmdAdminEnableWrite lanes data) := .inl rfl
theorem cmdAdminReset (lanes : Lanes) (data : Word) : Statement (.cmdAdminReset lanes data) := .inl rfl
theorem cmdReplyHeadWrite (lanes : Lanes) (data : Word) : Statement (.cmdReplyHeadWrite lanes data) := .inl rfl
theorem cmdReplyEnableWrite (lanes : Lanes) (data : Word) : Statement (.cmdReplyEnableWrite lanes data) := .inl rfl
theorem cmdMboxGo (lanes : Lanes) (data : Word) : Statement (.cmdMboxGo lanes data) := .inl rfl
theorem glbPowerWakeWrite (lanes : Lanes) (data : Word) : Statement (.glbPowerWakeWrite lanes data) := .inl rfl
theorem glbCarveEnableWrite (lanes : Lanes) (data : Word) : Statement (.glbCarveEnableWrite lanes data) := .inl rfl
theorem glbLedgerHeadWrite (lanes : Lanes) (data : Word) : Statement (.glbLedgerHeadWrite lanes data) := .inl rfl
theorem cpwIrqEnableWrite (lanes : Lanes) (data : Word) : Statement (.cpwIrqEnableWrite lanes data) := .inl rfl
theorem rngRotateWrite (lanes : Lanes) (data : Word) : Statement (.rngRotateWrite lanes data) := .inl rfl
theorem rngDataRead (lanes : Lanes) : Statement (.rngDataRead lanes) := .inl rfl
theorem fltMsgRead (lanes : Lanes) : Statement (.fltMsgRead lanes) := .inl rfl
theorem timNowSecRead (lanes : Lanes) : Statement (.timNowSecRead lanes) := .inl rfl
theorem laneRetrain (lanes : Lanes) (data : Word) : Statement (.laneRetrain lanes data) := .inl rfl
theorem adminPacketFetch : Statement .adminPacketFetch := .inl rfl
theorem commandDeadlineExpiry : Statement .commandDeadlineExpiry := .inl rfl
theorem fenceDrainComplete : Statement .fenceDrainComplete := .inl rfl
theorem nop : Statement .nop := .inl rfl
theorem getInfo : Statement .getInfo := .inl rfl
theorem statusSnapshot : Statement .statusSnapshot := .inl rfl
theorem setPowerPolicy : Statement .setPowerPolicy := .inl rfl
theorem scribeHandover : Statement .scribeHandover := .inl rfl
theorem cpOpen : Statement .cpOpen := .inl rfl
theorem cpClose : Statement .cpClose := .inl rfl
theorem cpSetPolicy : Statement .cpSetPolicy := .inl rfl
theorem cpSetQuota : Statement .cpSetQuota := .inl rfl
theorem cpQuery : Statement .cpQuery := .inl rfl
theorem keyImport : Statement .keyImport := .inl rfl
theorem keyGenerate : Statement .keyGenerate := .inl rfl
theorem keyExport : Statement .keyExport := .inl rfl
theorem keyDestroy : Statement .keyDestroy := .inl rfl
theorem keyStoreNvm : Statement .keyStoreNvm := .inl rfl
theorem keyLoadNvm : Statement .keyLoadNvm := .inl rfl
theorem sessionCreate : Statement .sessionCreate := .inl rfl
theorem sessionBindRing : Statement .sessionBindRing := .inl rfl
theorem sessionClose : Statement .sessionClose := .inl rfl
theorem sessionQuery : Statement .sessionQuery := .inl rfl
theorem ringCreate : Statement .ringCreate := .inl rfl
theorem cplRingCreate : Statement .cplRingCreate := .inl rfl
theorem ringDestroy : Statement .ringDestroy := .inl rfl
theorem ringRestart : Statement .ringRestart := .inl rfl
theorem ringSetCoalesce : Statement .ringSetCoalesce := .inl rfl
theorem ringQuery : Statement .ringQuery := .inl rfl
theorem streamOpen : Statement .streamOpen := .inl rfl
theorem streamClose : Statement .streamClose := .inl rfl
theorem streamDropRest : Statement .streamDropRest := .inl rfl
theorem streamSetWindow : Statement .streamSetWindow := .inl rfl
theorem timeQuery : Statement .timeQuery := .inl rfl
theorem timeSetPolicy : Statement .timeSetPolicy := .inl rfl
theorem epochSchedule : Statement .epochSchedule := .inl rfl
theorem fltSetClass : Statement .fltSetClass := .inl rfl
theorem fltSetTimers : Statement .fltSetTimers := .inl rfl
theorem fltAck : Statement .fltAck := .inl rfl
theorem fltClear : Statement .fltClear := .inl rfl
theorem fltReleaseErr : Statement .fltReleaseErr := .inl rfl
theorem fltInject : Statement .fltInject := .inl rfl
theorem unitRetire : Statement .unitRetire := .inl rfl
theorem unitTest : Statement .unitTest := .inl rfl
theorem sweepControl : Statement .sweepControl := .inl rfl
theorem rowRepair : Statement .rowRepair := .inl rfl
theorem storeSettings : Statement .storeSettings := .inl rfl
theorem settingsImageLoad : Statement .settingsImageLoad := .inl rfl
theorem nvmQuery : Statement .nvmQuery := .inl rfl
theorem counterRead : Statement .counterRead := .inl rfl
theorem counterIncrement : Statement .counterIncrement := .inl rfl
theorem fwBegin : Statement .fwBegin := .inl rfl
theorem fwChunk : Statement .fwChunk := .inl rfl
theorem fwEnd : Statement .fwEnd := .inl rfl
theorem activate : Statement .activate := .inl rfl
theorem activateAt : Statement .activateAt := .inl rfl
theorem confirmHealth : Statement .confirmHealth := .inl rfl
theorem fwAbort : Statement .fwAbort := .inl rfl
theorem relayPacket : Statement .relayPacket := .inl rfl
theorem cardQuery : Statement .cardQuery := .inl rfl
theorem cardUnlock : Statement .cardUnlock := .inl rfl
theorem cardSetPassword : Statement .cardSetPassword := .inl rfl
theorem cardForceErase : Statement .cardForceErase := .inl rfl
theorem archiveWrite : Statement .archiveWrite := .inl rfl
theorem archiveRestore : Statement .archiveRestore := .inl rfl
theorem cardPower : Statement .cardPower := .inl rfl
theorem windowLease : Statement .windowLease := .inl rfl
theorem windowRelease : Statement .windowRelease := .inl rfl
theorem operandClear : Statement .operandClear := .inl rfl
theorem windowQuery : Statement .windowQuery := .inl rfl
theorem rngFill : Statement .rngFill := .inl rfl
theorem rngReseed : Statement .rngReseed := .inl rfl
theorem rngHealth : Statement .rngHealth := .inl rfl
theorem readCert : Statement .readCert := .inl rfl
theorem attest : Statement .attest := .inl rfl
theorem rewrapKey : Statement .rewrapKey := .inl rfl
theorem provision : Statement .provision := .inl rfl
theorem pair : Statement .pair := .inl rfl
theorem lifecycle : Statement .lifecycle := .inl rfl
theorem skeinVisit : Statement .skeinVisit := .inl rfl
theorem needleAdmission : Statement .needleAdmission := .inl rfl
theorem heldJobRelease : Statement .heldJobRelease := .inl rfl
theorem urgentSuspendComplete (nib : Fin 20) : Statement (.urgentSuspendComplete nib) := .inl rfl
theorem outputChunkRelease (job : BitVec 13) : Statement (.outputChunkRelease job) := .inl rfl
theorem encrypt (job : BitVec 13) (agree : Bool) : Statement (.encrypt job agree) := .inl rfl
theorem decrypt (job : BitVec 13) (agree : Bool) : Statement (.decrypt job agree) := .inl rfl
theorem macGen (job : BitVec 13) (agree : Bool) : Statement (.macGen job agree) := .inl rfl
theorem macVerify (job : BitVec 13) (agree : Bool) : Statement (.macVerify job agree) := .inl rfl
theorem digest (job : BitVec 13) (agree : Bool) : Statement (.digest job agree) := .inl rfl
theorem digestVerify (job : BitVec 13) (agree : Bool) : Statement (.digestVerify job agree) := .inl rfl
theorem hmacGen (job : BitVec 13) (agree : Bool) : Statement (.hmacGen job agree) := .inl rfl
theorem hmacVerify (job : BitVec 13) (agree : Bool) : Statement (.hmacVerify job agree) := .inl rfl
theorem hookOp (job : BitVec 13) (agree : Bool) : Statement (.hookOp job agree) := .inl rfl
theorem random (job : BitVec 13) : Statement (.random job) := .inl rfl
theorem quillContextCopyEnd (quill : Fin 14) : Statement (.quillContextCopyEnd quill) := .inl rfl
theorem hookWindowCopyEnd (hook : Fin 9) : Statement (.hookWindowCopyEnd hook) := .inl rfl
theorem completionPost : Statement .completionPost := .inl rfl
theorem coalesceTimerExpiry (ring : BitVec 20) : Statement (.coalesceTimerExpiry ring) := .inl rfl
theorem streamWord (beat : StreamBeat) : Statement (.streamWord beat) := by
  by_cases h : beat.data.length = 32
  · exact .inl (by simp [Instr.wf, h])
  · exact .inr (.inr (.inl ⟨beat, rfl, h⟩))
theorem streamFrameVerify (job : BitVec 13) (agree parityOk : Bool) : Statement (.streamFrameVerify job agree parityOk) := .inl rfl
theorem streamFrameTag (job : BitVec 13) (agree parityOk : Bool) : Statement (.streamFrameTag job agree parityOk) := .inl rfl
theorem windowOpening (channel : Fin 64) : Statement (.windowOpening channel) := .inl rfl
theorem timPpsEdge (ref : TimeSample) : Statement (.timPpsEdge ref) := .inl rfl
theorem ppsMissing (ref : TimeSample) : Statement (.ppsMissing ref) := .inl rfl
theorem timeInputUsable (ref : TimeSample) : Statement (.timeInputUsable ref) := .inl rfl
theorem timeInputUnusable (clockLost : Bool) : Statement (.timeInputUnusable clockLost) := .inl rfl
theorem timRankChange (ref : TimeSample) : Statement (.timRankChange ref) := .inl rfl
theorem referenceSwitchCommit : Statement .referenceSwitchCommit := .inl rfl
theorem slewEnd : Statement .slewEnd := .inl rfl
theorem epochTick : Statement .epochTick := .inl rfl
theorem epochClose : Statement .epochClose := .inl rfl
theorem keyEpochClose : Statement .keyEpochClose := .inl rfl
theorem ledgerBankWrite : Statement .ledgerBankWrite := .inl rfl
theorem faultEvent (source : BitVec 12) (kind : BitVec 6) (address : BitVec 44) : Statement (.faultEvent source kind address) := .inl rfl
theorem errpwExpiry : Statement .errpwExpiry := .inl rfl
theorem reactionTimerExpiry (source : BitVec 12) : Statement (.reactionTimerExpiry source) := .inl rfl
theorem escalationDeferredStart : Statement .escalationDeferredStart := .inl rfl
theorem errNReadbackMismatch (level : Bool) : Statement (.errNReadbackMismatch level) := .inl rfl
theorem sweepStep : Statement .sweepStep := .inl rfl
theorem unitDrainEnd (engsel : BitVec 10) : Statement (.unitDrainEnd engsel) := by
  by_cases h : engineCode engsel.toNat = true
  · exact .inl (by simp [Instr.wf, h])
  · exact .inr (.inr (.inr (.inr (.inr ⟨engsel, .inl rfl, by simpa using h⟩))))
theorem sweepTestEnd (result : TestEnd) : Statement (.sweepTestEnd result) := .inl rfl
theorem rowRepairCopyEnd (array : BitVec 9) : Statement (.rowRepairCopyEnd array) := .inl rfl
theorem patrolScrubRow (array : BitVec 9) (row : BitVec 12) (found : ScrubResult) : Statement (.patrolScrubRow array row found) := .inl rfl
theorem microcodeRolloverUnit (unit : Reload) : Statement (.microcodeRolloverUnit unit) := by
  by_cases h : engineCode unit.engsel.toNat = true
  · exact .inl (by simp [Instr.wf, h])
  · exact .inr (.inr (.inr (.inr (.inr ⟨unit.engsel, .inr ⟨unit.readback, rfl⟩, by simpa using h⟩))))
theorem cellStartupTestEnd (cell : Fin 16) (pass : Bool) : Statement (.cellStartupTestEnd cell pass) := .inl rfl
theorem cellRetestEnd (cell : Fin 16) (pass : Bool) : Statement (.cellRetestEnd cell pass) := .inl rfl
theorem healthWindowClose (cell : Fin 16) (count : BitVec 11) : Statement (.healthWindowClose cell count) := .inl rfl
theorem cellRotation : Statement .cellRotation := .inl rfl
theorem inkClockLost : Statement .inkClockLost := .inl rfl
theorem inkClockReturn : Statement .inkClockReturn := .inl rfl
theorem conditionerOutput (agree : Bool) : Statement (.conditionerOutput agree) := .inl rfl
theorem feedReseedDue (feed : Fin 8) (agree : Bool) : Statement (.feedReseedDue feed agree) := .inl rfl
theorem rngDataRefill : Statement .rngDataRefill := .inl rfl
theorem p1Entry : Statement .p1Entry := .inl rfl
theorem deepIdleEntry : Statement .deepIdleEntry := .inl rfl
theorem powerEntryCommit : Statement .powerEntryCommit := .inl rfl
theorem wakeEvent (cause : WakeCause) : Statement (.wakeEvent cause) := .inl rfl
theorem timedWake : Statement .timedWake := .inl rfl
theorem powerExitComplete (found : ExitCheck) : Statement (.powerExitComplete found) := .inl rfl
theorem batonRenewal (scribe : Scribe) (epoch : BitVec 48) : Statement (.batonRenewal scribe epoch) := .inl rfl
theorem batonLapse : Statement .batonLapse := .inl rfl
theorem scribeGoQuiet (scribe : Scribe) : Statement (.scribeGoQuiet scribe) := .inl rfl
theorem standbyReady (scribe : Scribe) : Statement (.standbyReady scribe) := .inl rfl
theorem nvmOperationComplete (result : NvmResult) : Statement (.nvmOperationComplete result) := .inl rfl
theorem nvmEraseComplete (blankFirst blankSecond : Bool) : Statement (.nvmEraseComplete blankFirst blankSecond) := .inl rfl
theorem logCompaction (log : NvmLog) : Statement (.logCompaction log) := .inl rfl
theorem journalReplayEnd : Statement .journalReplayEnd := .inl rfl
theorem activationPreparationStart : Statement .activationPreparationStart := .inl rfl
theorem tokenHoldWindowStart : Statement .tokenHoldWindowStart := .inl rfl
theorem activationReadyTimeout : Statement .activationReadyTimeout := .inl rfl
theorem activationPauseStart : Statement .activationPauseStart := .inl rfl
theorem selfCheckComplete (pass : Bool) : Statement (.selfCheckComplete pass) := .inl rfl
theorem probationExpiry : Statement .probationExpiry := .inl rfl
theorem cardDebounceDone : Statement .cardDebounceDone := .inl rfl
theorem cardRemoval : Statement .cardRemoval := .inl rfl
theorem cardProbe (millivolts : BitVec 12) (seated : Bool) : Statement (.cardProbe millivolts seated) := .inl rfl
theorem slotPowerFail : Statement .slotPowerFail := .inl rfl
theorem cardResponseFrame (frame : BitVec 48) : Statement (.cardResponseFrame frame) := .inl rfl
theorem cardDataBlock (lines : List (List Bool)) : Statement (.cardDataBlock lines) := .inl rfl
theorem cardAckByte (ack : Byte) : Statement (.cardAckByte ack) := .inl rfl
theorem cardBusyEnd : Statement .cardBusyEnd := .inl rfl
theorem cardTimeout (limit : CardTimer) : Statement (.cardTimeout limit) := .inl rfl
theorem cardPwFailReply : Statement .cardPwFailReply := .inl rfl
theorem laneHeaderLock (lane : Fin 34) : Statement (.laneHeaderLock lane) := .inl rfl
theorem laneLockLost (lane : Fin 34) : Statement (.laneLockLost lane) := .inl rfl
theorem laneDead (lane : Fin 34) : Statement (.laneDead lane) := .inl rfl
theorem laneAlignmentMarker (lane : Fin 34) (typeByte : Byte) (logical complement : BitVec 6) (count : BitVec 16) (skew : BitVec 4) : Statement (.laneAlignmentMarker lane typeByte logical complement count skew) := .inl rfl
theorem flitReceived (flit : Bytes) : Statement (.flitReceived flit) := by
  by_cases h : flit.length = 256
  · exact .inl (by simp [Instr.wf, h])
  · exact .inr (.inr (.inr (.inl ⟨flit, rfl, h⟩)))
theorem nakReceived (lastGood : BitVec 12) : Statement (.nakReceived lastGood) := .inl rfl
theorem linkTrainingComplete (healthy : BitVec 34) : Statement (.linkTrainingComplete healthy) := .inl rfl
theorem laneRefclkLoss : Statement .laneRefclkLoss := .inl rfl
theorem vddAonRemoved : Statement .vddAonRemoved := .inl rfl
theorem tapInstruction (ir : TapIr) : Statement (.tapInstruction ir) := .inl rfl
theorem repetitionCountFailure (cell : Fin 16) : Statement (.repetitionCountFailure cell) := .inl rfl
theorem errNReadbackAgree : Statement .errNReadbackAgree := .inl rfl
theorem leaseZeroingComplete (window : BitVec 9) : Statement (.leaseZeroingComplete window) := .inl rfl

end Sys2Proof.Laws.Shape
end

