-- ==== Sys2Proof/Laws/Reply.lean ====
section
/-! SUPPORT. What the end of a command does: its entry goes, its reply is routed, and nothing else changes but what a reply touches. -/
namespace Sys2Proof.Laws
open Sys2Proof.Machine Sys2Proof.Safety

@[simp] theorem begun_cid (e : CmdEntry) : (begun e).cid = e.cid := rfl
@[simp] theorem begun_via (e : CmdEntry) : (begun e).via = e.via := rfl
@[simp] theorem begun_port (e : CmdEntry) : (begun e).port = e.port := rfl
@[simp] theorem begun_bytes (e : CmdEntry) : (begun e).bytes = e.bytes := rfl
@[simp] theorem begun_phase (e : CmdEntry) : (begun e).phase = e.phase := rfl
@[simp] theorem begun_work (e : CmdEntry) : (begun e).work = e.work := rfl
@[simp] theorem begun_readIssued (e : CmdEntry) : (begun e).readIssued = e.readIssued := rfl
@[simp] theorem begun_landed (e : CmdEntry) : (begun e).landed = e.landed := rfl
@[simp] theorem begun_opcode (e : CmdEntry) : (begun e).opcode = e.opcode := rfl
@[simp] theorem par_begun (e : CmdEntry) (o n : Nat) : par (begun e) o n = par e o n := rfl
@[simp] theorem landed_begun (e : CmdEntry) : landed (begun e) = landed e := rfl
@[simp] theorem replyTo_begun (s : State) (e : CmdEntry) (st : Status) (d : Nat) (p : Bytes) (f : Bool) :
    replyTo s (begun e) st d p f = replyTo s e st d p f := rfl

/-! ### Execution entries -/

theorem map_cid_none (l : List CmdEntry) (f : CmdEntry → CmdEntry) (c : Nat) (hf : ∀ e, (f e).cid = e.cid)
    (h : l.find? (fun e => e.cid == c) = none) : (l.map f).find? (fun e => e.cid == c) = none := by
  simp only [List.find?_eq_none, List.mem_map, beq_iff_eq] at *
  rintro x ⟨y, hy, rfl⟩
  rw [hf]
  exact h y hy

theorem filter_cid_none (l : List CmdEntry) (c : Nat) : (l.filter (fun x => x.cid != c)).find? (fun e => e.cid == c) = none := by
  simp [List.find?_eq_none]

theorem startAll_none (now : Nat) (c : Cmd) (n : Nat) (h : c.exec.find? (fun e => e.cid == n) = none) :
    (startAll now c).exec.find? (fun e => e.cid == n) = none := by
  unfold startAll
  refine map_cid_none _ _ _ (fun e => ?_) h
  split <;> rfl

theorem passToken_none (c : Cmd) (n : Nat) (h : c.exec.find? (fun e => e.cid == n) = none) :
    (passToken c).exec.find? (fun e => e.cid == n) = none := by
  unfold passToken
  split
  · exact h
  · split
    · refine map_cid_none _ _ _ (fun e => ?_) h
      split <;> rfl
    · exact h

theorem dropToken_none (c : Cmd) (k n : Nat) (h : c.exec.find? (fun e => e.cid == n) = none) :
    (dropToken c k).exec.find? (fun e => e.cid == n) = none := by
  unfold dropToken
  repeat' split
  all_goals first | exact passToken_none c n h | exact h

/-! ### The frame -/

theorem startAll_frame (now : Nat) (c : Cmd) : startAll now c = { c with exec := (startAll now c).exec } := rfl
theorem passToken_frame (c : Cmd) : passToken c = { c with exec := (passToken c).exec, token := (passToken c).token } := by
  unfold passToken
  repeat' split
  all_goals rfl
theorem dropToken_frame (c : Cmd) (k : Nat) : dropToken c k = { c with exec := (dropToken c k).exec, token := (dropToken c k).token } := by
  unfold dropToken
  repeat' split
  all_goals first | exact passToken_frame c | rfl

theorem sendReply_frame (s : State) : sendReply s = { s with fab := (sendReply s).fab, cmd := { s.cmd with
    held := (sendReply s).cmd.held, replyOut := (sendReply s).cmd.replyOut, replyParts := (sendReply s).cmd.replyParts
    replyBad := (sendReply s).cmd.replyBad } } := by
  unfold sendReply
  split
  · rfl
  · dsimp only
    split <;> rfl

/-- A reply that waits is the oldest's successor or is being written. -/
theorem sendReply_mem (s : State) (q : HeldReply) (h : q ∈ s.cmd.held) :
    q ∈ (sendReply s).cmd.held ∨ (sendReply s).cmd.replyOut = some q := by
  unfold sendReply
  split
  · exact .inl h
  · rename_i r rest hh
    dsimp only
    split
    · rw [hh] at h
      rcases List.mem_cons.mp h with rfl | h
      · exact .inr rfl
      · exact .inl h
    · exact .inl h

/-- The end of a command (03 R72, R73, R77, R81). -/
theorem finish_done (e : CmdEntry) (r : Reply) (s : State) : Done e r s (finish e r s) := by
  have hx : (dropToken { s.cmd with exec := s.cmd.exec.filter (fun x => x.cid != e.cid) } e.cid).exec.find? (fun x => x.cid == e.cid) = none :=
    dropToken_none _ _ _ (filter_cid_none _ _)
  have hf := dropToken_frame { s.cmd with exec := s.cmd.exec.filter (fun x => x.cid != e.cid) } e.cid
  unfold finish
  generalize dropToken { s.cmd with exec := s.cmd.exec.filter (fun x => x.cid != e.cid) } e.cid = d at hx hf
  obtain ⟨x, hx1, hx2, hx3, hx4⟩ : ∃ x : CmdEntry, { e with logged := ((entryOf s e.cid).map (·.logged)).getD e.logged } = x
      ∧ x.via = e.via ∧ x.bytes = e.bytes ∧ x.cid = e.cid := ⟨_, rfl, rfl, rfl, rfl⟩
  rw [hx1]
  unfold routeReply
  rcases hv : e.via with o | _ | _
  · rw [hx2, hv]
    dsimp only
    have hs := sendReply_mem { s with cmd := { d with held := d.held ++ [{ reply := r, notify := wantsNotify d x, entry := some x }] } }
      { reply := r, notify := wantsNotify d x, entry := some x } (by simp)
    have hq := sendReply_frame { s with cmd := { d with held := d.held ++ [{ reply := r, notify := wantsNotify d x, entry := some x }] } }
    generalize sendReply _ = w at hs hq ⊢
    rw [hf] at hq
    refine ⟨?_, ?_, ?_, ?_, ?_, ?_, ?_⟩
    · refine startAll_none _ _ _ ?_
      rw [hq]
      exact hx
    · unfold Routed
      rw [hv]
      have hn : wantsNotify d x = wantsNotify (startAll w.clk.now w.cmd) e := by
        rw [hq]
        unfold wantsNotify
        rw [hf, hx3]
        rfl
      dsimp only
      rcases hs with hs | hs
      · exact .inl ⟨_, hs, rfl, hn, congrArg some hx4⟩
      · exact .inr ⟨_, hs, rfl, hn, congrArg some hx4⟩
    · rw [hq]
    · rw [hq]
      rfl
    · intro h
      exact absurd hv (h o)
    · intro _
      rw [hq]
      exact ⟨rfl, rfl, rfl, rfl⟩
    · intro _
      rw [hq]
  · rw [hx2, hv]
    dsimp only
    refine ⟨startAll_none _ _ _ hx, ?_, rfl, ?_, ?_, ?_, ?_⟩
    · unfold Routed
      rw [hv]
      exact ⟨rfl, rfl, rfl, List.take_left' rfl⟩
    · rw [hf]; rfl
    · intro _; rw [hf]; exact ⟨rfl, rfl, rfl⟩
    · intro h; exact absurd hv h
    · intro _; rfl
  · rw [hx2, hv]
    dsimp only
    refine ⟨startAll_none _ _ _ hx, ?_, rfl, ?_, ?_, ?_, ?_⟩
    · unfold Routed
      rw [hv]
      exact ⟨rfl, rfl, rfl, rfl⟩
    · rw [hf]; rfl
    · intro _; rw [hf]; exact ⟨rfl, rfl, rfl⟩
    · intro _; rw [hf]; exact ⟨rfl, rfl, rfl, rfl⟩
    · intro h; exact absurd hv h

/-- States that differ only in the entries and the commit log lead to the same end. -/
theorem Done.mono {e : CmdEntry} {r : Reply} {s u t : State} (h : Done e r s t)
    (hu : s = { u with cmd := { u.cmd with exec := s.cmd.exec, commitLog := s.cmd.commitLog } }) : Done e r u t := by
  obtain ⟨h1, h2, h3, h4, h5, h6, h7⟩ := h
  refine ⟨h1, h2, ?_, ?_, ?_, ?_, ?_⟩
  · rw [h3, hu]
  · rw [h4, hu]
  · intro h; have := h5 h; rw [hu] at this; exact this
  · intro h; have := h6 h; rw [hu] at this; exact this
  · intro h; have := h7 h; rw [hu] at this; exact this

theorem logCommit_frame (e : CmdEntry) (s : State) :
    logCommit e s = { s with cmd := { s.cmd with exec := (logCommit e s).cmd.exec, commitLog := (logCommit e s).cmd.commitLog } } := by
  unfold logCommit modEntry
  split
  · split <;> rfl
  · rfl

/-- A command answered after its commit. -/
theorem answer_logged (e : CmdEntry) (st : Status) (p : Bytes) (s : State) :
    Done e (replyTo s e st 0 p false) s (answer e st p (logCommit e s)) := by
  refine Done.mono (s := logCommit e s) ?_ (by rw [logCommit_frame])
  have := finish_done e (replyTo (logCommit e s) e st 0 p false) (logCommit e s)
  have he : replyTo (logCommit e s) e st 0 p false = replyTo s e st 0 p false := by rw [logCommit_frame]; rfl
  rw [he] at this
  unfold answer
  rw [he]
  exact this

/-- The row of a packet at hand runs its meaning on it. -/
theorem onCommand_head {op : Nat} {s : State} {e : CmdEntry} (h : Head op s e) (f : CmdEntry → State → State) :
    onCommand op f s = f (begun e) (atHand e s) := by
  obtain ⟨h1, h2, h3⟩ := h
  simp [onCommand, h1, h2, h3, begun, atHand]

/-- The answer of a command whose state differs from `u` in its entries only. -/
theorem answer_done (e : CmdEntry) (st : Status) (p : Bytes) (s u : State)
    (hu : s = { u with cmd := { u.cmd with exec := s.cmd.exec, commitLog := s.cmd.commitLog } }) :
    Done e (replyTo u e st 0 p false) u (answer (begun e) st p s) := by
  have hr : replyTo s (begun e) st 0 p false = replyTo u e st 0 p false := by rw [hu]; rfl
  unfold answer
  rw [hr]
  exact Done.mono (finish_done (begun e) _ s) hu

/-- A refusal in the same way. -/
theorem refuse_done (e : CmdEntry) (st : Status) (d : Nat) (s u : State)
    (hu : s = { u with cmd := { u.cmd with exec := s.cmd.exec, commitLog := s.cmd.commitLog } }) :
    Done e (replyTo u e st d [] false) u (refuseAt (begun e) st d s) := by
  have hr : replyTo s (begun e) st d [] false = replyTo u e st d [] false := by rw [hu]; rfl
  unfold refuseAt
  rw [hr]
  exact Done.mono (finish_done (begun e) _ s) hu

theorem logCommit_only (e : CmdEntry) (s u : State)
    (hu : s = { u with cmd := { u.cmd with exec := s.cmd.exec, commitLog := s.cmd.commitLog } }) :
    logCommit e s = { u with cmd := { u.cmd with exec := (logCommit e s).cmd.exec, commitLog := (logCommit e s).cmd.commitLog } } := by
  rw [logCommit_frame, hu]

end Sys2Proof.Laws
end

