-- ==== Sys2Proof/Laws/State.lean ====
section
/-! SUPPORT. What the updates of one table or list leave of every field of State, so that no proof unfolds the update of a
record. -/
namespace Sys2Proof.Laws
open Sys2Proof.Machine

variable (s : State)

@[simp] theorem useFree_pending (n : Nat) : (useFree n s).pending = s.pending := rfl
@[simp] theorem useFree_pins (n : Nat) : (useFree n s).pins = s.pins := rfl
@[simp] theorem useFree_clk (n : Nat) : (useFree n s).clk = { s.clk with free := s.clk.free + n } := rfl
@[simp] theorem useFree_fab (n : Nat) : (useFree n s).fab = s.fab := rfl
@[simp] theorem useFree_cmd (n : Nat) : (useFree n s).cmd = s.cmd := rfl
@[simp] theorem useFree_ports (n : Nat) : (useFree n s).ports = s.ports := rfl
@[simp] theorem useFree_rings (n : Nat) : (useFree n s).rings = s.rings := rfl
@[simp] theorem useFree_skein (n : Nat) : (useFree n s).skein = s.skein := rfl
@[simp] theorem useFree_jobs (n : Nat) : (useFree n s).jobs = s.jobs := rfl
@[simp] theorem useFree_jobSeq (n : Nat) : (useFree n s).jobSeq = s.jobSeq := rfl
@[simp] theorem useFree_merge (n : Nat) : (useFree n s).merge = s.merge := rfl
@[simp] theorem useFree_eng (n : Nat) : (useFree n s).eng = s.eng := rfl
@[simp] theorem useFree_keys (n : Nat) : (useFree n s).keys = s.keys := rfl
@[simp] theorem useFree_ep (n : Nat) : (useFree n s).ep = s.ep := rfl
@[simp] theorem useFree_chans (n : Nat) : (useFree n s).chans = s.chans := rfl
@[simp] theorem useFree_tim (n : Nat) : (useFree n s).tim = s.tim := rfl
@[simp] theorem useFree_flt (n : Nat) : (useFree n s).flt = s.flt := rfl
@[simp] theorem useFree_darn (n : Nat) : (useFree n s).darn = s.darn := rfl
@[simp] theorem useFree_rng (n : Nat) : (useFree n s).rng = s.rng := rfl
@[simp] theorem useFree_pwr (n : Nat) : (useFree n s).pwr = s.pwr := rfl
@[simp] theorem useFree_baton (n : Nat) : (useFree n s).baton = s.baton := rfl
@[simp] theorem useFree_nvm (n : Nat) : (useFree n s).nvm = s.nvm := rfl
@[simp] theorem useFree_fuse (n : Nat) : (useFree n s).fuse = s.fuse := rfl
@[simp] theorem useFree_fw (n : Nat) : (useFree n s).fw = s.fw := rfl
@[simp] theorem useFree_id (n : Nat) : (useFree n s).id = s.id := rfl
@[simp] theorem useFree_fol (n : Nat) : (useFree n s).fol = s.fol := rfl
@[simp] theorem useFree_link (n : Nat) : (useFree n s).link = s.link := rfl
@[simp] theorem useFree_regs (n : Nat) : (useFree n s).regs = s.regs := rfl

@[simp] theorem setEntry_pending (cid : Nat) (f : CmdEntry → CmdEntry) : (setEntry cid f s).pending = s.pending := rfl
@[simp] theorem setEntry_pins (cid : Nat) (f : CmdEntry → CmdEntry) : (setEntry cid f s).pins = s.pins := rfl
@[simp] theorem setEntry_clk (cid : Nat) (f : CmdEntry → CmdEntry) : (setEntry cid f s).clk = s.clk := rfl
@[simp] theorem setEntry_fab (cid : Nat) (f : CmdEntry → CmdEntry) : (setEntry cid f s).fab = s.fab := rfl
@[simp] theorem setEntry_cmd (cid : Nat) (f : CmdEntry → CmdEntry) : (setEntry cid f s).cmd = modEntry cid f s.cmd := rfl
@[simp] theorem setEntry_ports (cid : Nat) (f : CmdEntry → CmdEntry) : (setEntry cid f s).ports = s.ports := rfl
@[simp] theorem setEntry_rings (cid : Nat) (f : CmdEntry → CmdEntry) : (setEntry cid f s).rings = s.rings := rfl
@[simp] theorem setEntry_skein (cid : Nat) (f : CmdEntry → CmdEntry) : (setEntry cid f s).skein = s.skein := rfl
@[simp] theorem setEntry_jobs (cid : Nat) (f : CmdEntry → CmdEntry) : (setEntry cid f s).jobs = s.jobs := rfl
@[simp] theorem setEntry_jobSeq (cid : Nat) (f : CmdEntry → CmdEntry) : (setEntry cid f s).jobSeq = s.jobSeq := rfl
@[simp] theorem setEntry_merge (cid : Nat) (f : CmdEntry → CmdEntry) : (setEntry cid f s).merge = s.merge := rfl
@[simp] theorem setEntry_eng (cid : Nat) (f : CmdEntry → CmdEntry) : (setEntry cid f s).eng = s.eng := rfl
@[simp] theorem setEntry_keys (cid : Nat) (f : CmdEntry → CmdEntry) : (setEntry cid f s).keys = s.keys := rfl
@[simp] theorem setEntry_ep (cid : Nat) (f : CmdEntry → CmdEntry) : (setEntry cid f s).ep = s.ep := rfl
@[simp] theorem setEntry_chans (cid : Nat) (f : CmdEntry → CmdEntry) : (setEntry cid f s).chans = s.chans := rfl
@[simp] theorem setEntry_tim (cid : Nat) (f : CmdEntry → CmdEntry) : (setEntry cid f s).tim = s.tim := rfl
@[simp] theorem setEntry_flt (cid : Nat) (f : CmdEntry → CmdEntry) : (setEntry cid f s).flt = s.flt := rfl
@[simp] theorem setEntry_darn (cid : Nat) (f : CmdEntry → CmdEntry) : (setEntry cid f s).darn = s.darn := rfl
@[simp] theorem setEntry_rng (cid : Nat) (f : CmdEntry → CmdEntry) : (setEntry cid f s).rng = s.rng := rfl
@[simp] theorem setEntry_pwr (cid : Nat) (f : CmdEntry → CmdEntry) : (setEntry cid f s).pwr = s.pwr := rfl
@[simp] theorem setEntry_baton (cid : Nat) (f : CmdEntry → CmdEntry) : (setEntry cid f s).baton = s.baton := rfl
@[simp] theorem setEntry_nvm (cid : Nat) (f : CmdEntry → CmdEntry) : (setEntry cid f s).nvm = s.nvm := rfl
@[simp] theorem setEntry_fuse (cid : Nat) (f : CmdEntry → CmdEntry) : (setEntry cid f s).fuse = s.fuse := rfl
@[simp] theorem setEntry_fw (cid : Nat) (f : CmdEntry → CmdEntry) : (setEntry cid f s).fw = s.fw := rfl
@[simp] theorem setEntry_id (cid : Nat) (f : CmdEntry → CmdEntry) : (setEntry cid f s).id = s.id := rfl
@[simp] theorem setEntry_fol (cid : Nat) (f : CmdEntry → CmdEntry) : (setEntry cid f s).fol = s.fol := rfl
@[simp] theorem setEntry_link (cid : Nat) (f : CmdEntry → CmdEntry) : (setEntry cid f s).link = s.link := rfl
@[simp] theorem setEntry_regs (cid : Nat) (f : CmdEntry → CmdEntry) : (setEntry cid f s).regs = s.regs := rfl

@[simp] theorem setJob_pending (i : Nat) (f : Job → Job) : (setJob i f s).pending = s.pending := rfl
@[simp] theorem setJob_pins (i : Nat) (f : Job → Job) : (setJob i f s).pins = s.pins := rfl
@[simp] theorem setJob_clk (i : Nat) (f : Job → Job) : (setJob i f s).clk = s.clk := rfl
@[simp] theorem setJob_fab (i : Nat) (f : Job → Job) : (setJob i f s).fab = s.fab := rfl
@[simp] theorem setJob_cmd (i : Nat) (f : Job → Job) : (setJob i f s).cmd = s.cmd := rfl
@[simp] theorem setJob_ports (i : Nat) (f : Job → Job) : (setJob i f s).ports = s.ports := rfl
@[simp] theorem setJob_rings (i : Nat) (f : Job → Job) : (setJob i f s).rings = s.rings := rfl
@[simp] theorem setJob_skein (i : Nat) (f : Job → Job) : (setJob i f s).skein = s.skein := rfl
@[simp] theorem setJob_jobs (i : Nat) (f : Job → Job) : (setJob i f s).jobs = tmod s.jobs i f := rfl
@[simp] theorem setJob_jobSeq (i : Nat) (f : Job → Job) : (setJob i f s).jobSeq = s.jobSeq := rfl
@[simp] theorem setJob_merge (i : Nat) (f : Job → Job) : (setJob i f s).merge = s.merge := rfl
@[simp] theorem setJob_eng (i : Nat) (f : Job → Job) : (setJob i f s).eng = s.eng := rfl
@[simp] theorem setJob_keys (i : Nat) (f : Job → Job) : (setJob i f s).keys = s.keys := rfl
@[simp] theorem setJob_ep (i : Nat) (f : Job → Job) : (setJob i f s).ep = s.ep := rfl
@[simp] theorem setJob_chans (i : Nat) (f : Job → Job) : (setJob i f s).chans = s.chans := rfl
@[simp] theorem setJob_tim (i : Nat) (f : Job → Job) : (setJob i f s).tim = s.tim := rfl
@[simp] theorem setJob_flt (i : Nat) (f : Job → Job) : (setJob i f s).flt = s.flt := rfl
@[simp] theorem setJob_darn (i : Nat) (f : Job → Job) : (setJob i f s).darn = s.darn := rfl
@[simp] theorem setJob_rng (i : Nat) (f : Job → Job) : (setJob i f s).rng = s.rng := rfl
@[simp] theorem setJob_pwr (i : Nat) (f : Job → Job) : (setJob i f s).pwr = s.pwr := rfl
@[simp] theorem setJob_baton (i : Nat) (f : Job → Job) : (setJob i f s).baton = s.baton := rfl
@[simp] theorem setJob_nvm (i : Nat) (f : Job → Job) : (setJob i f s).nvm = s.nvm := rfl
@[simp] theorem setJob_fuse (i : Nat) (f : Job → Job) : (setJob i f s).fuse = s.fuse := rfl
@[simp] theorem setJob_fw (i : Nat) (f : Job → Job) : (setJob i f s).fw = s.fw := rfl
@[simp] theorem setJob_id (i : Nat) (f : Job → Job) : (setJob i f s).id = s.id := rfl
@[simp] theorem setJob_fol (i : Nat) (f : Job → Job) : (setJob i f s).fol = s.fol := rfl
@[simp] theorem setJob_link (i : Nat) (f : Job → Job) : (setJob i f s).link = s.link := rfl
@[simp] theorem setJob_regs (i : Nat) (f : Job → Job) : (setJob i f s).regs = s.regs := rfl

@[simp] theorem modPort_pending (p : Nat) (f : CPort → CPort) : (modPort p f s).pending = s.pending := rfl
@[simp] theorem modPort_pins (p : Nat) (f : CPort → CPort) : (modPort p f s).pins = s.pins := rfl
@[simp] theorem modPort_clk (p : Nat) (f : CPort → CPort) : (modPort p f s).clk = s.clk := rfl
@[simp] theorem modPort_fab (p : Nat) (f : CPort → CPort) : (modPort p f s).fab = s.fab := rfl
@[simp] theorem modPort_cmd (p : Nat) (f : CPort → CPort) : (modPort p f s).cmd = s.cmd := rfl
@[simp] theorem modPort_ports (p : Nat) (f : CPort → CPort) : (modPort p f s).ports = tmod s.ports p f := rfl
@[simp] theorem modPort_rings (p : Nat) (f : CPort → CPort) : (modPort p f s).rings = s.rings := rfl
@[simp] theorem modPort_skein (p : Nat) (f : CPort → CPort) : (modPort p f s).skein = s.skein := rfl
@[simp] theorem modPort_jobs (p : Nat) (f : CPort → CPort) : (modPort p f s).jobs = s.jobs := rfl
@[simp] theorem modPort_jobSeq (p : Nat) (f : CPort → CPort) : (modPort p f s).jobSeq = s.jobSeq := rfl
@[simp] theorem modPort_merge (p : Nat) (f : CPort → CPort) : (modPort p f s).merge = s.merge := rfl
@[simp] theorem modPort_eng (p : Nat) (f : CPort → CPort) : (modPort p f s).eng = s.eng := rfl
@[simp] theorem modPort_keys (p : Nat) (f : CPort → CPort) : (modPort p f s).keys = s.keys := rfl
@[simp] theorem modPort_ep (p : Nat) (f : CPort → CPort) : (modPort p f s).ep = s.ep := rfl
@[simp] theorem modPort_chans (p : Nat) (f : CPort → CPort) : (modPort p f s).chans = s.chans := rfl
@[simp] theorem modPort_tim (p : Nat) (f : CPort → CPort) : (modPort p f s).tim = s.tim := rfl
@[simp] theorem modPort_flt (p : Nat) (f : CPort → CPort) : (modPort p f s).flt = s.flt := rfl
@[simp] theorem modPort_darn (p : Nat) (f : CPort → CPort) : (modPort p f s).darn = s.darn := rfl
@[simp] theorem modPort_rng (p : Nat) (f : CPort → CPort) : (modPort p f s).rng = s.rng := rfl
@[simp] theorem modPort_pwr (p : Nat) (f : CPort → CPort) : (modPort p f s).pwr = s.pwr := rfl
@[simp] theorem modPort_baton (p : Nat) (f : CPort → CPort) : (modPort p f s).baton = s.baton := rfl
@[simp] theorem modPort_nvm (p : Nat) (f : CPort → CPort) : (modPort p f s).nvm = s.nvm := rfl
@[simp] theorem modPort_fuse (p : Nat) (f : CPort → CPort) : (modPort p f s).fuse = s.fuse := rfl
@[simp] theorem modPort_fw (p : Nat) (f : CPort → CPort) : (modPort p f s).fw = s.fw := rfl
@[simp] theorem modPort_id (p : Nat) (f : CPort → CPort) : (modPort p f s).id = s.id := rfl
@[simp] theorem modPort_fol (p : Nat) (f : CPort → CPort) : (modPort p f s).fol = s.fol := rfl
@[simp] theorem modPort_link (p : Nat) (f : CPort → CPort) : (modPort p f s).link = s.link := rfl
@[simp] theorem modPort_regs (p : Nat) (f : CPort → CPort) : (modPort p f s).regs = s.regs := rfl

@[simp] theorem modSession_pending (x : Nat) (f : Session → Session) : (modSession x f s).pending = s.pending := rfl
@[simp] theorem modSession_pins (x : Nat) (f : Session → Session) : (modSession x f s).pins = s.pins := rfl
@[simp] theorem modSession_clk (x : Nat) (f : Session → Session) : (modSession x f s).clk = s.clk := rfl
@[simp] theorem modSession_fab (x : Nat) (f : Session → Session) : (modSession x f s).fab = s.fab := rfl
@[simp] theorem modSession_cmd (x : Nat) (f : Session → Session) : (modSession x f s).cmd = s.cmd := rfl
@[simp] theorem modSession_ports (x : Nat) (f : Session → Session) : (modSession x f s).ports = s.ports := rfl
@[simp] theorem modSession_rings (x : Nat) (f : Session → Session) : (modSession x f s).rings = s.rings := rfl
@[simp] theorem modSession_skein (x : Nat) (f : Session → Session) : (modSession x f s).skein = s.skein := rfl
@[simp] theorem modSession_jobs (x : Nat) (f : Session → Session) : (modSession x f s).jobs = s.jobs := rfl
@[simp] theorem modSession_jobSeq (x : Nat) (f : Session → Session) : (modSession x f s).jobSeq = s.jobSeq := rfl
@[simp] theorem modSession_merge (x : Nat) (f : Session → Session) : (modSession x f s).merge = s.merge := rfl
@[simp] theorem modSession_eng (x : Nat) (f : Session → Session) : (modSession x f s).eng = s.eng := rfl
@[simp] theorem modSession_keys (x : Nat) (f : Session → Session) : (modSession x f s).keys = { s.keys with sessions := tmod s.keys.sessions x f } := rfl
@[simp] theorem modSession_ep (x : Nat) (f : Session → Session) : (modSession x f s).ep = s.ep := rfl
@[simp] theorem modSession_chans (x : Nat) (f : Session → Session) : (modSession x f s).chans = s.chans := rfl
@[simp] theorem modSession_tim (x : Nat) (f : Session → Session) : (modSession x f s).tim = s.tim := rfl
@[simp] theorem modSession_flt (x : Nat) (f : Session → Session) : (modSession x f s).flt = s.flt := rfl
@[simp] theorem modSession_darn (x : Nat) (f : Session → Session) : (modSession x f s).darn = s.darn := rfl
@[simp] theorem modSession_rng (x : Nat) (f : Session → Session) : (modSession x f s).rng = s.rng := rfl
@[simp] theorem modSession_pwr (x : Nat) (f : Session → Session) : (modSession x f s).pwr = s.pwr := rfl
@[simp] theorem modSession_baton (x : Nat) (f : Session → Session) : (modSession x f s).baton = s.baton := rfl
@[simp] theorem modSession_nvm (x : Nat) (f : Session → Session) : (modSession x f s).nvm = s.nvm := rfl
@[simp] theorem modSession_fuse (x : Nat) (f : Session → Session) : (modSession x f s).fuse = s.fuse := rfl
@[simp] theorem modSession_fw (x : Nat) (f : Session → Session) : (modSession x f s).fw = s.fw := rfl
@[simp] theorem modSession_id (x : Nat) (f : Session → Session) : (modSession x f s).id = s.id := rfl
@[simp] theorem modSession_fol (x : Nat) (f : Session → Session) : (modSession x f s).fol = s.fol := rfl
@[simp] theorem modSession_link (x : Nat) (f : Session → Session) : (modSession x f s).link = s.link := rfl
@[simp] theorem modSession_regs (x : Nat) (f : Session → Session) : (modSession x f s).regs = s.regs := rfl

@[simp] theorem modChan_pending (n : Nat) (f : Chan → Chan) : (modChan n f s).pending = s.pending := rfl
@[simp] theorem modChan_pins (n : Nat) (f : Chan → Chan) : (modChan n f s).pins = s.pins := rfl
@[simp] theorem modChan_clk (n : Nat) (f : Chan → Chan) : (modChan n f s).clk = s.clk := rfl
@[simp] theorem modChan_fab (n : Nat) (f : Chan → Chan) : (modChan n f s).fab = s.fab := rfl
@[simp] theorem modChan_cmd (n : Nat) (f : Chan → Chan) : (modChan n f s).cmd = s.cmd := rfl
@[simp] theorem modChan_ports (n : Nat) (f : Chan → Chan) : (modChan n f s).ports = s.ports := rfl
@[simp] theorem modChan_rings (n : Nat) (f : Chan → Chan) : (modChan n f s).rings = s.rings := rfl
@[simp] theorem modChan_skein (n : Nat) (f : Chan → Chan) : (modChan n f s).skein = s.skein := rfl
@[simp] theorem modChan_jobs (n : Nat) (f : Chan → Chan) : (modChan n f s).jobs = s.jobs := rfl
@[simp] theorem modChan_jobSeq (n : Nat) (f : Chan → Chan) : (modChan n f s).jobSeq = s.jobSeq := rfl
@[simp] theorem modChan_merge (n : Nat) (f : Chan → Chan) : (modChan n f s).merge = s.merge := rfl
@[simp] theorem modChan_eng (n : Nat) (f : Chan → Chan) : (modChan n f s).eng = s.eng := rfl
@[simp] theorem modChan_keys (n : Nat) (f : Chan → Chan) : (modChan n f s).keys = s.keys := rfl
@[simp] theorem modChan_ep (n : Nat) (f : Chan → Chan) : (modChan n f s).ep = s.ep := rfl
@[simp] theorem modChan_chans (n : Nat) (f : Chan → Chan) : (modChan n f s).chans = tmod s.chans n f := rfl
@[simp] theorem modChan_tim (n : Nat) (f : Chan → Chan) : (modChan n f s).tim = s.tim := rfl
@[simp] theorem modChan_flt (n : Nat) (f : Chan → Chan) : (modChan n f s).flt = s.flt := rfl
@[simp] theorem modChan_darn (n : Nat) (f : Chan → Chan) : (modChan n f s).darn = s.darn := rfl
@[simp] theorem modChan_rng (n : Nat) (f : Chan → Chan) : (modChan n f s).rng = s.rng := rfl
@[simp] theorem modChan_pwr (n : Nat) (f : Chan → Chan) : (modChan n f s).pwr = s.pwr := rfl
@[simp] theorem modChan_baton (n : Nat) (f : Chan → Chan) : (modChan n f s).baton = s.baton := rfl
@[simp] theorem modChan_nvm (n : Nat) (f : Chan → Chan) : (modChan n f s).nvm = s.nvm := rfl
@[simp] theorem modChan_fuse (n : Nat) (f : Chan → Chan) : (modChan n f s).fuse = s.fuse := rfl
@[simp] theorem modChan_fw (n : Nat) (f : Chan → Chan) : (modChan n f s).fw = s.fw := rfl
@[simp] theorem modChan_id (n : Nat) (f : Chan → Chan) : (modChan n f s).id = s.id := rfl
@[simp] theorem modChan_fol (n : Nat) (f : Chan → Chan) : (modChan n f s).fol = s.fol := rfl
@[simp] theorem modChan_link (n : Nat) (f : Chan → Chan) : (modChan n f s).link = s.link := rfl
@[simp] theorem modChan_regs (n : Nat) (f : Chan → Chan) : (modChan n f s).regs = s.regs := rfl

@[simp] theorem modLane_pending (i : Nat) (f : Lane → Lane) : (modLane i f s).pending = s.pending := rfl
@[simp] theorem modLane_pins (i : Nat) (f : Lane → Lane) : (modLane i f s).pins = s.pins := rfl
@[simp] theorem modLane_clk (i : Nat) (f : Lane → Lane) : (modLane i f s).clk = s.clk := rfl
@[simp] theorem modLane_fab (i : Nat) (f : Lane → Lane) : (modLane i f s).fab = s.fab := rfl
@[simp] theorem modLane_cmd (i : Nat) (f : Lane → Lane) : (modLane i f s).cmd = s.cmd := rfl
@[simp] theorem modLane_ports (i : Nat) (f : Lane → Lane) : (modLane i f s).ports = s.ports := rfl
@[simp] theorem modLane_rings (i : Nat) (f : Lane → Lane) : (modLane i f s).rings = s.rings := rfl
@[simp] theorem modLane_skein (i : Nat) (f : Lane → Lane) : (modLane i f s).skein = s.skein := rfl
@[simp] theorem modLane_jobs (i : Nat) (f : Lane → Lane) : (modLane i f s).jobs = s.jobs := rfl
@[simp] theorem modLane_jobSeq (i : Nat) (f : Lane → Lane) : (modLane i f s).jobSeq = s.jobSeq := rfl
@[simp] theorem modLane_merge (i : Nat) (f : Lane → Lane) : (modLane i f s).merge = s.merge := rfl
@[simp] theorem modLane_eng (i : Nat) (f : Lane → Lane) : (modLane i f s).eng = s.eng := rfl
@[simp] theorem modLane_keys (i : Nat) (f : Lane → Lane) : (modLane i f s).keys = s.keys := rfl
@[simp] theorem modLane_ep (i : Nat) (f : Lane → Lane) : (modLane i f s).ep = s.ep := rfl
@[simp] theorem modLane_chans (i : Nat) (f : Lane → Lane) : (modLane i f s).chans = s.chans := rfl
@[simp] theorem modLane_tim (i : Nat) (f : Lane → Lane) : (modLane i f s).tim = s.tim := rfl
@[simp] theorem modLane_flt (i : Nat) (f : Lane → Lane) : (modLane i f s).flt = s.flt := rfl
@[simp] theorem modLane_darn (i : Nat) (f : Lane → Lane) : (modLane i f s).darn = s.darn := rfl
@[simp] theorem modLane_rng (i : Nat) (f : Lane → Lane) : (modLane i f s).rng = s.rng := rfl
@[simp] theorem modLane_pwr (i : Nat) (f : Lane → Lane) : (modLane i f s).pwr = s.pwr := rfl
@[simp] theorem modLane_baton (i : Nat) (f : Lane → Lane) : (modLane i f s).baton = s.baton := rfl
@[simp] theorem modLane_nvm (i : Nat) (f : Lane → Lane) : (modLane i f s).nvm = s.nvm := rfl
@[simp] theorem modLane_fuse (i : Nat) (f : Lane → Lane) : (modLane i f s).fuse = s.fuse := rfl
@[simp] theorem modLane_fw (i : Nat) (f : Lane → Lane) : (modLane i f s).fw = s.fw := rfl
@[simp] theorem modLane_id (i : Nat) (f : Lane → Lane) : (modLane i f s).id = s.id := rfl
@[simp] theorem modLane_fol (i : Nat) (f : Lane → Lane) : (modLane i f s).fol = s.fol := rfl
@[simp] theorem modLane_link (i : Nat) (f : Lane → Lane) : (modLane i f s).link = { s.link with lanes := tmod s.link.lanes i f } := rfl
@[simp] theorem modLane_regs (i : Nat) (f : Lane → Lane) : (modLane i f s).regs = s.regs := rfl

@[simp] theorem modCell_pending (c : Nat) (f : Cell → Cell) : (modCell c f s).pending = s.pending := rfl
@[simp] theorem modCell_pins (c : Nat) (f : Cell → Cell) : (modCell c f s).pins = s.pins := rfl
@[simp] theorem modCell_clk (c : Nat) (f : Cell → Cell) : (modCell c f s).clk = s.clk := rfl
@[simp] theorem modCell_fab (c : Nat) (f : Cell → Cell) : (modCell c f s).fab = s.fab := rfl
@[simp] theorem modCell_cmd (c : Nat) (f : Cell → Cell) : (modCell c f s).cmd = s.cmd := rfl
@[simp] theorem modCell_ports (c : Nat) (f : Cell → Cell) : (modCell c f s).ports = s.ports := rfl
@[simp] theorem modCell_rings (c : Nat) (f : Cell → Cell) : (modCell c f s).rings = s.rings := rfl
@[simp] theorem modCell_skein (c : Nat) (f : Cell → Cell) : (modCell c f s).skein = s.skein := rfl
@[simp] theorem modCell_jobs (c : Nat) (f : Cell → Cell) : (modCell c f s).jobs = s.jobs := rfl
@[simp] theorem modCell_jobSeq (c : Nat) (f : Cell → Cell) : (modCell c f s).jobSeq = s.jobSeq := rfl
@[simp] theorem modCell_merge (c : Nat) (f : Cell → Cell) : (modCell c f s).merge = s.merge := rfl
@[simp] theorem modCell_eng (c : Nat) (f : Cell → Cell) : (modCell c f s).eng = s.eng := rfl
@[simp] theorem modCell_keys (c : Nat) (f : Cell → Cell) : (modCell c f s).keys = s.keys := rfl
@[simp] theorem modCell_ep (c : Nat) (f : Cell → Cell) : (modCell c f s).ep = s.ep := rfl
@[simp] theorem modCell_chans (c : Nat) (f : Cell → Cell) : (modCell c f s).chans = s.chans := rfl
@[simp] theorem modCell_tim (c : Nat) (f : Cell → Cell) : (modCell c f s).tim = s.tim := rfl
@[simp] theorem modCell_flt (c : Nat) (f : Cell → Cell) : (modCell c f s).flt = s.flt := rfl
@[simp] theorem modCell_darn (c : Nat) (f : Cell → Cell) : (modCell c f s).darn = s.darn := rfl
@[simp] theorem modCell_rng (c : Nat) (f : Cell → Cell) : (modCell c f s).rng = { s.rng with cells := tmod s.rng.cells c f } := rfl
@[simp] theorem modCell_pwr (c : Nat) (f : Cell → Cell) : (modCell c f s).pwr = s.pwr := rfl
@[simp] theorem modCell_baton (c : Nat) (f : Cell → Cell) : (modCell c f s).baton = s.baton := rfl
@[simp] theorem modCell_nvm (c : Nat) (f : Cell → Cell) : (modCell c f s).nvm = s.nvm := rfl
@[simp] theorem modCell_fuse (c : Nat) (f : Cell → Cell) : (modCell c f s).fuse = s.fuse := rfl
@[simp] theorem modCell_fw (c : Nat) (f : Cell → Cell) : (modCell c f s).fw = s.fw := rfl
@[simp] theorem modCell_id (c : Nat) (f : Cell → Cell) : (modCell c f s).id = s.id := rfl
@[simp] theorem modCell_fol (c : Nat) (f : Cell → Cell) : (modCell c f s).fol = s.fol := rfl
@[simp] theorem modCell_link (c : Nat) (f : Cell → Cell) : (modCell c f s).link = s.link := rfl
@[simp] theorem modCell_regs (c : Nat) (f : Cell → Cell) : (modCell c f s).regs = s.regs := rfl

@[simp] theorem modFab_pending (n : Nat) (f : FabPort → FabPort) : (modFab n f s).pending = s.pending := rfl
@[simp] theorem modFab_pins (n : Nat) (f : FabPort → FabPort) : (modFab n f s).pins = s.pins := rfl
@[simp] theorem modFab_clk (n : Nat) (f : FabPort → FabPort) : (modFab n f s).clk = s.clk := rfl
@[simp] theorem modFab_fab (n : Nat) (f : FabPort → FabPort) : (modFab n f s).fab = { s.fab with ports := tmod s.fab.ports n f } := rfl
@[simp] theorem modFab_cmd (n : Nat) (f : FabPort → FabPort) : (modFab n f s).cmd = s.cmd := rfl
@[simp] theorem modFab_ports (n : Nat) (f : FabPort → FabPort) : (modFab n f s).ports = s.ports := rfl
@[simp] theorem modFab_rings (n : Nat) (f : FabPort → FabPort) : (modFab n f s).rings = s.rings := rfl
@[simp] theorem modFab_skein (n : Nat) (f : FabPort → FabPort) : (modFab n f s).skein = s.skein := rfl
@[simp] theorem modFab_jobs (n : Nat) (f : FabPort → FabPort) : (modFab n f s).jobs = s.jobs := rfl
@[simp] theorem modFab_jobSeq (n : Nat) (f : FabPort → FabPort) : (modFab n f s).jobSeq = s.jobSeq := rfl
@[simp] theorem modFab_merge (n : Nat) (f : FabPort → FabPort) : (modFab n f s).merge = s.merge := rfl
@[simp] theorem modFab_eng (n : Nat) (f : FabPort → FabPort) : (modFab n f s).eng = s.eng := rfl
@[simp] theorem modFab_keys (n : Nat) (f : FabPort → FabPort) : (modFab n f s).keys = s.keys := rfl
@[simp] theorem modFab_ep (n : Nat) (f : FabPort → FabPort) : (modFab n f s).ep = s.ep := rfl
@[simp] theorem modFab_chans (n : Nat) (f : FabPort → FabPort) : (modFab n f s).chans = s.chans := rfl
@[simp] theorem modFab_tim (n : Nat) (f : FabPort → FabPort) : (modFab n f s).tim = s.tim := rfl
@[simp] theorem modFab_flt (n : Nat) (f : FabPort → FabPort) : (modFab n f s).flt = s.flt := rfl
@[simp] theorem modFab_darn (n : Nat) (f : FabPort → FabPort) : (modFab n f s).darn = s.darn := rfl
@[simp] theorem modFab_rng (n : Nat) (f : FabPort → FabPort) : (modFab n f s).rng = s.rng := rfl
@[simp] theorem modFab_pwr (n : Nat) (f : FabPort → FabPort) : (modFab n f s).pwr = s.pwr := rfl
@[simp] theorem modFab_baton (n : Nat) (f : FabPort → FabPort) : (modFab n f s).baton = s.baton := rfl
@[simp] theorem modFab_nvm (n : Nat) (f : FabPort → FabPort) : (modFab n f s).nvm = s.nvm := rfl
@[simp] theorem modFab_fuse (n : Nat) (f : FabPort → FabPort) : (modFab n f s).fuse = s.fuse := rfl
@[simp] theorem modFab_fw (n : Nat) (f : FabPort → FabPort) : (modFab n f s).fw = s.fw := rfl
@[simp] theorem modFab_id (n : Nat) (f : FabPort → FabPort) : (modFab n f s).id = s.id := rfl
@[simp] theorem modFab_fol (n : Nat) (f : FabPort → FabPort) : (modFab n f s).fol = s.fol := rfl
@[simp] theorem modFab_link (n : Nat) (f : FabPort → FabPort) : (modFab n f s).link = s.link := rfl
@[simp] theorem modFab_regs (n : Nat) (f : FabPort → FabPort) : (modFab n f s).regs = s.regs := rfl

@[simp] theorem nvmQueue_pending (o : NvmOp) : (nvmQueue o s).pending = s.pending := rfl
@[simp] theorem nvmQueue_pins (o : NvmOp) : (nvmQueue o s).pins = s.pins := rfl
@[simp] theorem nvmQueue_clk (o : NvmOp) : (nvmQueue o s).clk = s.clk := rfl
@[simp] theorem nvmQueue_fab (o : NvmOp) : (nvmQueue o s).fab = s.fab := rfl
@[simp] theorem nvmQueue_cmd (o : NvmOp) : (nvmQueue o s).cmd = s.cmd := rfl
@[simp] theorem nvmQueue_ports (o : NvmOp) : (nvmQueue o s).ports = s.ports := rfl
@[simp] theorem nvmQueue_rings (o : NvmOp) : (nvmQueue o s).rings = s.rings := rfl
@[simp] theorem nvmQueue_skein (o : NvmOp) : (nvmQueue o s).skein = s.skein := rfl
@[simp] theorem nvmQueue_jobs (o : NvmOp) : (nvmQueue o s).jobs = s.jobs := rfl
@[simp] theorem nvmQueue_jobSeq (o : NvmOp) : (nvmQueue o s).jobSeq = s.jobSeq := rfl
@[simp] theorem nvmQueue_merge (o : NvmOp) : (nvmQueue o s).merge = s.merge := rfl
@[simp] theorem nvmQueue_eng (o : NvmOp) : (nvmQueue o s).eng = s.eng := rfl
@[simp] theorem nvmQueue_keys (o : NvmOp) : (nvmQueue o s).keys = s.keys := rfl
@[simp] theorem nvmQueue_ep (o : NvmOp) : (nvmQueue o s).ep = s.ep := rfl
@[simp] theorem nvmQueue_chans (o : NvmOp) : (nvmQueue o s).chans = s.chans := rfl
@[simp] theorem nvmQueue_tim (o : NvmOp) : (nvmQueue o s).tim = s.tim := rfl
@[simp] theorem nvmQueue_flt (o : NvmOp) : (nvmQueue o s).flt = s.flt := rfl
@[simp] theorem nvmQueue_darn (o : NvmOp) : (nvmQueue o s).darn = s.darn := rfl
@[simp] theorem nvmQueue_rng (o : NvmOp) : (nvmQueue o s).rng = s.rng := rfl
@[simp] theorem nvmQueue_pwr (o : NvmOp) : (nvmQueue o s).pwr = s.pwr := rfl
@[simp] theorem nvmQueue_baton (o : NvmOp) : (nvmQueue o s).baton = s.baton := rfl
@[simp] theorem nvmQueue_nvm (o : NvmOp) : (nvmQueue o s).nvm = { s.nvm with ops := s.nvm.ops ++ [o] } := rfl
@[simp] theorem nvmQueue_fuse (o : NvmOp) : (nvmQueue o s).fuse = s.fuse := rfl
@[simp] theorem nvmQueue_fw (o : NvmOp) : (nvmQueue o s).fw = s.fw := rfl
@[simp] theorem nvmQueue_id (o : NvmOp) : (nvmQueue o s).id = s.id := rfl
@[simp] theorem nvmQueue_fol (o : NvmOp) : (nvmQueue o s).fol = s.fol := rfl
@[simp] theorem nvmQueue_link (o : NvmOp) : (nvmQueue o s).link = s.link := rfl
@[simp] theorem nvmQueue_regs (o : NvmOp) : (nvmQueue o s).regs = s.regs := rfl

@[simp] theorem modSrc_pending (n : Nat) (f : Src → Src) : (modSrc n f s).pending = s.pending := rfl
@[simp] theorem modSrc_pins (n : Nat) (f : Src → Src) : (modSrc n f s).pins = s.pins := rfl
@[simp] theorem modSrc_clk (n : Nat) (f : Src → Src) : (modSrc n f s).clk = s.clk := rfl
@[simp] theorem modSrc_fab (n : Nat) (f : Src → Src) : (modSrc n f s).fab = s.fab := rfl
@[simp] theorem modSrc_cmd (n : Nat) (f : Src → Src) : (modSrc n f s).cmd = s.cmd := rfl
@[simp] theorem modSrc_ports (n : Nat) (f : Src → Src) : (modSrc n f s).ports = s.ports := rfl
@[simp] theorem modSrc_rings (n : Nat) (f : Src → Src) : (modSrc n f s).rings = s.rings := rfl
@[simp] theorem modSrc_skein (n : Nat) (f : Src → Src) : (modSrc n f s).skein = s.skein := rfl
@[simp] theorem modSrc_jobs (n : Nat) (f : Src → Src) : (modSrc n f s).jobs = s.jobs := rfl
@[simp] theorem modSrc_jobSeq (n : Nat) (f : Src → Src) : (modSrc n f s).jobSeq = s.jobSeq := rfl
@[simp] theorem modSrc_merge (n : Nat) (f : Src → Src) : (modSrc n f s).merge = s.merge := rfl
@[simp] theorem modSrc_eng (n : Nat) (f : Src → Src) : (modSrc n f s).eng = s.eng := rfl
@[simp] theorem modSrc_keys (n : Nat) (f : Src → Src) : (modSrc n f s).keys = s.keys := rfl
@[simp] theorem modSrc_ep (n : Nat) (f : Src → Src) : (modSrc n f s).ep = s.ep := rfl
@[simp] theorem modSrc_chans (n : Nat) (f : Src → Src) : (modSrc n f s).chans = s.chans := rfl
@[simp] theorem modSrc_tim (n : Nat) (f : Src → Src) : (modSrc n f s).tim = s.tim := rfl
@[simp] theorem modSrc_flt (n : Nat) (f : Src → Src) : (modSrc n f s).flt = { s.flt with sources := tmod s.flt.sources n f } := rfl
@[simp] theorem modSrc_darn (n : Nat) (f : Src → Src) : (modSrc n f s).darn = s.darn := rfl
@[simp] theorem modSrc_rng (n : Nat) (f : Src → Src) : (modSrc n f s).rng = s.rng := rfl
@[simp] theorem modSrc_pwr (n : Nat) (f : Src → Src) : (modSrc n f s).pwr = s.pwr := rfl
@[simp] theorem modSrc_baton (n : Nat) (f : Src → Src) : (modSrc n f s).baton = s.baton := rfl
@[simp] theorem modSrc_nvm (n : Nat) (f : Src → Src) : (modSrc n f s).nvm = s.nvm := rfl
@[simp] theorem modSrc_fuse (n : Nat) (f : Src → Src) : (modSrc n f s).fuse = s.fuse := rfl
@[simp] theorem modSrc_fw (n : Nat) (f : Src → Src) : (modSrc n f s).fw = s.fw := rfl
@[simp] theorem modSrc_id (n : Nat) (f : Src → Src) : (modSrc n f s).id = s.id := rfl
@[simp] theorem modSrc_fol (n : Nat) (f : Src → Src) : (modSrc n f s).fol = s.fol := rfl
@[simp] theorem modSrc_link (n : Nat) (f : Src → Src) : (modSrc n f s).link = s.link := rfl
@[simp] theorem modSrc_regs (n : Nat) (f : Src → Src) : (modSrc n f s).regs = s.regs := rfl

@[simp] theorem toMerge_pending (i : Nat) : (toMerge i s).pending = s.pending := rfl
@[simp] theorem toMerge_pins (i : Nat) : (toMerge i s).pins = s.pins := rfl
@[simp] theorem toMerge_clk (i : Nat) : (toMerge i s).clk = s.clk := rfl
@[simp] theorem toMerge_fab (i : Nat) : (toMerge i s).fab = s.fab := rfl
@[simp] theorem toMerge_cmd (i : Nat) : (toMerge i s).cmd = s.cmd := rfl
@[simp] theorem toMerge_ports (i : Nat) : (toMerge i s).ports = s.ports := rfl
@[simp] theorem toMerge_rings (i : Nat) : (toMerge i s).rings = s.rings := rfl
@[simp] theorem toMerge_skein (i : Nat) : (toMerge i s).skein = s.skein := rfl
@[simp] theorem toMerge_jobs (i : Nat) : (toMerge i s).jobs = tmod s.jobs i (fun j => { wipe j with phase := .merge, mergedAt := s.clk.now }) := rfl
@[simp] theorem toMerge_jobSeq (i : Nat) : (toMerge i s).jobSeq = s.jobSeq := rfl
@[simp] theorem toMerge_merge (i : Nat) : (toMerge i s).merge = s.merge ++ [i] := rfl
@[simp] theorem toMerge_eng (i : Nat) : (toMerge i s).eng = s.eng := rfl
@[simp] theorem toMerge_keys (i : Nat) : (toMerge i s).keys = s.keys := rfl
@[simp] theorem toMerge_ep (i : Nat) : (toMerge i s).ep = s.ep := rfl
@[simp] theorem toMerge_chans (i : Nat) : (toMerge i s).chans = s.chans := rfl
@[simp] theorem toMerge_tim (i : Nat) : (toMerge i s).tim = s.tim := rfl
@[simp] theorem toMerge_flt (i : Nat) : (toMerge i s).flt = s.flt := rfl
@[simp] theorem toMerge_darn (i : Nat) : (toMerge i s).darn = s.darn := rfl
@[simp] theorem toMerge_rng (i : Nat) : (toMerge i s).rng = s.rng := rfl
@[simp] theorem toMerge_pwr (i : Nat) : (toMerge i s).pwr = s.pwr := rfl
@[simp] theorem toMerge_baton (i : Nat) : (toMerge i s).baton = s.baton := rfl
@[simp] theorem toMerge_nvm (i : Nat) : (toMerge i s).nvm = s.nvm := rfl
@[simp] theorem toMerge_fuse (i : Nat) : (toMerge i s).fuse = s.fuse := rfl
@[simp] theorem toMerge_fw (i : Nat) : (toMerge i s).fw = s.fw := rfl
@[simp] theorem toMerge_id (i : Nat) : (toMerge i s).id = s.id := rfl
@[simp] theorem toMerge_fol (i : Nat) : (toMerge i s).fol = s.fol := rfl
@[simp] theorem toMerge_link (i : Nat) : (toMerge i s).link = s.link := rfl
@[simp] theorem toMerge_regs (i : Nat) : (toMerge i s).regs = s.regs := rfl

end Sys2Proof.Laws
end

