-- ==== Sys2Proof/Tests/Slice0.lean ====
section
/-! SUPPORT. The model's own tests: ill-formed commands refused, single steps on small states with results from the spec, and for every
statement's hypotheses a state and operands that meet them (clause by clause, in the order of the statement). -/
namespace Sys2Proof.Tests
open Sys2Proof.Machine Sys2Proof.Safety

/-! ### States and packets -/

/-- The block after its start, in P0. -/
def up : State := { State.reset with pins := { State.reset.pins with coreInReset := false }, pwr := { State.reset.pwr with stage := 7 } }

/-- A command packet with its header (03 Table 3-2), version 1 and the given parameters. -/
def pk (op port : Nat) (params : Bytes) : CmdEntry :=
  { cid := 1, via := .ring 0, opcode := op, port := port
    bytes := leBytes 2 op ++ [1, 0] ++ leBytes 2 ((16 + params.length + 7) / 8) ++ leBytes 2 9 ++ leBytes 2 port ++ zeros 6 ++ params }

/-- The state with one packet in execution. -/
def cmd (e : CmdEntry) (s : State) : State := { s with cmd := { s.cmd with exec := [e] } }

/-- Port 5 open with the window [0, 2^40); key slot 3 holds its AES-256 key, slot 4 a key of port 6; ring 7 is a completion ring and ring 8 a
descriptor ring; session 0 is a GCM session. -/
def base : State :=
  { up with
    ports := [(5, { isOpen := true, gen := 1, sid := 0x55, winLen := 2 ^ 40, algMask := 0xFFFFFFFFFFFFFFFF, pflags := 7 })]
    keys := { up.keys with
      carveEn := true, carveReady := true
      slots := [(3, { state := .valid, keyType := 3, usage := 0x1FF, owner := 5, matLen := 32, material := zeros 32 }),
                (4, { state := .stale, keyType := 3, owner := 5, matLen := 32 })]
      sessions := [(0, { owner := 5, key := 0x8003, alg := 0x10, mode := 4, policy := 1, ligature := 0, spanOff := 0, spanLen := 0, sflags := 0, salt := 0
                         next := 0, ceiling := 4096, limit := 2 ^ 32, gen := 1 })] }
    rings := [(7, { isCpl := true, port := 5, log2 := 4, base := 4096, coalCount := 1, coalUs := 10, vector := 2 }),
              (8, { isCpl := false, port := 5, log2 := 4, base := 8192, gen := 1, cplRing := 7, slot := some 0 })] }

/-! ### Ill-formed commands -/

/-- Whether a command stops with the fault `malformed`. -/
def malformed (i : Instr) (s : State) : Bool :=
  match exec i s with
  | .fault .malformed => true
  | _ => false

theorem test_malformed_beat : malformed (.fabReadData 0 0 .ok true true (zeros 127)) up = true := by decide +kernel
theorem test_malformed_stream_word :
    malformed (.streamWord { channel := 0, data := zeros 33, sof := true, len := 64, eof := false, validBytes := 0, trunc := false }) up = true := by
  decide +kernel
theorem test_malformed_flit : malformed (.flitReceived (zeros 255)) up = true := by decide +kernel
theorem test_malformed_start_unit :
    let u : UnitBist := { engsel := 20, result := { logicFail := false, memoryFail := false, katFail := false, rowsRepaired := 0 } }
    malformed (.coreResetRelease { scribeA := none, scribeB := none, control := none, units := [u], readback := [] }) State.reset = true := by decide +kernel
theorem test_malformed_drain_unit : malformed (.unitDrainEnd 0x10E) up = true := by decide +kernel
theorem test_malformed_rollover_unit : malformed (.microcodeRolloverUnit ⟨0x209, []⟩) up = true := by decide +kernel
theorem test_wellformed_units :
    engineCode 19 = true ∧ engineCode 0x10D = true ∧ engineCode 0x208 = true ∧ engineCode 0x0FF = false ∧ engineCode 0x1FF = false := by decide

/-! ### Single steps, with results from the spec -/

/-- The state after a command, where it gives one. -/
def after (i : Instr) (s : State) : State :=
  match exec i s with
  | .next t => t
  | _ => s

/-- No row of the table has bits. -/
theorem test_no_word_decodes : decodeTableWord 32 0 = none := rfl
theorem test_tick_counts : (match step { up with pending := [] } with
    | .next t => t.clk.now == 1
    | _ => false) = true := by decide +kernel
theorem test_queue_order : (match step { up with pending := [.aonXtalLoss, .aonXtalReturn] } with
    | .next t => t.pending == [.aonXtalReturn] && t.pins.xtalLost
    | _ => false) = true := by decide +kernel
/-- 14 R354: the policy of DEEPEST 2 and IDLE_US 10 is set. -/
theorem test_power_policy :
    let t := after .setPowerPolicy (cmd (pk 3 0xFFFF (leBytes 4 2 ++ leBytes 4 10)) up)
    t.pwr.deepest = 2 ∧ t.pwr.idleUs = 10 := by decide +kernel
/-- 06 R170: a port opens at its next generation. -/
theorem test_port_opens :
    let t := after .cpOpen (cmd (pk 0x0100 9 (leBytes 8 0x77 ++ leBytes 8 4096 ++ leBytes 8 4096)) base)
    (tget t.ports 9).any (fun p => p.isOpen && p.gen == 1 && p.sid == 0x77 && p.winBase == 4096) = true := by decide +kernel
/-- 04 R92: a doorbell sets the leaf, summary and top bits of its ring. -/
theorem test_doorbell_marks :
    let t := after (.doorbellDirectWrite 5 0 0x55 true 3) base
    tget t.skein.leaf 0 = some 0x100 ∧ tget t.skein.summary 0 = some 1 ∧ tget t.skein.top 0 = some 1 ∧ (tget t.rings 8).any (fun r => r.tail == 3) = true := by
  decide +kernel
/-- 02 R43: a doorbell with another stream ID is discarded and counted. -/
theorem test_doorbell_rejected :
    let t := after (.doorbellDirectWrite 5 0 0x56 true 3) base
    (tget t.ports 5).any (fun p => p.dbReject == 1) = true ∧ t.rings = base.rings := by decide +kernel
/-- 14 R365: on a lapse with a READY standby the baton goes to it at the next EPOCH. -/
theorem test_lapse_awards :
    let t := after .batonLapse { up with baton := setScribe 1 .ready (award 0 0 up.baton), clk := { up.clk with now := cyMs 1 } }
    t.baton.c0.owner = 1 ∧ t.baton.c0.epoch = 2 ∧ t.baton.a = .deposed := by decide +kernel
/-- 14 R365: with none the block goes fail-silent. -/
theorem test_lapse_fails_silent :
    (after .batonLapse { up with baton := award 0 0 up.baton, clk := { up.clk with now := cyMs 1 } }).pwr.failSilent = true := by decide +kernel
/-- 12 R315, Table 12-3: the third disagreement of a nib within its window makes it severe and asserts ERR_N. -/
theorem test_third_event_is_severe :
    let s2 := after (.faultEvent 0x006 1 0) (after (.faultEvent 0x006 1 0) up)
    let s3 := after (.faultEvent 0x006 1 0) s2
    (srcOf s2.flt 0x006).severe = false ∧ (srcOf s3.flt 0x006).severe = true ∧ s3.flt.err = true := by decide +kernel
/-- 12 R316: one message of a source waits at most; the others count in FLT_OVERFLOW. -/
theorem test_one_message_per_source :
    let s := after (.faultEvent 0x006 1 0) (after (.faultEvent 0x006 1 0) up)
    s.flt.queue.length = 1 ∧ s.flt.overflow = 1 := by decide +kernel
/-- 03 Table 3-1: a write of the upper half of CMD_ADMIN_BASE leaves the lower half. -/
theorem test_half_write :
    (after (.registerWrite (0x1000 / 8) .high 0xFFFFFFFFFFFFFFFF) up).cmd.adminBase = 0x00FFFFFF00000000 := by decide +kernel
/-- 10 R280: a read of RNG_DATA with no data reads 0 and sets UNDERRUN. -/
theorem test_random_underrun :
    let t := after (.rngDataRead .full) up
    t.regs.rdata = 0 ∧ t.rng.underrun = true := by decide +kernel
/-- 18 Table 18-1: in MANUFACTURE every TAP instruction is there; in FIELD BIST status gives BYPASS. -/
theorem test_tap_field :
    (after (.tapInstruction .bistStatus) up).pins.tapIr = .bistStatus
    ∧ (after (.tapInstruction .bistStatus) { up with fuse := { up.fuse with lifecycle := 2 } }).pins.tapIr = .bypass := by decide +kernel

/-! ### Hypotheses of the packet rows -/

theorem test_pk_header_sound : headerFault (pk 0x0505 0xFFFF (zeros 8)).bytes = none := by decide

theorem test_packet_not_running : running State.reset = false ∧ opcodeOf .nop = some 0 := by decide
theorem test_packet_read_failed :
    let e := { pk 0x0200 5 (zeros 16) with failure := some .accessFault }
    running (cmd e base) = true ∧ front (cmd e base) 0x0200 = some e ∧ e.failure = some .accessFault := by decide
theorem test_block_heads :
    Head 0x0000 (cmd (pk 0 0xFFFF []) up) (pk 0 0xFFFF []) ∧ Head 0x0001 (cmd (pk 1 5 []) base) (pk 1 5 [])
    ∧ Head 0x0002 (cmd (pk 2 0xFFFF (zeros 16)) up) (pk 2 0xFFFF (zeros 16))
    ∧ Head 0x0003 (cmd (pk 3 0xFFFF (leBytes 4 4 ++ leBytes 4 10)) up) (pk 3 0xFFFF (leBytes 4 4 ++ leBytes 4 10))
    ∧ Head 0x0003 (cmd (pk 3 0xFFFF (leBytes 4 2 ++ leBytes 4 10)) up) (pk 3 0xFFFF (leBytes 4 2 ++ leBytes 4 10)) := by decide
theorem test_handover_heads :
    let e := pk 4 0xFFFF []
    let s := { up with baton := setScribe 1 .ready (award 0 0 up.baton) }
    Head 0x0004 (cmd e up) e ∧ 2 ≤ batonOwner (cmd e up)
    ∧ Head 0x0004 (cmd e s) e ∧ batonOwner (cmd e s) = 0 ∧ scribeState s.baton 1 = .ready ∧ ∀ x ∈ (cmd e s).cmd.exec, x.started = true → x.cid = e.cid := by
  decide

theorem test_cp_open_heads :
    let e := pk 0x0100 9 (leBytes 8 0x77 ++ leBytes 8 4096 ++ leBytes 8 4096)
    let f := pk 0x0100 9 (leBytes 8 0x55 ++ leBytes 8 4096 ++ leBytes 8 4096)
    Head 0x0100 (cmd e base) e ∧ openFault (cmd e base) 9 0x77 4096 4096 = none
    ∧ Head 0x0100 (cmd f base) f ∧ openFault (cmd f base) 9 0x55 4096 4096 = some 16 := by decide
theorem test_port_heads :
    Head 0x0101 (cmd (pk 0x0101 5 []) base) (pk 0x0101 5 []) ∧ Head 0x0102 (cmd (pk 0x0102 5 (zeros 16)) base) (pk 0x0102 5 (zeros 16))
    ∧ Head 0x0103 (cmd (pk 0x0103 5 (zeros 32)) base) (pk 0x0103 5 (zeros 32)) ∧ Head 0x0104 (cmd (pk 0x0104 5 []) base) (pk 0x0104 5 []) := by decide

/-- A record of NVM key 9 and one of NVM key 1023 whose validity is over. -/
def stored : State :=
  { base with
    nvm := { base.nvm with keys := [{ id := 9, version := 2, complete := true, slot := { state := .valid, keyType := 3, owner := 5, matLen := 32, material := zeros 32 } },
      { id := 1023, version := 1, complete := true, slot := { state := .valid, keyType := 3, owner := 5, validUntil := 6, matLen := 32 } }] }
    ep := { base.ep with key := { base.ep.key with running := true, number := 7 } }
    rng := { base.rng with feeds := tmap base.rng.feeds (fun _ f => { f with state := .ready, reserve := true }) } }

theorem test_key_load_heads :
    let e := pk 0x0205 5 (leBytes 2 9)
    let r := pk 0x0205 5 (leBytes 2 1023)
    let n := pk 0x0205 5 (leBytes 2 8)
    (Head 0x0205 (cmd e stored) e ∧ ∃ k q, bestKeyRec stored.nvm 9 = some k ∧ k.slot.owner = 5 ∧ validityOver stored k.slot.validUntil = false
      ∧ installKey 5 k.slot.keyType k.slot.usage.toNat k.slot.validUntil (keyBytes k.slot) (atHand e (cmd e stored)) = some q)
    ∧ (Head 0x0205 (cmd r stored) r ∧ ∃ k, bestKeyRec stored.nvm 1023 = some k ∧ k.slot.owner = 5 ∧ validityOver stored k.slot.validUntil = true)
    ∧ (Head 0x0205 (cmd n stored) n ∧ bestKeyRec stored.nvm 8 = none) := by
  exact ⟨⟨by decide, _, _, rfl, rfl, by decide, rfl⟩, ⟨by decide, _, rfl, rfl, by decide⟩, by decide, by decide⟩
theorem test_key_load_other_owner :
    let e := { pk 0x0205 6 (leBytes 2 9) with port := 6 }
    Head 0x0205 (cmd e stored) e ∧ ∃ k, bestKeyRec stored.nvm 9 = some k ∧ k.slot.owner ≠ e.port := by
  exact ⟨by decide, _, rfl, by decide⟩
theorem test_key_generate_heads :
    let e := pk 0x0201 5 (leBytes 2 3 ++ leBytes 2 0x1FF ++ zeros 16)
    let f := pk 0x0201 5 (leBytes 2 3 ++ leBytes 2 0x200 ++ zeros 16)
    (Head 0x0201 (cmd e stored) e ∧ generateFault (cmd e stored) e = none ∧ par e 8 8 = 0
      ∧ ∃ q, installKey 5 3 0x1FF 0 (freeBytes stored 32) (atHand e (cmd e stored)) = some q)
    ∧ Head 0x0201 (cmd f stored) f ∧ generateFault (cmd f stored) f = some (.invalidField, 18) := by
  exact ⟨⟨by decide, by decide, by decide, _, rfl⟩, by decide, by decide⟩

/-- The header of a blob of an AES-256 key of port 5 (06 Table 6-3). -/
def blob : Bytes := leBytes 4 0x4B424C31 ++ [1, 3] ++ leBytes 2 3 ++ leBytes 2 5 ++ leBytes 2 32 ++ leBytes 4 0 ++ zeros 56

theorem test_key_import_heads :
    let e := pk 0x0200 5 (leBytes 8 4096 ++ leBytes 4 40)
    let f := pk 0x0200 5 (leBytes 8 4096 ++ leBytes 4 39)
    let g := pk 0x0200 5 (leBytes 8 4096 ++ leBytes 4 2056)
    let h := { pk 0x0200 5 (leBytes 8 4096 ++ leBytes 4 72) with readIssued := true, landed := [(0, zeros 72)] }
    (Head 0x0200 (cmd e base) e ∧ e.readIssued = false ∧ 40 ≤ par e 8 4 ∧ par e 8 4 ≤ 2048 ∧ par e 8 4 % 8 = 0 ∧ cmdSpanOk (cmd e base) e 4096 40 = true)
    ∧ (Head 0x0200 (cmd f base) f ∧ f.readIssued = false ∧ par f 8 4 < 40) ∧ (Head 0x0200 (cmd g base) g ∧ 2048 < par g 8 4)
    ∧ (Head 0x0200 (cmd h base) h ∧ blobFieldsOk (landed h) = false) := by decide
/-- Whether a blob opens is the answer of an opaque algorithm: both answers leave the other hypotheses as they are. -/
theorem test_key_import_blob :
    let e := { pk 0x0200 5 (leBytes 8 4096 ++ leBytes 4 72) with readIssued := true, landed := [(0, blob)] }
    Head 0x0200 (cmd e base) e ∧ e.readIssued = true ∧ blobFieldsOk (landed e) = true ∧ validityOver (cmd e base) (fld (landed e) 12 4) = false
    ∧ ∀ m, ∃ q, installKey 5 (fld (landed e) 5 1) (fld (landed e) 6 2) (fld (landed e) 12 4) m (atHand e (cmd e base)) = some q := by
  exact ⟨by decide, by decide, by decide, by decide, fun m => ⟨_, rfl⟩⟩

theorem test_key_export_heads :
    let e := pk 0x0202 5 (leBytes 4 0x8003 ++ leBytes 4 72 ++ leBytes 8 4096)
    let f := pk 0x0202 5 (leBytes 4 0x8004 ++ leBytes 4 72 ++ leBytes 8 4096)
    let b := { base with keys := { base.keys with slots := tmod base.keys.slots 3 (fun x => { x with usage := 0x1BF }) } }
    (Head 0x0202 (cmd e base) e ∧ injectedAt base.flt 0x0B0 0 = none ∧ keyStatus (cmd e base) 5 0x8003 = .ok ∧ usageHas (keyOf base 0x8003) 6 = true
      ∧ (slotOf base 3).spilled = false ∧ (slotOf base 3).ext = none ∧ blobLen 32 ≤ par e 4 4 ∧ cmdSpanOk base e 4096 (blobLen 32) = true)
    ∧ (Head 0x0202 (cmd f base) f ∧ keyStatus (cmd f base) 5 0x8004 ≠ .ok)
    ∧ (Head 0x0202 (cmd e b) e ∧ keyStatus (cmd e b) 5 0x8003 = .ok ∧ usageHas (keyOf b 0x8003) 6 = false) := by decide
theorem test_key_destroy_store_heads :
    let e := pk 0x0203 5 (leBytes 4 0x8004)
    let f := pk 0x0203 5 (leBytes 4 0)
    let g := pk 0x0204 5 (leBytes 4 0x8003 ++ leBytes 2 1023)
    let h := pk 0x0204 5 (leBytes 4 0x8004 ++ leBytes 2 0)
    (Head 0x0203 (cmd e base) e ∧ keyStatus base 5 0x8004 = .keyStale) ∧ (Head 0x0203 (cmd f base) f ∧ keyStatus base 5 0 = .keyRevoked)
    ∧ (Head 0x0204 (cmd g base) g ∧ keyStoreFault g (cmd g base) = none ∧ (slotOf base 3).spilled = false)
    ∧ (Head 0x0204 (cmd h base) h ∧ keyStoreFault h (cmd h base) = some (.keyStale, 0)) := by decide

theorem test_session_create_heads :
    let e := pk 0x0206 5 (leBytes 4 0x8003 ++ leBytes 2 0x10 ++ [4, 1] ++ zeros 16)
    let f := pk 0x0206 5 (leBytes 4 0x8004 ++ leBytes 2 0x10 ++ [4, 1] ++ zeros 16)
    (Head 0x0206 (cmd e stored) e ∧ injectedAt stored.flt 0x0B0 0 = none ∧ createFault (atHand e (cmd e stored)) (begun e) = none
      ∧ freeSession (atHand e (cmd e stored)) = some 1)
    ∧ Head 0x0206 (cmd f stored) f ∧ createFault (atHand f (cmd f stored)) (begun f) = some (.keyStale, 0) := by decide
theorem test_session_bind_heads :
    let e := pk 0x0207 5 (leBytes 4 0x400000 ++ leBytes 4 8 ++ [1])
    let f := pk 0x0207 5 (leBytes 4 0x400000 ++ leBytes 4 8 ++ [0])
    let n := pk 0x0207 5 (leBytes 4 0x800000 ++ leBytes 4 8 ++ [1])
    let g := fun l => { base with rings := [(8, ({ isCpl := false, port := 5, log2 := 4, base := 8192, gen := 2, bound := l } : Ring))] }
    let l := [0x400000]
    (Head 0x0207 (cmd e (g [])) e ∧ (sessionOf (g []) 5 0x400000).isSome = true ∧ ∃ r, tget (g []).rings 8 = some r ∧ r.port = 5 ∧ r.isCpl = false
      ∧ r.bound.contains 0x400000 = false ∧ ¬(r.gen = 1) ∧ r.bound.length < 8)
    ∧ (Head 0x0207 (cmd f (g l)) f ∧ par f 8 1 = 0 ∧ ∃ r, tget (g l).rings 8 = some r ∧ r.bound.contains 0x400000 = true)
    ∧ (Head 0x0207 (cmd n base) n ∧ sessionOf base 5 0x800000 = none) := by
  exact ⟨⟨by decide, by decide, _, rfl, by decide⟩, ⟨by decide, by decide, _, rfl, by decide⟩, by decide⟩
theorem test_session_close_query_heads :
    let e := pk 0x0208 5 (leBytes 4 0x400000)
    let f := pk 0x0208 5 (leBytes 4 0x400001)
    let g := pk 0x0209 5 (leBytes 4 0x400000)
    let h := pk 0x0209 5 (leBytes 4 0)
    (Head 0x0208 (cmd e base) e ∧ (sessionOf base 5 0x400000).isSome = true) ∧ (Head 0x0208 (cmd f base) f ∧ sessionOf base 5 0x400001 = none)
    ∧ (Head 0x0209 (cmd g base) g ∧ (sessionOf base 5 0x400000).any (fun r => r.cached) = true)
    ∧ (Head 0x0209 (cmd h base) h ∧ sessionOf base 5 0 = none) := by decide

theorem test_ring_create_heads :
    let p := fun (id log2 urgent cpl : Nat) => pk 0x0300 5 (leBytes 4 id ++ [1] ++ leBytes 1 log2 ++ leBytes 1 urgent ++ [0] ++ leBytes 8 4096 ++ leBytes 4 cpl)
    let c := fun (id log2 : Nat) => pk 0x0301 5 (leBytes 4 id ++ leBytes 4 log2 ++ leBytes 8 4096)
    let full := { base with ports := tmod base.ports 5 (fun x => { x with ringsMax := 2 }) }
    (Head 0x0300 (cmd (p 0xFFFFF 16 1 7) base) (p 0xFFFFF 16 1 7) ∧ tget base.rings 0xFFFFF = none
      ∧ (tget base.rings 7).any (fun r => r.isCpl && r.port == 5) = true ∧ (tgetD base.ports 5 {}).pflags.getLsbD 0 = true ∧ urgentRings base < 512
      ∧ inWindow (tgetD base.ports 5 {}) 4096 (entrySize 1 * 2 ^ 16) = true ∧ ringsFull base 5 = false)
    ∧ (Head 0x0300 (cmd (p 8 4 0 7) base) (p 8 4 0 7) ∧ tget base.rings 8 ≠ none)
    ∧ (Head 0x0300 (cmd (p 9 4 0 10) base) (p 9 4 0 10) ∧ tget base.rings 9 = none ∧ tget base.rings 10 = none)
    ∧ (Head 0x0301 (cmd (c 0 16) base) (c 0 16) ∧ tget base.rings 0 = none ∧ inWindow (tgetD base.ports 5 {}) 4096 (16 * 2 ^ 16) = true)
    ∧ (Head 0x0301 (cmd (c 7 4) base) (c 7 4) ∧ tget base.rings 7 ≠ none)
    ∧ (Head 0x0301 (cmd (c 9 4) full) (c 9 4) ∧ ringsFull full 5 = true) := by decide
theorem test_cpl_ring_outside_window :
    let c := pk 0x0301 5 (leBytes 4 9 ++ leBytes 4 4 ++ leBytes 8 (2 ^ 40 - 128))
    Head 0x0301 (cmd c base) c ∧ tget base.rings 9 = none ∧ inWindow (tgetD base.ports 5 {}) (2 ^ 40 - 128) (16 * 2 ^ 4) = false := by decide
theorem test_ring_heads :
    let q := fun (op id x : Nat) => pk op 5 (leBytes 4 id ++ leBytes 4 x)
    let alone := { base with rings := base.rings.take 1 }
    (Head 0x0302 (cmd (q 0x0302 8 0) base) (q 0x0302 8 0) ∧ (ownRing (cmd (q 0x0302 8 0) base) (q 0x0302 8 0)).isSome = true)
    ∧ (Head 0x0302 (cmd (q 0x0302 7 0) alone) (q 0x0302 7 0) ∧ ringNamed (cmd (q 0x0302 7 0) alone) 7 = false)
    ∧ (Head 0x0302 (cmd (q 0x0302 7 0) base) (q 0x0302 7 0) ∧ ringNamed (cmd (q 0x0302 7 0) base) 7 = true)
    ∧ (Head 0x0302 (cmd (q 0x0302 9 0) base) (q 0x0302 9 0) ∧ ownRing (cmd (q 0x0302 9 0) base) (q 0x0302 9 0) = none)
    := by decide
theorem test_ring_restart_heads :
    let q := fun (op id x : Nat) => pk op 5 (leBytes 4 id ++ leBytes 4 x)
    let stop := { base with rings := tmap base.rings (fun _ r => { r with stopped := true }) }
    (Head 0x0303 (cmd (q 0x0303 8 15) stop) (q 0x0303 8 15) ∧ (ownRing (cmd (q 0x0303 8 15) stop) (q 0x0303 8 15)).any (fun r => r.stopped && decide (15 < 2 ^ r.log2)))
    ∧ (Head 0x0303 (cmd (q 0x0303 8 16) base) (q 0x0303 8 16) ∧ (ownRing (cmd (q 0x0303 8 16) base) (q 0x0303 8 16)).any (fun r => decide (2 ^ r.log2 ≤ 16)))
    ∧ (Head 0x0303 (cmd (q 0x0303 8 15) base) (q 0x0303 8 15) ∧ (ownRing (cmd (q 0x0303 8 15) base) (q 0x0303 8 15)).any (fun r => !r.stopped))
    ∧ (Head 0x0303 (cmd (q 0x0303 9 0) base) (q 0x0303 9 0) ∧ ownRing (cmd (q 0x0303 9 0) base) (q 0x0303 9 0) = none)
    ∧ (Head 0x0304 (cmd (q 0x0304 7 1) base) (q 0x0304 7 1) ∧ (ownRing (cmd (q 0x0304 7 1) base) (q 0x0304 7 1)).any (fun r => r.isCpl))
    ∧ (Head 0x0304 (cmd (q 0x0304 8 1) base) (q 0x0304 8 1) ∧ (ownRing (cmd (q 0x0304 8 1) base) (q 0x0304 8 1)).any (fun r => !r.isCpl))
    ∧ (Head 0x0304 (cmd (q 0x0304 9 1) base) (q 0x0304 9 1) ∧ ownRing (cmd (q 0x0304 9 1) base) (q 0x0304 9 1) = none)
    ∧ (Head 0x0305 (cmd (q 0x0305 8 0) base) (q 0x0305 8 0) ∧ Head 0x0305 (cmd (q 0x0305 9 0) base) (q 0x0305 9 0)) := by decide

/-- Channel 63 is open for port 5; frame 0 of channel 62 is being discarded. -/
def streams : State :=
  let t := tmod base.chans 63 (fun c => { c with isOpen := true, xoff := false, owner := 5, session := 0x400000, hwm := 64, cpl := 7 })
  { base with chans := tmod t 62 (fun c => { c with isOpen := true, owner := 5, frames := [{ number := 0, len := 64, words := 1, discard := true }] }) }

theorem test_stream_open_heads :
    let p := fun (ch sess hwm : Nat) => pk 0x0400 5 (leBytes 1 ch ++ [0, 0, 0] ++ leBytes 4 sess ++ leBytes 4 hwm ++ leBytes 4 0 ++ leBytes 4 7)
    let s := { base with keys := { base.keys with sessions := tmap base.keys.sessions (fun _ r => { r with mode := 5 }) } }
    (Head 0x0400 (cmd (p 63 0x400000 65536) s) (p 63 0x400000 65536)
      ∧ streamOpenFault (cmd (p 63 0x400000 65536) s) (p 63 0x400000 65536) (chanOf s 63) = none)
    ∧ (Head 0x0400 (cmd (p 0 0x400000 1000) s) (p 0 0x400000 1000)
      ∧ streamOpenFault (cmd (p 0 0x400000 1000) s) (p 0 0x400000 1000) (chanOf s 0) = some (.invalidField, 24)) := by decide
theorem test_stream_heads :
    let q := fun (op ch : Nat) => pk op 5 (leBytes 4 ch ++ leBytes 4 10000 ++ leBytes 4 5000 ++ leBytes 4 5000 ++ leBytes 8 0)
    let w := fun (cycle openNs : Nat) => pk 0x0403 5 (leBytes 4 63 ++ leBytes 4 cycle ++ leBytes 4 openNs ++ leBytes 4 5000 ++ leBytes 8 0)
    (Head 0x0401 (cmd (q 0x0401 63) streams) (q 0x0401 63) ∧ ownChan (cmd (q 0x0401 63) streams) (q 0x0401 63) = true)
    ∧ (Head 0x0401 (cmd (q 0x0401 0) streams) (q 0x0401 0) ∧ ownChan (cmd (q 0x0401 0) streams) (q 0x0401 0) = false)
    ∧ (Head 0x0402 (cmd (q 0x0402 0) streams) (q 0x0402 0) ∧ ownChan (cmd (q 0x0402 0) streams) (q 0x0402 0) = false)
    ∧ (Head 0x0402 (cmd (q 0x0402 63) streams) (q 0x0402 63) ∧ currentFrame (cmd (q 0x0402 63) streams) (chanOf streams 63) = none)
    ∧ (Head 0x0402 (cmd (q 0x0402 62) streams) (q 0x0402 62) ∧ (currentFrame (cmd (q 0x0402 62) streams) (chanOf streams 62)).any (fun x =>
        !frameAlive (cmd (q 0x0402 62) streams) x) = true)
    ∧ (Head 0x0403 (cmd (q 0x0403 0) streams) (q 0x0403 0) ∧ ownChan (cmd (q 0x0403 0) streams) (q 0x0403 0) = false)
    ∧ (Head 0x0403 (cmd (w 9999 0) streams) (w 9999 0) ∧ ownChan (cmd (w 9999 0) streams) (w 9999 0) = true)
    ∧ Head 0x0403 (cmd (w 10000 5001) streams) (w 10000 5001) ∧ Head 0x0403 (cmd (w 10000 5000) streams) (w 10000 5000) := by decide

theorem test_time_heads :
    let q := fun (kind len base log2 : Nat) => pk 0x0406 0xFFFF (leBytes 8 kind ++ leBytes 8 len ++ leBytes 8 base ++ leBytes 4 log2)
    let run := { up with ep := { up.ep with acct := { up.ep.acct with running := true }, key := { up.ep.key with running := true } } }
    Head 0x0404 (cmd (pk 0x0404 5 []) base) (pk 0x0404 5 [])
    ∧ Head 0x0405 (cmd (pk 0x0405 0xFFFF (leBytes 4 3 ++ leBytes 4 100)) up) (pk 0x0405 0xFFFF (leBytes 4 3 ++ leBytes 4 100))
    ∧ (Head 0x0406 (cmd (q 0 999 0 10) up) (q 0 999 0 10) ∧ scheduleFault 0 999 0 10 = some 24)
    ∧ (Head 0x0406 (cmd (q 0 1000 64 20) run) (q 0 1000 64 20) ∧ scheduleFault 0 1000 64 20 = none ∧ run.ep.acct.running = true)
    ∧ (Head 0x0406 (cmd (q 1 3600000 0 0) run) (q 1 3600000 0 0) ∧ scheduleFault 1 3600000 0 0 = none ∧ run.ep.key.running = true)
    ∧ (Head 0x0406 (cmd (q 0 2592000000 0 10) up) (q 0 2592000000 0 10) ∧ scheduleFault 0 2592000000 0 10 = none ∧ up.ep.acct.running = false) := by
  decide

/-- Source 0x006 is severe and unacknowledged, with its reaction timer running; source 0x047's cell has failed for good. -/
def severe : State :=
  { up with
    flt := { up.flt with err := true, sources := [(0x006, { sticky := true, severe := true, timer := some 9 })] }
    rng := { up.rng with cells := tmod up.rng.cells 7 (fun c => { c with state := .failed }) } }

theorem test_fault_heads :
    let q := fun (src ck n : Nat) => pk 0x0505 0xFFFF (leBytes 2 src ++ leBytes 2 ck ++ leBytes 4 n)
    let c := fun (src : Nat) => pk 0x0503 0xFFFF (leBytes 4 src)
    Head 0x0500 (cmd (pk 0x0500 0xFFFF (leBytes 2 13 ++ leBytes 2 1 ++ leBytes 4 1)) up) (pk 0x0500 0xFFFF (leBytes 2 13 ++ leBytes 2 1 ++ leBytes 4 1))
    ∧ Head 0x0501 (cmd (pk 0x0501 0xFFFF (leBytes 4 10 ++ leBytes 4 1)) up) (pk 0x0501 0xFFFF (leBytes 4 10 ++ leBytes 4 1))
    ∧ (Head 0x0503 (cmd (c 6) severe) (c 6) ∧ causePresent (cmd (c 6) severe) 6 = true)
    ∧ (Head 0x0503 (cmd (c 5) severe) (c 5) ∧ causePresent (cmd (c 5) severe) 5 = false)
    ∧ (Head 0x0505 (cmd (q 0x0A0 0 1) up) (q 0x0A0 0 1) ∧ checkerListed 0x0A0 0 = false)
    ∧ (Head 0x0505 (cmd (q 0x0B0 0 0x80000000) up) (q 0x0B0 0 0x80000000) ∧ checkerListed 0x0B0 0 = true)
    ∧ (Head 0x0505 (cmd (q 0x047 4 1) severe) (q 0x047 4 1) ∧ checkerListed 0x047 4 = true ∧ (tgetD severe.rng.cells 7 {}).state = .failed)
    ∧ (Head 0x0505 (cmd (q 0x006 0 0xFFFFFFFF) up) (q 0x006 0 0xFFFFFFFF) ∧ checkerListed 0x006 0 = true) := by decide
theorem test_flt_ack_heads :
    let a := fun (src : Nat) => pk 0x0502 0xFFFF (leBytes 4 src)
    (Head 0x0502 (cmd (a 6) severe) (a 6) ∧ (srcOf severe.flt 6).severe = true ∧ (srcOf severe.flt 6).acked = false)
    ∧ (Head 0x0502 (cmd (a 7) severe) (a 7) ∧ (srcOf severe.flt 7).severe = false) := by decide
theorem test_flt_release_heads :
    let e := pk 0x0504 0xFFFF []
    let w := { up with flt := { up.flt with err := true, widthRunning := true } }
    (Head 0x0504 (cmd e severe) e ∧ ∃ x ∈ (cmd e severe).flt.sources, x.2.severe = true ∧ x.2.acked = false)
    ∧ (Head 0x0504 (cmd e up) e ∧ unacked up.flt = 0 ∧ up.flt.widthRunning = false)
    ∧ (Head 0x0504 (cmd e w) e ∧ unacked w.flt = 0 ∧ w.flt.widthRunning = true)
    ∧ (enterFailSilent 1 up).pwr.failSilent = true := by decide

theorem test_darning_heads :
    let q := fun (op c : Nat) => pk op 0xFFFF (leBytes 4 c)
    let w := fun (per en : Nat) => pk 0x0508 0xFFFF (leBytes 4 per ++ leBytes 4 en)
    let gone := { up with eng := modUnit 0x208 (fun u => { u with role := .retired }) up.eng }
    (Head 0x0506 (cmd (q 0x0506 0x208) gone) (q 0x0506 0x208) ∧ roleGone (unitOf gone 0x208).role = true)
    ∧ (Head 0x0506 (cmd (q 0x0506 9) up) (q 0x0506 9) ∧ (unitOf up 9).role = .spare ∧ kindBusy up 0 = false ∧ up.darn.test.any (fun t => t.unit == 9) = false)
    ∧ (Head 0x0506 (cmd (q 0x0506 0x10B) up) (q 0x0506 0x10B) ∧ (unitOf up 0x10B).role = .active ∧ kindBusy up 1 = false ∧ floorForbids up 0x10B = false)
    ∧ (Head 0x0507 (cmd (q 0x0507 0x10D) up) (q 0x0507 0x10D) ∧ (unitOf up 0x10D).role = .spare ∧ kindBusy up 1 = false)
    ∧ (Head 0x0507 (cmd (q 0x0507 0) up) (q 0x0507 0) ∧ (unitOf up 0).role = .active ∧ kindBusy up 0 = false ∧ floorForbids up 0 = false)
    ∧ Head 0x0508 (cmd (w 10 1) up) (w 10 1) ∧ Head 0x0508 (cmd (w 3600 0) up) (w 3600 0)
    ∧ Head 0x0509 (cmd (pk 0x0509 0xFFFF (leBytes 8 511)) up) (pk 0x0509 0xFFFF (leBytes 8 511)) ∧ rowFault (pk 0x0509 0xFFFF (leBytes 8 511)) up = some (.invalidField, 16) := by
  decide
theorem test_floor_heads :
    let q := fun (op c : Nat) => pk op 0xFFFF (leBytes 4 c)
    let s := { up with eng := modUnit 0x208 (fun u => { u with role := .retired }) up.eng, darn := { up.darn with floorHook := 8 } }
    (Head 0x0506 (cmd (q 0x0506 0x207) s) (q 0x0506 0x207) ∧ floorForbids s 0x207 = true)
    ∧ (Head 0x0507 (cmd (q 0x0507 0x207) s) (q 0x0507 0x207) ∧ floorForbids s 0x207 = true) := by decide
/-- The number of rows of an array is opaque; the arrays that exist and a spare row are what a copy needs beside it. -/
theorem test_row_repair_starts :
    let e := pk 0x0509 0xFFFF (leBytes 4 0 ++ leBytes 4 0)
    Head 0x0509 (cmd e up) e ∧ (0 < Config.arrayRows 0 → rowFault e up = none) := by
  refine ⟨by decide, fun h => ?_⟩
  let e := pk 0x0509 0xFFFF (leBytes 4 0 ++ leBytes 4 0)
  have h1 : par e 0 2 = 0 := by decide
  have h2 : par e 4 4 = 0 := by decide
  have h3 : sparesLeft up 0 ≠ 0 := by decide
  have h4 : arrayPresent up.pins.formL 0 = true := by decide
  show rowFault e up = none
  unfold rowFault
  simp only [h1, h2, h3, h4]
  have : ¬ Config.arrayRows 0 ≤ 0 := by omega
  simp [this]

theorem test_settings_heads :
    let q := fun (op id : Nat) => pk op 0xFFFF (leBytes 4 id)
    let l := fun (n : Nat) => pk 0x0601 0xFFFF (leBytes 8 4096 ++ leBytes 4 n)
    Head 0x0602 (cmd (q 0x0602 0) up) (q 0x0602 0)
    ∧ (Head 0x0603 (cmd (q 0x0603 0x013F) up) (q 0x0603 0x013F) ∧ counterKnown 0x013F = true)
    ∧ (Head 0x0603 (cmd (q 0x0603 0x0140) up) (q 0x0603 0x0140) ∧ counterKnown 0x0140 = false)
    ∧ Head 0x0600 (cmd (q 0x0600 0) up) (q 0x0600 0)
    ∧ (Head 0x0604 (cmd (q 0x0604 0x0100) up) (q 0x0604 0x0100) ∧ counterFault (q 0x0604 0x0100) up = none)
    ∧ (Head 0x0604 (cmd (q 0x0604 0x00FF) up) (q 0x0604 0x00FF) ∧ counterFault (q 0x0604 0x00FF) up = some (.notPermitted, 0))
    ∧ (Head 0x0601 (cmd (l 0) up) (l 0) ∧ Head 0x0601 (cmd (l 65537) up) (l 65537)) ∧ (Head 0x0601 (cmd (l 65536) up) (l 65536) ∧ (l 65536).readIssued = false) := by
  decide

/-- A transfer of 3 chunks and 8,256 bytes under way, chunk 0 landed. -/
def transfer : State := { up with fw := { up.fw with state := .transfer, beginLen := 8256, beginChunks := 3 }, cmd := { up.cmd with token := some { opcode := fwToken, holder := none } } }

theorem test_fw_begin_heads :
    let q := fun (len n : Nat) => pk 0x0700 0xFFFF (leBytes 4 len ++ leBytes 4 n)
    (Head 0x0700 (cmd (q 8256 3) up) (q 8256 3) ∧ fwBeginFault (q 8256 3) up = none)
    ∧ (Head 0x0700 (cmd (q 8255 3) up) (q 8255 3) ∧ fwBeginFault (q 8255 3) up = some (.invalidField, 16))
    ∧ (Head 0x0700 (cmd (q 8256 3) transfer) (q 8256 3) ∧ fwBeginFault (q 8256 3) transfer = some (.notPermitted, 0)) := by decide
theorem test_fw_chunk_heads :
    let q := pk 0x0701 0xFFFF (leBytes 4 0 ++ leBytes 4 4096 ++ leBytes 8 4096)
    let e := { q with readIssued := true, landed := [(0, [1])] }
    (Head 0x0701 (cmd q transfer) q ∧ transfer.fw.state = .transfer ∧ par q 0 4 = nextChunk transfer.fw ∧ par q 0 4 < 3
      ∧ par q 4 4 = chunkLen 8256 3 0 ∧ q.readIssued = false)
    ∧ (Head 0x0701 (cmd e transfer) e ∧ ∃ f, takeChunk (atHand e (cmd e transfer)) 0 (landed e) = .inr (f, [])) := by
  exact ⟨by decide, by decide, _, rfl⟩
/-- Whether the manifest of chunk 1 verifies is the answer of opaque algorithms; where it does, chunk 1 is taken with its NVM work. -/
theorem test_fw_chunk_work :
    let s := { transfer with fw := { transfer.fw with staging := [(0, [])] } }
    let e := { pk 0x0701 0xFFFF (leBytes 4 1 ++ leBytes 4 4096 ++ leBytes 8 4096) with readIssued := true }
    Head 0x0701 (cmd e s) e ∧ par e 0 4 = nextChunk s.fw ∧ par e 0 4 < 3 ∧ par e 4 4 = chunkLen 8256 3 1 := by decide
theorem test_fw_end_abort_heads :
    let st := { up with fw := { up.fw with state := .staged, beginLen := 8256, beginChunks := 3, chunksDone := 3 } }
    Head 0x0702 (cmd (pk 0x0702 0xFFFF []) st) (pk 0x0702 0xFFFF []) ∧ st.fw.chunksDone = st.fw.beginChunks
    ∧ (Head 0x0706 (cmd (pk 0x0706 0xFFFF []) transfer) (pk 0x0706 0xFFFF []) ∧ transfer.fw.relay = false) ∧ Head 0x0706 (cmd (pk 0x0706 0xFFFF []) up) (pk 0x0706 0xFFFF [])
    ∧ Head 0x0703 (cmd (pk 0x0703 0xFFFF []) st) (pk 0x0703 0xFFFF []) ∧ Head 0x0703 (cmd (pk 0x0703 0xFFFF []) up) (pk 0x0703 0xFFFF []) := by decide
theorem test_fw_end_image :
    let st := { up with fw := { up.fw with state := .staged, beginLen := 8256, beginChunks := 3, chunksDone := 3 } }
    imageFault (atHand (pk 0x0702 0xFFFF []) (cmd (pk 0x0702 0xFFFF []) st)) = none := by decide
theorem test_activate_at_heads :
    let st := { up with fw := { up.fw with state := .staged } }
    let q := fun (sec ns : Nat) => pk 0x0704 0xFFFF (leBytes 8 sec ++ leBytes 4 ns)
    Head 0x0704 (cmd (q 604800 0) st) (q 604800 0) ∧ Head 0x0704 (cmd (q 604800 1) st) (q 604800 1) ∧ Head 0x0704 (cmd (q 0 0) st) (q 0 0)
    ∧ Head 0x0704 (cmd (q 0 0) up) (q 0 0) ∧ gNs st = 0 := by decide
theorem test_confirm_relay_heads :
    let p := { up with fw := { up.fw with state := .probation, selfPass := true, rollDone := true } }
    let r := fun (n : Nat) => pk 0x0707 0xFFFF (leBytes 8 4096 ++ leBytes 4 n ++ leBytes 4 0 ++ leBytes 8 8192 ++ leBytes 4 4096)
    let b := leBytes 4 0x4B524C31 ++ [1, 63, 0, 0] ++ leBytes 4 1 ++ zeros 20
    let e := { r 32 with readIssued := true, landed := [(0, b)] }
    Head 0x0705 (cmd (pk 0x0705 0xFFFF []) up) (pk 0x0705 0xFFFF []) ∧ Head 0x0705 (cmd (pk 0x0705 0xFFFF []) p) (pk 0x0705 0xFFFF [])
    ∧ Head 0x0707 (cmd (r 32) up) (r 32) ∧ Head 0x0707 (cmd (r 4128) up) (r 4128)
    ∧ (Head 0x0707 (cmd e up) e ∧ e.phase ≠ 3 ∧ fld (landed e) 16 4 + 32 = 32 ∧ relayFormOk (landed e) = true ∧ relayOutLen (landed e) ≤ 4096
      ∧ relayKind (landed e) = 1) := by decide

/-- A slot whose card is in a state, with an identity block that gives a capacity of 3,072 blocks and the features named. -/
def card (st : CardState) (features : Byte) : State :=
  { stored with fol := { stored.fol with seated := true, power := true, state := st, ident := zeros 4 ++ leBytes 4 3072 ++ [0, 0, 0, features] ++ zeros 20 } }

theorem test_card_heads :
    let q := fun (op : Nat) => pk op 0xFFFF (leBytes 1 16 ++ zeros 16 ++ [1] ++ zeros 22)
    let w := fun (on : Nat) => pk 0x0806 0xFFFF (leBytes 8 on)
    Head 0x0800 (cmd (pk 0x0800 0xFFFF []) up) (pk 0x0800 0xFFFF [])
    ∧ Head 0x0806 (cmd (w 0) up) (w 0) ∧ (Head 0x0806 (cmd (w 1) up) (w 1) ∧ up.fol.seated = false) ∧ Head 0x0806 (cmd (w 1) (card .ready 0)) (w 1)
    ∧ (Head 0x0801 (cmd (q 0x0801) up) (q 0x0801) ∧ cardBusy up.fol = false ∧ slotFault true up = some (.cardAbsent, 0))
    ∧ (Head 0x0801 (cmd (q 0x0801) (card .locked 3)) (q 0x0801) ∧ cardBusy (card .locked 3).fol = false ∧ slotFault true (card .locked 3) = none)
    ∧ (Head 0x0802 (cmd (q 0x0802) (card .ready 1)) (q 0x0802) ∧ slotFault true (card .ready 1) = none ∧ passwordFault (card .ready 1) = none)
    ∧ Head 0x0803 (cmd (q 0x0803) (card .locked 3)) (q 0x0803) := by decide
theorem test_archive_heads :
    let r := fun (n : Nat) => pk 0x0805 0xFFFF (leBytes 8 4096 ++ leBytes 4 n)
    let s := { card .ready 0 with id := { stored.id with prov := [(0, zeros 2109 ++ [1])] } }
    Head 0x0804 (cmd (pk 0x0804 0xFFFF []) s) (pk 0x0804 0xFFFF []) ∧ slotFault false s = none ∧ archiveFault s = none
    ∧ Head 0x0805 (cmd (r 16385) s) (r 16385) ∧ (Head 0x0805 (cmd (r 0) s) (r 0) ∧ cardBusy s.fol = false ∧ 3072 ≤ idCapacity s.fol) := by
  decide +kernel

/-- Session 0 is a Hook session and holds windows 0 and 1. -/
def leased : State :=
  let k := { stored.keys with sessions := tmap stored.keys.sessions (fun _ r => { r with alg := 0x31, mode := 0 }) }
  { stored with keys := k, eng := { stored.eng with leases := [(0, { session := 0x400000, port := 5, hook := 0x200, windows := [0, 1] })] } }

theorem test_window_heads :
    let l := pk 0x0900 5 (leBytes 4 0x400000 ++ leBytes 4 8)
    let s := { leased with ports := tmap leased.ports (fun _ p => { p with pflags := 0 }) }
    (Head 0x0900 (cmd l leased) l ∧ (sessionOf leased 5 0x400000).any (fun r => isHook r.alg) = true ∧ (leaseHook leased).isSome = true
      ∧ (leaseHook leased).all (fun c => decide (8 ≤ hookFree leased c)) = true ∧ ((freeLogical leased).take 8).length = 8
      ∧ overMax (tgetD leased.ports 5 {}).winMax (portWindows leased 5) 8 = false)
    ∧ (Head 0x0900 (cmd l s) l ∧ (tgetD s.ports 5 {}).pflags.getLsbD 2 = false) := by
  decide +kernel
theorem test_window_release_heads :
    let q := fun (op w : Nat) => pk op 5 (leBytes 8 w)
    (Head 0x0901 (cmd (q 0x0901 512) leased) (q 0x0901 512) ∧ ∃ l, leaseHolding leased 5 512 = some (512 % 512, l))
    ∧ (Head 0x0901 (cmd (q 0x0901 514) leased) (q 0x0901 514) ∧ leaseHolding leased 5 514 = none)
    ∧ (Head 0x0901 (cmd (q 0x0901 513) leased) (q 0x0901 513) ∧ ∃ l, leaseHolding leased 5 513 = some (0, l) ∧ (0 ≠ 513 % 512))
    ∧ Head 0x0902 (cmd (q 0x0902 512) leased) (q 0x0902 512) ∧ Head 0x0902 (cmd (q 0x0902 0) leased) (q 0x0902 0) ∧ leaseHolding leased 5 0 = none
    ∧ Head 0x0903 (cmd (q 0x0903 513) leased) (q 0x0903 513) ∧ Head 0x0903 (cmd (q 0x0903 1023) leased) (q 0x0903 1023) := by
  exact ⟨⟨by decide, _, rfl⟩, by decide, ⟨by decide, _, rfl, by decide⟩, by decide, by decide, by decide, by decide, by decide⟩

theorem test_random_heads :
    let q := pk 0x0A01 0xFFFF []
    let f := fun (a n : Nat) => pk 0x0A00 5 (leBytes 8 a ++ leBytes 4 n)
    let d := { f 0 65536 with phase := 2, work := [0] }
    Head 0x0A02 (cmd (pk 0x0A02 5 []) base) (pk 0x0A02 5 [])
    ∧ (Head 0x0A01 (cmd q stored) q ∧ (List.range 8).all (fun i => (tgetD stored.rng.feeds i {}).reserve) = true) ∧ Head 0x0A01 (cmd q up) q
    ∧ (Head 0x0A00 (cmd (f (2 ^ 40) 1) base) (f (2 ^ 40) 1) ∧ inWindow (tgetD base.ports 5 {}) (2 ^ 40) 1 = false)
    ∧ (Head 0x0A00 (cmd (f 0 65536) base) (f 0 65536) ∧ cmdSpanOk (cmd (f 0 65536) base) (f 0 65536) 0 65536 = true ∧ feedReady base 6 = false)
    ∧ (Head 0x0A00 (cmd (f 0 1) stored) (f 0 1) ∧ feedReady stored 6 = true ∧ (tgetD stored.rng.feeds 6 {}).reserve = true)
    ∧ (Head 0x0A00 (cmd d stored) d ∧ d.work.headD 0 ≤ stored.clk.now) := by decide

/-- An identity operation at hand: source and destination lengths as given. -/
def idop (op srcLen destLen : Nat) : CmdEntry :=
  { cid := 1, via := .idop, opcode := 0x10000 + op, port := 0xFFFF, bytes := zeros 16 ++ zeros 8 ++ leBytes 4 srcLen ++ zeros 12 ++ leBytes 4 destLen }

/-- The block in a lifecycle state. -/
def inState (n : Nat) : State := { stored with fuse := { stored.fuse with lifecycle := n } }

theorem test_identity_heads :
    (Head 0x10001 (cmd (idop 1 0 5541) (inState 4)) (idop 1 0 5541) ∧ (inState 4).fuse.lifecycle ∈ [1, 2, 3, 4] ∧ par (idop 1 0 5541) 24 4 = 5541)
    ∧ Head 0x10001 (cmd (idop 1 0 5540) (inState 4)) (idop 1 0 5540) ∧ Head 0x10001 (cmd (idop 1 0 5541) (inState 0)) (idop 1 0 5541)
    ∧ Head 0x10002 (cmd (idop 2 32 3621) (inState 2)) (idop 2 32 3621) ∧ Head 0x10004 (cmd (idop 4 7181 0) (inState 1)) (idop 4 7181 0)
    ∧ Head 0x10005 (cmd (idop 5 3541 0) (inState 2)) (idop 5 3541 0) := by decide
/-- Signatures are the answers of opaque algorithms; what each operation needs beside them is met. -/
theorem test_identity_execution :
    let r := fun (op n m : Nat) => ({ idop op n m with readIssued := true, landed := [(0, zeros n)] } : CmdEntry)
    (Head 0x10002 (cmd (r 2 32 3621) (inState 2)) (r 2 32 3621) ∧ feedReady (inState 2) 7 = true
      ∧ (bookHook signCycles (atHand (r 2 32 3621) (cmd (r 2 32 3621) (inState 2)))).isSome = true)
    ∧ Head 0x10003 (cmd (idop 3 0 5133) (inState 2)) (idop 3 0 5133)
    ∧ (bookHook signCycles (atHand (idop 3 0 5133) (cmd (idop 3 0 5133) (inState 2)))).isSome = true := by decide
theorem test_identity_stores :
    let r := fun (op n : Nat) => ({ idop op n 0 with readIssued := true, landed := [(0, [9])] } : CmdEntry)
    let p := { inState 1 with id := { stored.id with prov := [(0, [9])] } }
    (Head 0x10004 (cmd (r 4 7181) p) (r 4 7181) ∧ provBundle p = some (landed (r 4 7181)))
    ∧ (Head 0x10004 (cmd (r 4 7181) (inState 1)) (r 4 7181) ∧ provBundle (inState 1) ≠ some (landed (r 4 7181))
      ∧ (bookHook verifyCycles (atHand (r 4 7181) (cmd (r 4 7181) (inState 1)))).isSome = true)
    ∧ (Head 0x10005 (cmd (r 5 3541) (inState 2)) (r 5 3541) ∧ pairCert (inState 2) ≠ some (landed (r 5 3541)))
    ∧ (Head 0x10006 (cmd (r 6 3469) (inState 3)) (r 6 3469) ∧ lifecyclePath 3 4 = true) := by decide +kernel

/-! ### Hypotheses of the event rows: resets, fabric, registers, doorbells, the control path -/

theorem test_reset_conditions :
    (up.pins.powered = true ∧ up.pins.coreInReset = false ∧ up.pins.pllLost = false ∧ up.pins.xtalLost = false ∧ up.pins.nvmLow = false)
    ∧ (State.reset.pins.powered = true ∧ State.reset.pins.coreInReset = true)
    ∧ (let s := { up with keys := { up.keys with carveEn := true, carveInit := true } }
       coreOn s = true ∧ 5 ≤ s.pwr.stage ∧ s.keys.carveEn = true ∧ s.keys.carveInit = true)
    ∧ (let s := { up with pins := { up.pins with nvmLow := true }, clk := { up.clk with now := cyMs 1000 } }
       s.pins.powered = true ∧ s.pins.nvmLow = true ∧ s.nvm.lowSince + cyMs 1000 ≤ s.clk.now) := by decide

/-- Port 3 has a read of 256 bytes outstanding under tag 7 and a write under tag 8. -/
def fabric : State :=
  let q : Req := { kind := .rd, addr := 4096, len := 256, sid := 0x55, internal := false, route := .lowest, owner := .cmdRead 1 0 }
  { up with fab := { up.fab with ports := tmod up.fab.ports 3 (fun p => { p with txns := [{ tag := 7, req := q }, { tag := 8, req := { q with kind := .wr } }] }) } }

theorem test_fabric_conditions :
    portDeaf fabric 3 = false ∧ (portN fabric 3).quarantine.contains 7 = false
    ∧ ((portN fabric 3).txns.find? (fun t => t.tag == 7)).any (fun x => x.req.kind == .rd && x.worst == .ok && decide (x.beats + 1 < beatsOf x.req.addr x.req.len)
        && decide (x.dueAt ≤ fabric.clk.now)) = true
    ∧ ((portN fabric 3).txns.find? (fun t => t.tag == 8)).any (fun x => x.req.kind != .rd && x.beats == 0) = true
    ∧ (portN fabric 3).txns.find? (fun t => t.tag == 2047) = none ∧ injectedAt fabric.flt (fabSrc 3) 1 = none ∧ (zeros 128).length = 128 := by
  decide +kernel
theorem test_fabric_last_beat :
    let q : Req := { kind := .rd, addr := 4096, len := 128, sid := 0x55, internal := false, route := .lowest, owner := .cmdRead 1 0 }
    let s := { up with fab := { up.fab with ports := tmod up.fab.ports 0 (fun p => { p with txns := [{ tag := 0, req := q }] }) } }
    portDeaf s 0 = false ∧ ((portN s 0).txns.find? (fun t => t.tag == 0)).any (fun x => x.beats + 1 == beatsOf x.req.addr x.req.len) = true
    ∧ (running s = true ∧ s.fab.measureAt ≤ s.clk.now) := by decide
theorem test_credit_conditions :
    let s := { up with fab := { up.fab with ports := tmod up.fab.ports 0 (fun p => { p with reqCred := 1023 }) } }
    portDeaf s 0 = false ∧ 1023 < (portN s 0).reqCred + b2n true ∧ ¬(1023 < (portN s 0).reqCred + b2n false ∨ 1023 < (portN s 0).wdatCred + 3) := by
  decide

theorem test_register_gates :
    writeGate up 0x1010 = .served ∧ writeGate up 0x1008 = .served ∧ writeGate up 0x1038 = .served ∧ writeGate up 0x1028 = .served ∧ writeGate up 0x1100 = .served
    ∧ writeGate up 0x0108 = .served ∧ writeGate up 0x0308 = .served ∧ writeGate up 0x0228 = .served ∧ writeGate up 0x2128 = .served
    ∧ writeGate up 0x7020 = .served ∧ readGate up 0x7000 = .served ∧ readGate up 0x5000 = .served ∧ readGate up 0x6000 = .served
    ∧ writeGate up 0xA008 = .dead ∧ writeGate { up with pins := { up.pins with formL := true } } 0xA008 = .served := by decide
theorem test_register_cases :
    writeGate State.reset 0 = .dead ∧ writeGate (enterFailSilent 1 up) 0x2000 = .failSilent ∧ mailboxOff (8 * (0x400 : BitVec 19).toNat) = false
    ∧ writeGate { up with pwr := { up.pwr with state := .p2 } } 0x1000 = .asleep
    ∧ up.cmd.adminEn = false ∧ up.cmd.halted = false ∧ up.cmd.mboxGo = false ∧ up.pwr.failSilent = false ∧ up.keys.carveEn = false
    ∧ (0x80000000 : Word).getLsbD 31 = true ∧ (1 : Word).getLsbD 0 = true ∧ (1 : Word).getLsbD 31 = false
    ∧ (tgetD { base with regs := { base.regs with cpsel := 5 } }.ports 5 {}).isOpen = true
    ∧ regWord up 0xFFFF8 = none ∧ readGate up 0xFFFF8 = .served ∧ writeGate up 0xFFFF8 = .served := by decide
theorem test_doorbell_cases :
    coreOn base = true ∧ base.pwr.state = .p0 ∧ (tgetD base.ports 5 {}).isOpen = true ∧ (tgetD base.ports 5 {}).sid = 0x55
    ∧ (tgetD base.ports 1023 {}).isOpen = false
    ∧ (let s := { base with pwr := { base.pwr with state := .p3, porch := [] } }
       coreOn s = true ∧ s.pwr.state ≠ .p0 ∧ s.pwr.porch.length < 64)
    ∧ (let s := enterFailSilent 1 base
       s.pins.powered = true ∧ s.pins.coreInReset = false ∧ s.pwr.failSilent = true) := by decide
theorem test_head_doorbell_cases :
    let b := fun (v : Nat) => ({ page := 5, slot := 511, sid := 0x55, data := BitVec.ofNat 64 (v + 7 * 2 ^ 32 + 3 * 2 ^ 62), at_ := 0 } : Bell)
    let s := { base with rings := tmod base.rings 7 (fun r => { r with tail := 15 }) }
    ∃ r, tget s.rings (bits (b 15).data.toNat 32 20) = some r ∧ r.port = 5 ∧ r.isCpl = true ∧ r.draining = false
      ∧ bits (b 15).data.toNat 62 1 = 1 ∧ bits (b 15).data.toNat 16 16 = 0 ∧ bits (b 15).data.toNat 52 10 = 0
      ∧ (15 < 2 ^ r.log2 ∧ (15 + 2 ^ r.log2 - r.head % 2 ^ r.log2) % 2 ^ r.log2 ≤ (r.tail + 2 ^ r.log2 - r.head % 2 ^ r.log2) % 2 ^ r.log2)
      ∧ 2 ^ r.log2 ≤ bits (b 16).data.toNat 0 16 := by
  exact ⟨_, rfl, by decide⟩
theorem test_control_path_cases :
    let m := { up with cmd := { up.cmd with mboxGo := true } }
    let e := { pk 0x0104 5 [] with due := some 0 }
    let k := { pk 0x0101 5 [] with cid := 0, started := true, fence := some { obj := .port 5, revoke := false, jobs := [], count := 0 } }
    let f := { pk 0x0207 5 [] with started := true, fence := some { obj := .binding 0x400000 8, revoke := false, jobs := [], count := 0 } }
    (running m = true ∧ mboxWaits m.cmd = true) ∧ (running up = true ∧ mboxWaits up.cmd = false)
    ∧ (let s := { base with cmd := { base.cmd with exec := [k, e] } }
       s.cmd.exec.find? (fun e => !e.started && !(runnable s.clk.now s.cmd).any (fun x => x.cid == e.cid) && (match e.due with
         | some t => decide (t ≤ s.clk.now)
         | none => false)) = some e)
    ∧ (drained (cmd f base) = f.fence.map (fun x => (f, x)) ∧ f.fence.any (fun x => x.obj == .binding 0x400000 8) = true) := by decide

/-! ### Hypotheses of the event rows: scheduling, engines, streams, time, epochs, fault sources -/

/-- A descriptor of ring 8 with an OP. -/
def desc (op : Nat) : Desc :=
  { gen := 1, op := op, dflags := 0, aux := 0, handle := 0x400000, inAddr := 0, outAddr := 4096, metaAddr := 8192, inLen := 64, aadLen := 0, outLen := 64
    metaLen := 16, param := 0, deadline := 0, cookie := 0, ckptAddr := 0, ckptLen := 0, inSgl := 0, outSgl := 0, xflags := 0, resZero := true }

/-- Job 1 of the OP, running on a unit with all its input. -/
def jobAt (op unit alg : Nat) (src : JobSrc) (phase : JobPhase) : State :=
  let r := (tgetD base.keys.sessions 0 { owner := 0, key := 0, alg := 0, mode := 0, policy := 0, ligature := 0, spanOff := 0, spanLen := 0, sflags := 0, salt := 0
                                         next := 0, ceiling := 0, limit := 0, gen := 0 })
  { base with jobs := [(1, { src := src, desc := desc op, port := 5, seq := 1, urgent := false, tDb := 0, phase := phase, unit := unit, cpl := 7, begun := true
                             sess := some { r with alg := alg }, counted := true })] }

theorem test_engine_ends :
    let ring := JobSrc.ring 8 0
    let ok := fun (op unit alg : Nat) =>
      let s := jobAt op unit alg ring .queued
      (readyEnd s 1 (opIs op)).any (fun j => j.sess.any (fun r => (members s.eng.units j.unit).all (fun c => injectedAt s.flt (unitSrc c) (checkerOf r) == none)))
    ok 0x01 0 0x10 = true ∧ ok 0x02 0 0x10 = true ∧ ok 0x03 18 0x10 = true ∧ ok 0x04 0 0x11 = true ∧ ok 0x10 0x100 0x20 = true
    ∧ ok 0x11 0x10D 0x20 = true ∧ ok 0x12 0x100 0x20 = true ∧ ok 0x13 0x100 0x20 = true ∧ ok 0x20 0x208 0x31 = true ∧ ok 0x30 0x300 0x40 = true := by
  decide
theorem test_job_releases :
    let h := jobAt 0x01 0 0x10 (.ring 8 0) .held
    let w : Window := { cycleNs := 10000, lenNs := 1 }
    let d := { jobAt 0x03 0 0x10 (.stream 63 0) .deferred with
      chans := tmod base.chans 63 (fun c => { c with isOpen := true, owner := 5, frames := [{ number := 0, len := 64, win := w }] }) }
    (running h = true ∧ h.fw.pauseAt = none
      ∧ (leastBy (fun e => e.2.seq) (h.jobs.filter (fun e => e.2.phase == .held && decide (e.2.tTok ≤ h.clk.now) && (heldAhead h e.2).isEmpty))).isSome = true)
    ∧ (running d = true ∧ d.fw.pauseAt = none ∧ (deferredJob d 63).any (fun x => (windowed d x.2).any (fun y => windowOpen y.1 (gNs d))) = true) := by decide
theorem test_ring_visits :
    let s := { base with skein := markRing 8 false base.skein }
    let m := { jobAt 0x01 0 0x10 (.ring 8 0) .merge with merge := [1] }
    let u := { m with rings := tmod base.rings 7 (fun r => { r with cached := false }) }
    let c := { base with
      rings := tmod base.rings 7 (fun r => { r with counted := 1, oldest := 0 })
      ports := tmap base.ports (fun _ p => { p with irqEn := true })
      clk := { base.clk with now := cyUs 10 } }
    (running s = true ∧ nextVisit s.skein = some (8, false)) ∧ (nextPost m (fun _ => true)).any (fun x => x.2.2.cached) = true
    ∧ (nextPost u (fun _ => true)).any (fun x => !x.2.2.cached) = true
    ∧ (working c = true ∧ (tget c.rings 7).any (fun r => r.isCpl && !r.irqLate && r.coalUs != 0 && decide (0 < r.counted) && decide (r.oldest + cyUs r.coalUs ≤ c.clk.now)
        && (tgetD c.ports r.port {}).irqEn) = true) := by decide
theorem test_unit_events :
    let b := jobAt 0x01 0 0x10 (.ring 8 0) .queued
    let s := { b with eng := modUnit 0x10D (fun u => { u with copying := some 0x10B }) (modUnit 0x208 (fun u => { u with copying := some 0x207 })
      (modUnit 0 (fun u => { u with suspended := some 1, suspendEnd := some 0 }) b.eng)) }
    (running s = true ∧ (unitOf s (leadOf s.eng.units 1)).suspended = some 1 ∧ (unitOf s (leadOf s.eng.units 1)).suspendEnd = some 0
      ∧ (jobOf s 1).any (fun j => j.sess.isSome && j.begun && j.phase == .queued) = true)
    ∧ (working s = true ∧ (unitOf s 0x10D).copying = some 0x10B ∧ (unitOf s 0x10D).freeAt ≤ s.clk.now)
    ∧ ((unitOf s 0x208).copying = some 0x207 ∧ (unitOf s 0x208).freeAt ≤ s.clk.now) := by decide
/-- How much of an output is open is computed with opaque ciphers, and how long the issue slots take with an opaque mask: whatever they are, there is a
time at which the blocks of the first piece are through. The conditions beside it. -/
theorem test_output_chunk :
    let s := jobAt 0x01 0 0x10 (.ring 8 0) .queued
    (running s = true ∧ (jobOf s 1).any (fun j => j.sess.any (fun r => fromRing j && isNib r.alg && writesOut j.desc && j.phase == .queued && j.counted && j.begun
      && j.readsLeft == 0 && j.status == .ok && j.tStart == 0 && j.idle == 0 && (unitOf s j.unit).role != .inverse)) = true)
    ∧ ∀ r j, j.tStart = 0 → j.idle = 0 → (unitOf s j.unit).role ≠ .inverse → ∃ n, chunkDone { s with clk := { s.clk with now := n } } r j = true := by
  intro s
  refine ⟨by decide, fun r j h1 h2 h3 => ⟨issuedBy r j (256 * (j.chunks + 1) - 1), ?_⟩⟩
  have h4 : (if (unitOf s j.unit).role = .inverse then 2 else 1) = 1 := if_neg h3
  refine decide_eq_true ?_
  show (if (unitOf s j.unit).role = .inverse then 2 else 1) * issuedBy r j (256 * (j.chunks + 1) - 1)
    ≤ 7 * (issuedBy r j (256 * (j.chunks + 1) - 1) - j.tStart - j.idle) / 6
  rw [h4, h1, h2]
  omega

/-- The frame of a channel is complete and its job has all its words. -/
def framed (op : Nat) : State :=
  { jobAt op 0 0x10 (.stream 63 0) .queued with
    chans := tmod base.chans 63 (fun c => { c with isOpen := true, owner := 5, frames := [{ number := 0, len := 1, got := [0], words := 1, eof := true }] }) }

theorem test_stream_ends :
    let b : StreamBeat := { channel := 63, data := zeros 32, sof := true, len := 32, eof := true, validBytes := 0, trunc := false }
    (b.data.length = 32 ∧ running base = true ∧ (chanOf base 63).isOpen = false) ∧ ((chanOf (framed 4) 63).isOpen = true ∧ (chanOf (framed 4) 63).closing = false)
    ∧ (readyEnd (framed 4) 1 (frameReady (framed 4) 4)).any (fun j => (frameOf (framed 4) j).isSome) = true
    ∧ (readyEnd (framed 3) 1 (frameReady (framed 3) 3)).any (fun j => (frameOf (framed 3) j).isSome) = true
    ∧ injectedAt (framed 3).flt (chanSrc 63) 1 = none := by decide
theorem test_zeroing_end :
    let e := { pk 0x0902 5 (leBytes 8 512) with started := true, committed := true }
    let l : Lease := { session := 0x400000, port := 5, hook := 0x200, windows := [511], zeroing := some (0, some 1) }
    let m := { l with releasing := true, zeroing := some (0, none) }
    let s := fun (x : Lease) => cmd e { base with eng := { base.eng with leases := [(511, x)] } }
    (running (s l) = true ∧ tfind (s l).eng.leases (fun _ l => l.windows.contains 511) = some (511, l) ∧ entryOf (s l) 1 = some e ∧ 0 ≤ (s l).clk.now
      ∧ (s l).jobs.any (fun x => onUnit x.2 && e.work.contains x.2.seq) = false)
    ∧ (running (s m) = true ∧ tfind (s m).eng.leases (fun _ l => l.windows.contains 511) = some (511, m) ∧ tget (s m).eng.leases 511 = some m) := by decide

/-- The time-keeper follows a reference of rank 3. -/
def following : Tim := { up.tim with usable := true, following := true, rank := 3, holdover := false }

/-- The offsets of the three cases meet at exactly 1 ms either way. -/
theorem test_discipline_boundaries :
    let r : TimeSample := { sec := 0, ns := 1000000, qual := 3 }
    let z : TimeSample := { sec := 0, ns := 0, qual := 3 }
    let at_ := fun (n : Nat) => ({ following with g := n, e := n } : Tim)
    (0 + 1000000 * unitsPerNs ≤ refUnits r) ∧ ¬((at_ 1).g + 1000000 * unitsPerNs ≤ refUnits r) ∧ (refUnits z + 1000000 * unitsPerNs ≤ (at_ (1000000 * unitsPerNs)).g)
    ∧ (at_ (1000000 * unitsPerNs - 1)).g < refUnits z + 1000000 * unitsPerNs ∧ (at_ 1).g ≤ (at_ 1).e := by decide
theorem test_time_events :
    let r : TimeSample := { sec := 0, ns := 999999999, qual := 3 }
    let f := { up with tim := following }
    (f.tim.usable = true ∧ f.tim.following = true ∧ f.tim.pending = false ∧ sampleBad r = false)
    ∧ (up.pins.powered = true ∧ up.tim.usable = false ∧ up.tim.minRank ≤ qualRank up.fuse.lifecycle r.qual ∧ up.tim.pending = false ∧ up.tim.holdover = true)
    ∧ (f.tim.minRank ≤ qualRank f.fuse.lifecycle 2 ∧ f.tim.rank ≠ qualRank f.fuse.lifecycle 2)
    ∧ (let p := { up with tim := { following with pending := true, pendAt := 0 } }
       p.tim.pending = true ∧ p.tim.pendAt * (1000000 * unitsPerNs) ≤ p.tim.g)
    ∧ (let p := { up with tim := { following with slewing := true, slewLeft := 0, e := 1000000000 * unitsPerNs } }
       p.pins.powered = true ∧ p.tim.slewing = true ∧ p.tim.slewLeft = 0 ∧ p.tim.lastTickSec < p.tim.e / (1000000000 * unitsPerNs)) := by decide
theorem test_epoch_events :
    let k := { up with ep := { up.ep with key := { up.ep.key with running := true, lenMs := 3600000 } }, tim := { up.tim with e := 3600000 * 1000000 * unitsPerNs } }
    (up.pins.powered = true ∧ up.ep.acct.over (eNs up) = false) ∧ k.ep.key.over (eNs k) = true ∧ working up = true := by decide
theorem test_fault_events :
    (up.pins.powered = true ∧ (srcClass 0x0A2).isSome = true ∧ kindKnown kBatonFault = true ∧ kindEsc kBatonFault = false ∧ (srcClass 0x0D3).isSome = true
      ∧ kindKnown kClockLost = true ∧ kindEsc kClockLost = false ∧ kindKnown 1 = true ∧ kindEsc 1 = false)
    ∧ (let s := { up with flt := { up.flt with widthRunning := true, errpwUs := 10 }, clk := { up.clk with now := cyUs 10 } }
       s.flt.widthRunning = true ∧ s.flt.errSince + cyUs s.flt.errpwUs ≤ s.clk.now)
    ∧ (let s := { severe with clk := { up.clk with now := 9 } }
       coreOn s = true ∧ (srcOf s.flt 6).severe = true ∧ (srcOf s.flt 6).acked = false ∧ (srcOf s.flt 6).timer = some 9 ∧ 9 ≤ s.clk.now)
    ∧ (let s := { up with flt := { up.flt with escWait := [0x038] } }
       coreOn s = true ∧ s.flt.escWait = [0x038] ∧ srcUnit 0x038 = some 0x208 ∧ kindBusy s (unitKind 0x208) = false)
    ∧ (up.pins.rbMismatch = false ∧ { up.pins with rbMismatch := true }.rbMismatch = true) := by decide
theorem test_timer_holds_power_entry : (0x006, srcOf severe.flt 0x006) ∈ severe.flt.sources ∧ (srcOf severe.flt 0x006).timer = some 9 := by decide
theorem test_injection_limits :
    let f := pk 0x0505 0xFFFF (leBytes 2 0x0A2 ++ leBytes 2 0 ++ leBytes 4 1)
    let g := pk 0x0505 0xFFFF (leBytes 2 0x006 ++ leBytes 2 0 ++ leBytes 4 1)
    (fld f.bytes 0 2 = 0x0505 ∧ headerFault f.bytes = none ∧ srcClass (fld f.bytes 16 2) = some 8 ∧ (inState 2).fuse.lifecycle = 2)
    ∧ (fld g.bytes 0 2 = 0x0505 ∧ headerFault g.bytes = none ∧ (inState 4).fuse.lifecycle = 4) := by decide
theorem test_set_quota_head :
    let e := pk 0x0103 5 (leBytes 8 0 ++ leBytes 8 100 ++ leBytes 4 1 ++ leBytes 4 99 ++ leBytes 8 0)
    let s := { base with ports := tmap base.ports (fun _ p => { p with hookPerS := 1 }) }
    Head 0x0103 (cmd e s) e ∧ (tget s.ports 5).any (fun p => p.bytesPerS == 0 && p.hookPerS != 0) = true ∧ par e 8 8 ≠ 0
    ∧ (tget { base with ports := tmap base.ports (fun _ p => { p with bytesPerS := 1 }) }.ports 5).any (fun p => p.hookPerS == 0 && p.bytesPerS != 0) = true
    ∧ par e 20 4 ≠ 0 := by decide

/-! ### Hypotheses of the event rows: Darning, random numbers, power, the baton, NVM, firmware, the card, the lanes -/

/-- A test of a unit that has run its time. -/
def tested (why : DrainWhy) : UnitTest := { unit := 0x10D, until_ := 0, why := why, before := .spare }

theorem test_sweep_conditions :
    let s := { up with darn := { up.darn with nextDue := some 0 } }
    let b := { s with eng := modUnit 8 (fun u => { u with role := .underTest }) s.eng }
    (running s = true ∧ s.darn.enable = true ∧ s.darn.period ≠ 0 ∧ 0 ≤ s.clk.now ∧ sweepRuns s = false ∧ stepsHeld s = false ∧ s.fw.rollLeft = []
      ∧ kindBusy s 0 = false ∧ roleGone (unitOf s (nextSweepUnit s.eng.units 0 (sweepPtr s.darn 0))).role = false) ∧ kindBusy b b.darn.nextKind = true := by
  decide
theorem test_drain_and_test_ends :
    let s := { up with eng := modUnit 0x208 (fun u => { u with drain := some { why := .escalate, replacement := none } }) up.eng }
    let t := { up with darn := { up.darn with test := some (tested .sweep) } }
    (engselValid 0x208 = true ∧ (unitOf s 0x208).drain = some { why := .escalate, replacement := none } ∧ working s = true
      ∧ (jobsOn s 0x208).any (fun q => ([] : List Nat).contains q) = false)
    ∧ (running t = true ∧ testDue t = some (tested .sweep, true) ∧ (tested .sweep).why = .sweep ∧ (tested .sweep).retireAfter = none
      ∧ passed { logicFail := false, memoryFail := false, katFail := false, rowsRepaired := 255 } = true
      ∧ passed { logicFail := false, memoryFail := false, katFail := true, rowsRepaired := 0 } = false) := by decide
theorem test_row_and_rollover_conditions :
    let s := { up with darn := { up.darn with arrays := [(0, { copies := [{ row := 3, until_ := 0, cid := none }] })] } }
    let r := { up with fw := { up.fw with rollLeft := [0, 9, 0x208] }, eng := modUnit 0x208 (fun u => { u with role := .isolated }) up.eng }
    ((arrayOf s 0).copies = [{ row := 3, until_ := 0, cid := none }] ∧ running s = true ∧ 0 ≤ s.clk.now)
    ∧ (arrayPresent up.pins.formL 178 = true ∧ injectedAt up.flt (arraySrc 178) 0 = none ∧ parityArray 178 = false)
    ∧ (engselValid 0x208 = true ∧ working r = true ∧ r.fw.rollLeft.contains 0x208 = true ∧ roleGone (unitOf r 0x208).role = true
      ∧ (unitOf r 9).role = .spare ∧ (unitOf r 0).role = .active ∧ kindBusy r 0 = false) := by decide

/-- Cell 15 under its startup test, cell 0 under a retest, cells 1 to 4 ONLINE with bits. -/
def cells : State :=
  let f := fun n (c : Cell) => if n = 15 then { c with state := .underTest, startup := true } else if n = 0 then { c with state := .underTest }
    else if n ≤ 4 then { c with state := .online, bits := 576 } else c
  { up with rng := { stored.rng with cells := tmap up.rng.cells f, rotateAt := 0, period := 1 } }

theorem test_cell_conditions :
    (testOver cells 15 true = true ∧ testHit cells 15 = false ∧ (cellOf cells 15).testFailed = false)
    ∧ (testOver cells 0 false = true ∧ testHit cells 0 = false ∧ (cellOf cells 0).testFailed = false)
    ∧ (inkOn cells = true ∧ (cellOf cells 1).state = .online ∧ injectedAt cells.flt (cellSrc 1) 4 = none ∧ (748 : BitVec 11).toNat < 749 ∧ 749 ≤ (749 : BitVec 11).toNat)
    ∧ (cells.rng.period ≠ 0 ∧ cells.rng.rotateAt ≤ cells.clk.now ∧ (longestOnline cells.rng).isSome = true
      ∧ (tfind cells.rng.cells (fun _ c => c.state == .spare)).isSome = true) := by decide
theorem test_ink_conditions :
    (awake up = true ∧ up.rng.inkLost = false) ∧ (let s := { up with rng := { up.rng with inkLost := true } }
      awake s = true ∧ s.rng.inkLost = true)
    ∧ (inkOn cells = true ∧ cells.rng.pool < 16 ∧ (takePortions 4 cells.rng).isSome = true ∧ injectedAt cells.flt 0x050 2 = none)
    ∧ (let s := { cells with rng := { cells.rng with feeds := tmap cells.rng.feeds (fun _ f => { f with requests := 2 ^ 20, nextReseed := 1 }) } }
       awake s = true ∧ (tgetD s.rng.feeds 7 {}).state = .ready ∧ 2 ^ 20 ≤ (tgetD s.rng.feeds 7 {}).requests ∧ injectedAt s.flt (0x058 + 7) 2 = none)
    ∧ (awake cells = true ∧ feedReady cells 7 = true ∧ cells.rng.data.length ≤ 32) := by decide

theorem test_power_conditions :
    let s := fun (d : Nat) => { up with pwr := { up.pwr with deepest := d, idleUs := 10 }, clk := { up.clk with now := cyUs 10 } }
    (running (s 1) = true ∧ (s 1).pwr.entering = none ∧ p1Idle (s 1) = true ∧ 1 ≤ (s 1).pwr.deepest ∧ (s 1).pwr.idleSince + 256 ≤ (s 1).clk.now)
    ∧ (deepTarget (s 4).pwr.deepest = some .p3 ∧ coreOn (s 4) = true ∧ started (s 4) = true ∧ (s 4).pwr.state = .p0 ∧ (s 4).pwr.waking = false
      ∧ (s 4).pwr.entering = none ∧ deepIdle (s 4) = true ∧ (s 4).pwr.deepSince + cyUs (s 4).pwr.idleUs ≤ (s 4).clk.now)
    ∧ (let e := fun (t : PState) => { up with pwr := { up.pwr with entering := some t } }
       (e .p2).pwr.entering = some .p2 ∧ (e .p3).pwr.entering = some .p3 ∧ coreOn (e .p2) = true ∧ deepIdle (e .p3) = true ∧ treeStored (e .p3) = true) := by
  decide
theorem test_wake_conditions :
    let w := fun (t : PState) => { up with pwr := { up.pwr with state := t, waking := true } }
    let d := { up with pwr := { up.pwr with state := .p3 }, ep := { up.ep with acct := { up.ep.acct with running := true, lenMs := 1000 } }
                       tim := { up.tim with e := 1000 * 1000000 * unitsPerNs } }
    (coreOn (w .p3) = true ∧ (w .p3).pwr.waking = true ∧ (w .p3r).pwr.state = .p3r ∧ (w .p2).pwr.state ≠ .p3 ∧ (w .p2).pwr.state ≠ .p3r)
    ∧ (coreOn d = true ∧ started d = true ∧ wakeDue d = true) ∧ (d.pwr.entering = none ∧ d.pwr.waking = false ∧ d.pwr.state ≠ .p0) := by decide

/-- Scribe A owns the baton at EPOCH 1; Scribe B stands as given. -/
def owned (b : ScribeState) : State := { up with baton := setScribe 1 b (award 0 0 up.baton), clk := { up.clk with now := cyMs 1 } }

theorem test_baton_conditions :
    (scribesOn (owned .ready) = true ∧ batonAgrees (owned .ready).baton = true ∧ batonOwner (owned .ready) = scribeNum .a ∧ batonEpoch (owned .ready) = 1)
    ∧ (let s := { owned .ready with baton := { (owned .ready).baton with c2 := { epoch := 5, owner := 0 } } }
       scribesOn s = true ∧ batonAgrees s.baton = false)
    ∧ ((owned .ready).baton.lastRenew + cyMs 1 ≤ (owned .ready).clk.now ∧ scribeState (owned .ready).baton 1 = .ready)
    ∧ scribeState (owned .off).baton (scribeNum .b) = .off
    ∧ (scribesOn (owned .deposed) = true ∧ scribeState (owned .deposed).baton (scribeNum .b) = .deposed)
    ∧ (scribesOn (owned .syncing) = true ∧ scribeState (owned .syncing).baton (scribeNum .b) = .syncing) := by decide

theorem test_nvm_conditions :
    let s := fun (w : NvmWork) => { up with nvm := { up.nvm with ops := [{ work := w }] } }
    ((s .statusConfirmed).nvm.ops = [{ work := .statusConfirmed }] ∧ nvmWorks (s .statusConfirmed) = true ∧ isErase .statusConfirmed = false
      ∧ sectorBad (s .statusConfirmed).nvm (workSector .statusConfirmed (leNat (freeBytes (s .statusConfirmed) 1))) = false)
    ∧ (nvmWorks (s (.eraseSector 1023)) = true ∧ sectorBad (s (.eraseSector 1023)).nvm 1023 = false) := by decide

theorem test_firmware_conditions :
    let f := fun (st : FwState) => { up with fw := { up.fw with state := st } }
    let p := pk 0x0706 0xFFFF []
    let a := cmd p { f .replaying with fw := { (f .replaying).fw with replay := some (.abort 1) } }
    ((f .replaying).pins.powered = true ∧ (f .replaying).pins.coreInReset = false ∧ (f .replaying).fw.state = .replaying ∧ (f .replaying).nvm.ops = []
      ∧ (f .replaying).pins.nvmLow = false ∧ (f .replaying).fw.replay = none)
    ∧ (a.fw.replay = some (.abort 1) ∧ entryOf a 1 = some p)
    ∧ (running (f .scheduled) = true ∧ actNsAt (f .scheduled).fw ≤ gNs (f .scheduled) + 100000000)
    ∧ (let r := { f .scheduled with fw := { (f .scheduled).fw with relay := true, immediate := false } }
       running r = true ∧ r.fw.relay = true ∧ actNsAt r.fw ≤ gNs r + 400000000) := by decide
theorem test_activation_conditions :
    let f := fun (st : FwState) (b : ScribeState) => { owned b with fw := { up.fw with state := st, immediate := true } }
    let q := { f .preparing .syncing with clk := { up.clk with now := cyMs 60 } }
    (imageFault (f .staged .ready) = none ∧ scribeState (f .staged .ready).baton (standby (f .staged .ready)) ≠ .offline)
    ∧ (coreOn q = true ∧ q.fw.state = .preparing ∧ q.fw.pauseAt = none ∧ scribeState q.baton (standby q) ≠ .ready ∧ q.fw.prepAt + cyMs 60 ≤ q.clk.now)
    ∧ (running (f .preparing .ready) = true ∧ scribeState (f .preparing .ready).baton (standby (f .preparing .ready)) = .ready
      ∧ (f .preparing .ready).darn.test = none ∧ tokenFree (f .preparing .ready) = true)
    ∧ (working (f .probation .ready) = true ∧ (f .probation .ready).fw.state = .probation ∧ (f .probation .ready).fw.selfDone = false
      ∧ (f .probation .ready).fw.probationEnd ≤ (f .probation .ready).clk.now) := by decide

theorem test_card_events :
    let w := fun (x : CardWait) (c : Nat) => { card .ready 0 with fol := { (card .ready 0).fol with wait := x, cur := some { code := c, arg := 0 } }, clk := { up.clk with now := cyMs 1000 } }
    (up.fol.seated = false ∧ cardLive up = true) ∧ (cardLive State.reset = false ∧ State.reset.pins.powered = true)
    ∧ (cardLive up = true ∧ probes up.clk.now up.fol = true) ∧ (cardLive (card .ready 0) = true ∧ (card .ready 0).fol.power = true)
    ∧ (cardLive (w .response 1) = true ∧ (w .response 1).fol.wait = .response) ∧ (w .ack 1).fol.wait = .ack ∧ (w .busy 0x0C).fol.wait = .busy
    ∧ (timerRuns (w .response 1).fol .response).any (fun d => decide (d ≤ cyMs 1000)) = true ∧ (timerRuns (w .readData 1).fol .readData).isSome = true
    ∧ (timerRuns (w .ack 1).fol .ack).isSome = true ∧ timerRuns (w .busy 1).fol .busy = some (cyMs 1000) ∧ (timerRuns (w .readData 0x10).fol .ident).isSome = true := by
  decide
theorem test_card_frames :
    let c : CardCmd := { code := 1, arg := 0 }
    let good : BitVec 48 := 0x210000000000 + 1 + 2 * (crc7 0x210000000000).setWidth 48
    (bits good.toNat 1 7 = (crc7 good).toNat ∧ bits good.toNat 45 3 = 1 ∧ bits good.toNat 0 1 = 1 ∧ bits good.toNat 40 5 = c.code)
    ∧ bits (0x210000000001 : BitVec 48).toNat 1 7 ≠ (crc7 0x210000000001).toNat := by decide +kernel
theorem test_card_password_delay :
    let s := { card .locked 1 with fol := { (card .locked 1).fol with pwFailAt := some 0 }, clk := { up.clk with now := cyMs 1000 } }
    s.fol.pwFailAt = some 0 ∧ cardLive s = true ∧ 0 + cyMs 1000 ≤ s.clk.now := by decide

/-- LA-1024/L with its link up and lane 33 locked as a spare. -/
def lanes : State :=
  let l := tmap up.link.lanes (fun n x => if n = 33 then { x with rxRole := .spare, locked := true } else if n = 32 then { x with rxRole := .spare } else { x with rxRole := .active })
  { up with pins := { up.pins with formL := true }, link := { up.link with up := true, lanes := l }, clk := { up.clk with now := cyMs 1 } }

theorem test_lane_conditions :
    (lanesOn lanes = true ∧ (laneOf lanes 32).locked = false ∧ lanes.link.training = false ∧ (laneOf lanes 33).locked = true ∧ (8 : BitVec 4).toNat ≤ 8)
    ∧ (lanes.link.up = true ∧ (laneOf lanes 32).rxRole = .spare ∧ (laneOf lanes 32).lostAt + cyMs 1 ≤ lanes.clk.now)
    ∧ (let s := { lanes with link := { lanes.link with training := true } }
       lanesOn s = true ∧ s.link.training = true) := by decide
/-- The flit CRC is opaque: a flit that carries the CRC of its first 248 bytes passes, and some other does not. -/
theorem test_flit_length : (zeros 256).length = 256 ∧ fld (zeros 256) 0 4 / 2 ^ 28 < 4 := by decide +kernel
theorem test_tap_conditions :
    up.pins.powered = true ∧ up.fuse.lifecycle = 0 ∧ (zeros 5541).length = 5541 ∧ up.nvm.ops = [] := by
  refine ⟨rfl, rfl, ?_, rfl⟩
  exact List.length_replicate
theorem test_card_block_line :
    let l := [false, false, true, false] ++ List.replicate 256 false ++ wordBits 16 (crc16 (List.replicate 256 false)).toNat ++ [true, true]
    let s := { card .ready 0 with fol := { (card .ready 0).fol with wait := .readData, cur := some { code := 0x10, arg := 0 } } }
    s.fol.wide = false ∧ cardLive s = true ∧ s.fol.wait = .readData ∧ readSize { code := 0x10, arg := 0 } / 1 = 32 ∧ lineFramed 32 l = true
    ∧ lineCrcOk 32 l = true := by decide +kernel
/-- Whether a settings image verifies is the answer of opaque algorithms; its length and the block's state beside that. -/
theorem test_settings_image_length :
    let e := { pk 0x0601 0xFFFF (leBytes 8 4096 ++ leBytes 4 7347) with readIssued := true }
    Head 0x0601 (cmd e up) e ∧ 7347 ≤ par e 8 4 ∧ par e 8 4 ≤ 65536 ∧ (landed e).length - 7347 ≤ 48896 ∧ up.keys.carveEn = false := by decide

/-! ### Hypotheses of the clauses on slots, rings, spares, accesses at the pins and admission -/

/-- The state with the SLOT_MAC of slot 3 as it was written: the MAC itself is the answer of an opaque algorithm. -/
def maced : State :=
  { stored with keys := { stored.keys with slots := tmod stored.keys.slots 3 (fun x => { x with mac := slotMac stored 3 x }) } }

theorem test_slot_checks :
    let e := pk 0x0202 5 (leBytes 4 0x8003 ++ leBytes 4 72 ++ leBytes 8 4096)
    let f := pk 0x0204 5 (leBytes 4 0x8003 ++ leBytes 2 1023)
    let g := pk 0x0206 5 (leBytes 4 0x8003 ++ leBytes 2 0x10 ++ [4, 1] ++ zeros 16)
    SlotChecks (cmd e maced) 5 0x8003 ∧ (Head 0x0202 (cmd e maced) e ∧ keyStatus (cmd e maced) 5 0x8003 = .ok ∧ usageHas (keyOf maced 0x8003) 6 = true
      ∧ (slotOf maced 3).spilled = false ∧ (slotOf maced 3).ext = none ∧ blobLen 32 ≤ par e 4 4 ∧ cmdSpanOk (cmd e maced) e 4096 (blobLen 32) = true)
    ∧ SlotChecks (cmd f maced) 5 0x8003 ∧ (Head 0x0204 (cmd f maced) f ∧ keyStoreFault f (cmd f maced) = none)
    ∧ SlotChecks (cmd g maced) 5 (askedSession g).key ∧ (Head 0x0206 (cmd g maced) g ∧ createFault (atHand g (cmd g maced)) (begun g) = none
      ∧ freeSession (atHand g (cmd g maced)) = some 1 ∧ (slotOf (cmd g maced) (handleSlot (askedSession g).key)).spilled = false) := by
  have h : ∀ e, macBad (cmd e maced) 3 = false := fun e => bne_self_eq_false (slotMac stored 3 _)
  exact ⟨fun _ => ⟨by decide, h _⟩, by decide, fun _ => ⟨by decide, h _⟩, by decide, fun _ => ⟨by decide, h _⟩, by decide⟩
theorem test_slot_checks_refused :
    let e := pk 0x0202 5 (leBytes 4 0x8004 ++ leBytes 4 72 ++ leBytes 8 4096)
    let f := pk 0x0202 5 (leBytes 4 0x8003 ++ leBytes 4 72 ++ leBytes 8 4096)
    let s := { stored with keys := { stored.keys with slots := tmod stored.keys.slots 3 (fun x => { x with usage := 0, spilled := true }) } }
    (SlotChecks (cmd e base) 5 0x8004 ∧ keyStatus (cmd e base) 5 0x8004 ≠ .ok)
    ∧ (Head 0x0202 (cmd f s) f ∧ SlotChecks (cmd f s) 5 0x8003 ∧ keyStatus (cmd f s) 5 0x8003 = .ok ∧ usageHas (keyOf (cmd f s) 0x8003) 6 = false) := by
  decide
theorem test_session_create_spilled :
    let e := pk 0x0206 5 (leBytes 4 0x8003 ++ leBytes 2 0x10 ++ [4, 1] ++ zeros 16)
    let f := pk 0x0206 5 (leBytes 4 0x8003 ++ leBytes 2 0x10 ++ [9, 1] ++ zeros 16)
    let s := { stored with keys := { stored.keys with slots := tmod stored.keys.slots 3 (fun x => { x with spilled := true }) } }
    (Head 0x0206 (cmd e s) e ∧ SlotChecks (cmd e s) 5 (askedSession e).key ∧ createFault (atHand e (cmd e s)) (begun e) = none
      ∧ freeSession (atHand e (cmd e s)) = some 1 ∧ (askedSession e).key ≠ 0 ∧ (slotOf (cmd e s) (handleSlot (askedSession e).key)).spilled = true)
    ∧ (Head 0x0206 (cmd f s) f ∧ SlotChecks (cmd f s) 5 (askedSession f).key ∧ (createFault (cmd f s) (begun f)).isSome = true) := by decide
theorem test_blob_checker_idle : injectedAt base.flt 0x0B2 0 = none := by decide
theorem test_session_and_ring_records :
    let g := pk 0x0209 5 (leBytes 4 0x400000)
    let q := pk 0x0305 5 (leBytes 4 8 ++ leBytes 4 0)
    let q2 := { q with phase := 2 }
    let s := { base with
      keys := { base.keys with sessions := tmap base.keys.sessions (fun _ r => { r with cached := false }) }
      rings := tmap base.rings (fun _ r => { r with cached := false }) }
    (Head 0x0209 (cmd g s) g ∧ (sessionOf (cmd g s) 5 0x400000).any (fun r => !r.cached) = true)
    ∧ (Head 0x0305 (cmd q base) q ∧ (ownRing (cmd q base) q).any (fun r => r.cached) = true)
    ∧ (Head 0x0305 (cmd q2 s) q2 ∧ (ownRing (cmd q2 s) q2).any (fun r => !r.cached) = true ∧ q2.phase = 2)
    ∧ (Head 0x0305 (cmd q s) q ∧ (ownRing (cmd q s) q).any (fun r => !r.cached) = true ∧ q.phase ≠ 2) := by decide
theorem test_ring_restart_kinds :
    let q := fun (id x : Nat) => pk 0x0303 5 (leBytes 4 id ++ leBytes 4 x)
    let s := { base with rings := tmap base.rings (fun _ r => { r with stopped := true }) }
    (Head 0x0303 (cmd (q 7 0) s) (q 7 0) ∧ (ownRing (cmd (q 7 0) s) (q 7 0)).any (fun r => r.isCpl && r.stopped) = true ∧ par (q 7 0) 4 4 = 0)
    ∧ (Head 0x0303 (cmd (q 8 15) s) (q 8 15) ∧ (ownRing (cmd (q 8 15) s) (q 8 15)).any (fun r => !r.isCpl && r.stopped && decide (15 < 2 ^ r.log2)) = true) := by
  decide
theorem test_drop_rest_alive :
    let q := pk 0x0402 5 (leBytes 4 62)
    let s := { streams with chans := tmod streams.chans 62 (fun c => { c with frames := [{ number := 0, len := 64, words := 1 }] }) }
    Head 0x0402 (cmd q s) q ∧ ownChan (cmd q s) q = true ∧ (currentFrame (cmd q s) (chanOf s 62)).any (fun x => frameAlive (cmd q s) x) = true := by decide
/-- A retry of an admitted job runs on the spare quill 0x10D. -/
theorem test_spare_in_use :
    let q := fun (op : Nat) => pk op 0xFFFF (leBytes 4 0x10D)
    let s := jobAt 0x10 0x10D 0x20 (.ring 8 0) .queued
    (Head 0x0506 (cmd (q 0x0506) s) (q 0x0506) ∧ (unitOf s 0x10D).role = .spare ∧ (jobsOn (cmd (q 0x0506) s) 0x10D).isEmpty = false ∧ kindBusy s 1 = false
      ∧ s.darn.test.any (fun t => t.unit == 0x10D) = false ∧ floorForbids s 0x10D = false)
    ∧ (Head 0x0507 (cmd (q 0x0507) s) (q 0x0507) ∧ (jobsOn (cmd (q 0x0507) s) 0x10D).isEmpty = false)
    ∧ (jobsOn (cmd (q 0x0506) up) 0x10D).isEmpty = true := by decide

theorem test_pins_taken :
    let w : CrpAccess := .read 0 .full
    let b : Bell := { page := 0, slot := 0, sid := 0, data := 0, at_ := 0 }
    let full := { up with pwr := { up.pwr with state := .p2, porch := List.replicate 64 b } }
    let held := { up with pwr := { up.pwr with crpWait := [w] } }
    let tied := { up with pins := { up.pins with formL := true, cfgFabRoute := 8 } }
    Takes up ∧ Takes State.reset ∧ Takes (enterFailSilent 1 up) ∧ Takes base ∧ Takes { base with pwr := { base.pwr with state := .p3 } }
    ∧ (crpPins full = true ∧ full.pins.powered = true ∧ crpReady full = false) ∧ (crpPins held = true ∧ held.pins.powered = true ∧ held.pwr.crpWait ≠ [])
    ∧ crpPins tied = false ∧ (fabPins tied 3 = false ∧ fabPins tied 0 = true ∧ fabPins fabric 3 = true ∧ portDeaf fabric 3 = false) := by decide
theorem test_pins_served :
    Writes 0x1010 up ∧ Writes 0x1008 up ∧ Writes 0x1038 up ∧ Writes 0x1028 up ∧ Writes 0x1100 up ∧ Writes 0x0108 up ∧ Writes 0x0308 up ∧ Writes 0x0228 up := by decide
theorem test_other_pins_served :
    Writes 0x2128 { base with regs := { base.regs with cpsel := 5 } } ∧ Writes 0x7020 up ∧ Reads 0x7000 up ∧ Reads 0x5000 up ∧ Reads 0x6000 up
    ∧ Writes 0xA008 { up with pins := { up.pins with formL := true } } ∧ Reads 0xFFFF8 up ∧ Writes 0xFFFF8 up
    ∧ (let s := { up with cmd := { up.cmd with halted := true } }
       Writes 0x1008 s ∧ s.cmd.halted = true) := by decide
theorem test_tree_written :
    let s := { up with keys := { up.keys with carveEn := true, carveInit := true } }
    coreOn s = true ∧ 5 ≤ s.pwr.stage ∧ s.keys.carveEn = true ∧ s.keys.carveInit = true ∧ s.keys.treeLeft = 0 := by decide

/-- A tail and a head doorbell of page 5: the ring named, the index, and the bits given. -/
def tailBell (ring n x : Nat) : Word := BitVec.ofNat 64 (n + 2 ^ 16 * x + 2 ^ 32 * ring)

theorem test_direct_doorbells :
    (up.pins.coreInReset = false) ∧ (Takes base ∧ coreOn base = true ∧ base.pwr.state = .p0 ∧ (tgetD base.ports 5 {}).isOpen = true ∧ (tgetD base.ports 5 {}).sid = 0x55)
    ∧ (∃ r, tfind base.rings (fun _ r => r.port == 5 && r.slot == some 0 && !r.isCpl) = some (8, r) ∧ bits (15 : Word).toNat 16 48 = 0
      ∧ bits (15 : Word).toNat 0 16 < 2 ^ r.log2 ∧ 2 ^ r.log2 ≤ bits (16 : Word).toNat 0 16 ∧ bits (0x10000 : Word).toNat 16 48 ≠ 0)
    ∧ tfind base.rings (fun _ r => r.port == 5 && r.slot == some 511 && !r.isCpl) = none ∧ (15 : Word).getLsbD 63 = false
    ∧ (tgetD base.ports 1023 {}).isOpen = false ∧ (0x56 : BitVec 16) ≠ (tgetD base.ports 5 {}).sid := by
  exact ⟨by decide, by decide, ⟨_, rfl, by decide⟩, by decide⟩
theorem test_indirect_doorbells :
    let t := fun (ring n x : Nat) => (((tailBell ring n x).setWidth 62).setWidth 64 ||| 0x8000000000000000#64).toNat
    let h := fun (ring n x : Nat) => (((tailBell ring n x).setWidth 62).setWidth 64 ||| 0xC000000000000000#64).toNat
    let s := { base with rings := tmod base.rings 7 (fun r => { r with tail := 15 }) }
    (bits (t 8 15 0) 32 20 = 8 ∧ bits (t 8 15 0) 0 16 = 15 ∧ bits (t 8 15 0) 16 16 = 0 ∧ bits (t 8 15 0) 52 10 = 0 ∧ bits (t 8 16 0) 0 16 = 16 ∧ bits (t 8 0 1) 16 16 ≠ 0)
    ∧ (tget base.rings 8).any (fun r => r.port == 5 && !r.isCpl && !r.draining && decide (2 ^ r.log2 = 16)) = true
    ∧ ((tget base.rings (bits (t 7 0 0) 32 20)).any (fun r => r.isCpl) = true ∧ tget base.rings (bits (t 0xFFFFF 0 0) 32 20) = none)
    ∧ (bits (h 7 15 0) 32 20 = 7 ∧ bits (h 7 15 0) 0 16 = 15 ∧ bits (h 7 15 0) 16 16 = 0 ∧ bits (h 7 15 0) 52 10 = 0)
    ∧ (tget s.rings 7).any (fun r => r.port == 5 && r.isCpl && !r.draining && r.tail == 15 && r.head == 0 && decide (2 ^ r.log2 = 16)) = true
    ∧ (tget base.rings (bits (h 8 0 0) 32 20)).any (fun r => !r.isCpl) = true := by decide

/-! ### Hypotheses of the visits, of admission and of the engines' ends -/

theorem test_visit_cases :
    let m := fun (s : State) => { s with skein := markRing 8 false base.skein }
    let r8 := fun (f : Ring → Ring) => { base with rings := tmod base.rings 8 f }
    let v := fun (s : State) => running (m s) = true ∧ nextVisit (m s).skein = some (8, false)
    (v { base with rings := [] } ∧ tget ([] : Tbl Ring) 8 = none)
    ∧ (v (r8 (fun r => { r with cplRing := 6 })) ∧ tget base.rings 6 = none)
    ∧ (v (r8 (fun r => { r with cached := false })) ∧ (tget (r8 (fun r => { r with cached := false })).rings 8).any (fun r => !r.cached) = true)
    ∧ (tget (tmod base.rings 7 (fun r => { r with cached := false })) 7).any (fun r => !r.cached) = true
    ∧ (tget base.rings 8).any (fun r => r.cached && unfetched r == 0) = true ∧ (tget base.rings 7).any (fun r => r.cached && !r.stopped && !r.draining) = true
    ∧ (tget (r8 (fun r => { r with tail := 15 })).rings 8).any (fun r => unfetched r == 15 && (tget base.rings 7).any (fun c => visitCount base r c == 15)) = true
    ∧ (tget (r8 (fun r => { r with tail := 15, stopped := true })).rings 8).any (fun r => unfetched r == 15 && r.stopped) = true := by decide +kernel

/-- A RANDOM job of ring 8 that is fetched and checked. -/
def drawing : State :=
  let s := jobAt 0x30 0 0x40 (.ring 8 0) .checked
  { s with
    jobs := tmap s.jobs (fun _ j => { j with
      desc := { j.desc with gen := 2, inLen := 0, metaLen := 0, metaAddr := 0 }, counted := false, begun := false, sess := none, cpl := 7 })
    keys := { s.keys with sessions := tmap s.keys.sessions (fun _ r => { r with alg := 0x40, mode := 0, key := 0, policy := 0 }) }
    rings := tmod s.rings 8 (fun r => { r with gen := 2, bound := [0x400000] })
    rng := stored.rng }

theorem test_admission :
    let p := { drawing with fw := { drawing.fw with pauseAt := some 0 } }
    let x := fun (s : State) (t : Nat) => (jobOf s 1).any (fun j => descStatus s j == .ok && (sessionOf s j.port j.desc.handle).any (fun r => !mustWait s r j
      && stateCheck s r (withAbs s r j) == .ok && !noUnit s r (withAbs s r j)
      && (let q := bucketsAt s.clk.now (tgetD s.ports (withAbs s r j).port {})
          let tok := tokenTime s (withAbs s r j) q (chargeOf r (withAbs s r j))
          !neverFits q (chargeOf r (withAbs s r j)) && decide (tok - s.clk.now ≤ 150000000) && tok == t
            && (place s r (withAbs s r j) (max s.clk.now tok)).any (fun y => (match fits s r (withAbs s r j) (predict s r (withAbs s r j) y).2 with
              | .ok _ => true
              | _ => false))
            && (heldAhead s (withAbs s r j)).isEmpty)))
    let slow := { drawing with ports := tmod drawing.ports 5 (fun q => { q with bytesPerS := 640, burstKib := 1, lvlBytes := 0 }) }
    (running drawing = true ∧ p.fw.pauseAt.isSome = true ∧ drawing.fw.pauseAt = none) ∧ x drawing 0 = true ∧ x slow 150000000 = true
    ∧ (nextFetched drawing).any (fun e => !nowRefused drawing e.2 && e.2.chainHead == none) = true := by decide +kernel

/-- A digest is the answer of an opaque algorithm: what a quill ends with is there for a message with its padding, and a verify's META may be it or not. -/
theorem test_quill_ends :
    let s := jobAt 0x11 0x100 0x20 (.ring 8 0) .queued
    let r := (jobOf s 1).bind (·.sess)
    let d := fun (x : Nat) => ({ (desc 0x11) with param := x } : Desc)
    let m : Message := { handle := 0x400000, opened := 0, quill := 0x100, port := 5, aAbs := 0, absorbed := [], configGen := 0 }
    let w := { s with eng := { s.eng with messages := [(0x400000, m)] } }
    (qOpen (d (2 ^ 63)) = true ∧ qOpen (d 3) = false ∧ qLength (d (2 ^ 63 + 3)) = 3) ∧ (jobOf s 1).any (fun j => (messageOf s j).isNone) = true
    ∧ (jobOf w 1).any (fun j => (messageOf w j).isSome) = true ∧ r.isSome = true
    ∧ (∀ x : Session, quillFinal x [] (quillPad x 0) 0 = some (quillResult x [] []))
    ∧ (∀ x : Bytes, x = joinParts [(0, x)] ∧ x ≠ joinParts [(0, 1 :: x)]) := by
  refine ⟨by decide, by decide, by decide, by decide, fun x => by simp [quillFinal], fun x => ⟨by simp [joinParts], by simp [joinParts]⟩⟩

/-- Point multiplication class 0 operands: A in slot 0, M in slot 2; a P-256 public key with r = 0. -/
def hookMem (big : Bool) : Memory :=
  if big then Memory.writeBytes (Memory.writeBytes [] 0 (beBytes 32 0x6B17D1F2E12C4247F8BCE6E563A440F277037D812DEB33A0F4A13945D898C296))
      32 (beBytes 32 0x4FE342E2FE1A7F9B8EE7EB4A7C0F9E162BCE33576B315ECECBB6406837BF51F5)
  else Memory.writeBytes (Memory.writeBytes [] 0 [5]) 1024 [7]

/-- What the Hook computes on given operands: 1 a result, 2 a verdict of false, 3 a fault. Whether a whole signature verifies is opaque. -/
theorem test_hook_ends :
    let j := fun (param : Nat) => ({ src := .ring 8 0, desc := { (desc 0x20) with param := param, aux := 512 }, port := 5, seq := 1, urgent := false, tDb := 0 } : Job)
    let k := fun (r : Session) (alg param : Nat) (m : Memory) => match hookCompute { r with alg := alg } (j param) m with
      | .ok _ _ => 1
      | .verified false => 2
      | .failed _ => 3
      | _ => 0
    let r := tget leased.keys.sessions 0
    r.map (fun x => k x 0x30 (1 + 2 ^ 24 * 2 + 2 ^ 18 * 0) (hookMem false)) = some 1
    ∧ r.map (fun x => k x 0x30 (1 + 2 ^ 24 * 2 + 2 ^ 18 * 0) []) = some 3 ∧ r.map (fun x => k x 0x31 0x22 (hookMem true)) = some 2
    ∧ (leaseAt leased 512).isSome = true := by decide +kernel

theorem test_stream_words :
    let b := fun (sof eof : Bool) => ({ channel := 62, data := zeros 32, sof := sof, len := 64, eof := eof, validBytes := 0, trunc := false } : StreamBeat)
    let f : Frame := { number := 0, len := 64, words := 1, got := zeros 32 }
    let s := { streams with chans := tmod streams.chans 62 (fun c => { c with frames := [f] }) }
    let full := { s with chans := tmod s.chans 62 (fun c => { c with frames := [{ f with words := 2048 }] }) }
    let shut := fun (x : State) (n : Nat) => !(chanOf x n).isOpen || (chanOf x n).closing || !(tgetD x.ports (chanOf x n).owner {}).isOpen
    (shut base 62 = true ∧ shut s 62 = false ∧ shut s 63 = false ∧ openFrameOf (chanOf s 63) = none ∧ openFrameOf (chanOf s 62) = some f
      ∧ s.pins.powered = true ∧ s.pins.coreInReset = false ∧ (b true false).data.length = 32)
    ∧ (openFrameOf (chanOf (beginFrame 63 64 s) 63)).isSome = true ∧ (openFrameOf (chanOf (beginFrame 62 64 (closeFrame 62 0 (truncFrame 62 f s))) 62)).isSome = true
    ∧ (frameAlive s f = true ∧ f.got.length < f.len ∧ chanWords s (chanOf s 62) < 2048 ∧ frameJob s f = none)
    ∧ (frameAlive full f = true ∧ 2048 ≤ chanWords full (chanOf full 62)) := by decide
theorem test_time_cases :
    let r : TimeSample := { sec := 0, ns := 0, qual := 3 }
    let n := { up with tim := { following with following := false } }
    let p := { up with tim := { up.tim with pending := true, pendHold := true } }
    (n.tim.usable = true ∧ n.tim.following = false ∧ n.tim.pending = false ∧ sampleBad r = false)
    ∧ (up.pins.powered = true ∧ p.tim.usable = false ∧ p.tim.minRank ≤ qualRank p.fuse.lifecycle r.qual ∧ p.tim.pending = true ∧ p.tim.pendHold = true) := by decide
theorem test_event_sources_present :
    srcPresent false 0x0A2 = true ∧ srcPresent false 0x0D3 = true ∧ srcPresent true 0x068 = true ∧ srcPresent false 0x068 = false := by decide
theorem test_late_writes :
    let d := { owned .deposed with baton := { (owned .deposed).baton with late := some (1, 0) } }
    (owned .deposed).baton.late = none ∧ (scribesOn d = true ∧ scribeState d.baton 1 = .deposed ∧ d.baton.late = some (1, 0)
      ∧ batonAgrees d.baton = true ∧ ¬(batonOwner d = 1 ∧ 0 = batonEpoch d)) := by decide
theorem test_retention :
    let e := { up with pwr := { up.pwr with entering := some .p3r } }
    let w := { up with pwr := { up.pwr with state := .p3r, waking := true } }
    (e.pwr.entering = some .p3r ∧ coreOn e = true ∧ deepIdle e = true ∧ treeStored e = true) ∧ (coreOn w = true ∧ w.pwr.waking = true ∧ w.pwr.state = .p3r) := by decide
theorem test_training :
    let l := { lanes with link := { lanes.link with training := true, lanes := tmap lanes.link.lanes (fun n x => { x with locked := n != 32, marker := some n }) } }
    lanesOn l = true ∧ (laneOf l 32).locked = false ∧ l.link.training = true ∧ lanesLocked (modLane 32 (fun x => { x with locked := true }) l) = 34
    ∧ lanesLocked (modLane 32 (fun x => { x with locked := true }) lanes) ≠ 34 := by decide
theorem test_idle_cycle :
    up.pending = [] ∧ up.jobs = [] ∧ up.link.training = false ∧ up.pwr.porch = [] ∧ up.pwr.crpWait = [] := by decide
theorem test_reload :
    let r := { up with fw := { up.fw with rollLeft := [9] } }
    (unitOf r 9).role = .spare ∧ (jobsOn r 9).isEmpty = true ∧ kindBusy r (unitKind 9) = false ∧ r.fw.rollLeft.contains 9 = true := by decide
theorem test_retried :
    let s := jobAt 0x01 0 0x10 (.ring 8 0) .queued
    let t := { s with jobs := tmap s.jobs (fun _ j => { j with retried := true }) }
    (readyEnd t 1 (opIs 1)).any (fun j => j.retried) = true ∧ (readyEnd s 1 (opIs 1)).any (fun j => !j.retried) = true := by decide
/-- A deferred job whose port is closed is refused where it stands. -/
theorem test_refused_now :
    let d := { drawing with jobs := tmap drawing.jobs (fun _ j => { j with phase := .held }), ports := [] }
    (nextFetched d).any (fun e => nowRefused d e.2 && descStatus d e.2 != .ok) = true
    ∧ (jobOf drawing 1).any (fun j => (sessionOf drawing j.port j.desc.handle).any (fun r => drawCheck drawing r j == .ok)) = true := by decide +kernel
theorem test_binding_fence :
    let f := { pk 0x0207 5 [] with started := true, fence := some { obj := .binding 0x400000 8, revoke := false, jobs := [], count := 0 } }
    f.opcode = 0x0207 ∧ running (cmd f base) = true ∧ (drained (cmd f base)).isSome = true := by decide

end Sys2Proof.Tests
end

section
/-! SUPPORT. Accesses of the control window at offsets that no register group defines (00 R11). An offset is defined where its group lists
it or where it lies in the fault bitmaps; every register that a write or an RC read acts on is listed, so at any other offset the write and
the clearing of a read leave the state alone. -/
namespace Sys2Proof.Proofs.Scope
open Sys2Proof Sys2Proof.Machine Sys2Proof.Safety

variable {s : State} {off : Nat}

/-! ### Accesses at the pins -/

/-- An access that the port accepts runs at once (02 R40). -/
theorem crpPin_of_takes (h : Takes s) (x : CrpAccess) : crpPin x s = crpDo x s := by
  obtain ⟨hpins, haon, hready, hwait⟩ := h
  simp [crpPin, crpPresent, hpins, haon, hready, hwait]

theorem exec_registerWrite_of_writes (a : BitVec 19) (l : Lanes) (d : Word) (h : Writes (8 * a.toNat) s) :
    exec (.registerWrite a l d) s = .next (writeServed (8 * a.toNat) (laneMask l) d s) := by
  obtain ⟨htakes, hgate⟩ := h
  change Host.Outcome.next (crpPin (.write (8 * a.toNat) l d) s) = _
  simp [crpPin_of_takes htakes, crpDo, writeReg, hgate]

theorem exec_rcCounterRead_of_reads (a : BitVec 19) (l : Lanes) (h : Reads (8 * a.toNat) s) :
    exec (.rcCounterRead ⟨false, a⟩ l) s = .next (readServed (8 * a.toNat) (laneMask l) s) := by
  obtain ⟨htakes, hgate⟩ := h
  change Host.Outcome.next (crpPin (.read (8 * a.toNat) l) s) = _
  simp [crpPin_of_takes htakes, crpDo, readReg, hgate]

/-! ### The offsets that a group lists -/

/-- The group of the offset lists it as a register. -/
def groupDefines (off : Nat) : Bool := (groupWords off).any (fun r => r.1 == off)

/-- A listed offset has a word in every state, so an offset without one is not listed. -/
theorem groupDefines_eq_false_of_regWord_eq_none (h : regWord s off = none) : groupDefines off = false := by
  unfold regWord at h
  split at h
  · cases h
  · simpa [groupDefines, List.find?_eq_none] using h

theorem groupDefines_mailbox : ∀ i < 16, groupDefines (0x1080 + 8 * i) = true := by decide

/-- The RC counters of a nib, a quill and a hook, at the same three offsets of their pages (19 R453). -/
theorem groupDefines_unitCounter :
    ∀ q ∈ [0x31, 0x32, 0x33], ∀ r ∈ [0x18, 0x20, 0x28], groupDefines (0x100 * q + r) = true := by decide

/-! ### Writes -/

section Undefined
variable (h : groupDefines off = false) (m d : BitVec 64)
include h

theorem writeGlb_of_undefined : writeGlb off m d s = s := by
  unfold writeGlb
  split
  case h_14 => rfl
  all_goals exact absurd h (by decide)

theorem writeCmd_of_undefined (haligned : 8 ∣ off) : writeCmd off m d s = s := by
  unfold writeCmd
  split
  case h_9 =>
    refine if_neg fun hmbox => ?_
    have hlisted := groupDefines_mailbox ((off - 0x1080) / 8) (by omega)
    rw [show 0x1080 + 8 * ((off - 0x1080) / 8) = off by omega, h] at hlisted
    contradiction
  all_goals exact absurd h (by decide)

theorem writeSel_of_undefined : writeSel off m d s = s := by
  unfold writeSel
  split
  case h_9 => rfl
  all_goals exact absurd h (by decide)

theorem writeRest_of_undefined : writeRest off m d s = s := by
  unfold writeRest
  split
  case h_13 => rfl
  all_goals exact absurd h (by decide)

theorem writeServed_of_undefined (haligned : 8 ∣ off) : writeServed off m d s = s := by
  rw [writeServed, writeGlb_of_undefined h, writeCmd_of_undefined h m d haligned, writeSel_of_undefined h, writeRest_of_undefined h,
    ite_self, ite_self, ite_self]

/-! ### Reads -/

theorem clearRead_of_undefined : clearRead off m s = s := by
  unfold clearRead
  split
  case h_19 =>
    refine if_neg fun ⟨hkind, hcounter, _⟩ => ?_
    have hlisted := groupDefines_unitCounter (off / 0x100) (by simpa using hkind) (off % 0x100) (by simpa using hcounter)
    rw [Nat.div_add_mod, h] at hlisted
    contradiction
  all_goals exact absurd h (by decide)

theorem captureRead_of_undefined : captureRead off m s = s := by
  refine if_neg fun ⟨hcapture, _⟩ => ?_
  subst hcapture
  exact absurd h (by decide)

end Undefined

theorem readServed_of_regWord_eq_none (h : regWord s off = none) (m : BitVec 64) :
    readServed off m s = { s with regs := { s.regs with rdata := 0, rerr := false } } := by
  have hlist := groupDefines_eq_false_of_regWord_eq_none h
  simp [readServed, captureRead_of_undefined hlist, clearRead_of_undefined hlist, h]

/-! ### The statement -/

/-- Settles O60: at an undefined offset a served write finds no register to act on, and a served read finds no word and nothing to clear. -/
theorem undefinedOffsetsReadZero : Obligations.UndefinedOffsetsReadZero := by
  intro s a l d hundef
  constructor
  · intro hreads
    rw [exec_rcCounterRead_of_reads a l hreads, readServed_of_regWord_eq_none hundef]
  · intro hwrites
    rw [exec_registerWrite_of_writes a l d hwrites,
      writeServed_of_undefined (groupDefines_eq_false_of_regWord_eq_none hundef) _ _ (Nat.dvd_mul_right 8 _)]

end Sys2Proof.Proofs.Scope
end

section
/-! SUPPORT. The gate that a doorbell passes when it reaches Skein (02 R43, 06 R177): its port is open and its stream ID is that port's;
and what a rejected doorbell changes. -/
namespace Sys2Proof.Proofs.Doorbells
open Sys2Proof Sys2Proof.Machine

variable {s : State} {b : Bell}

/-- The state once the port of page `page` has counted one more rejected doorbell (CPW_DB_REJECT). -/
def countReject (page : Nat) (s : State) : State :=
  { s with ports := tmodD s.ports page {} (fun p => { p with dbReject := satAdd 32 p.dbReject 1 }) }

/-- The rejected doorbell is counted in its own port. -/
theorem countReject_port (page : Nat) (s : State) :
    tgetD (countReject page s).ports page {} =
      { tgetD s.ports page {} with dbReject := satAdd 32 (tgetD s.ports page {}).dbReject 1 } :=
  tgetD_tput_same ..

/-- Counting a rejected doorbell leaves the other ports alone. -/
theorem countReject_other_port (page : Nat) (s : State) {k : Nat} (h : k ≠ page) :
    tget (countReject page s).ports k = tget s.ports k :=
  tget_tput_other _ _ h

theorem rejectBell_reported (page off : Nat) (s : State) :
    rejectBell page off true s = raiseEvent (portSrc page) kDoorbellReject off (countReject page s) := rfl

/-- A doorbell to a closed port (06 R177), or with another stream ID than its port's (02 R43), is rejected. -/
theorem ringBell_of_refused (h : (tgetD s.ports b.page {}).isOpen = false ∨ b.sid ≠ (tgetD s.ports b.page {}).sid) :
    ringBell b s = rejectBell b.page (8 * b.slot) true s := by
  have hgate : (!(tgetD s.ports b.page {}).isOpen || b.sid != (tgetD s.ports b.page {}).sid) = true := by simpa using h
  exact if_pos hgate

/-- A doorbell with the stream ID of its open port goes on, by its slot and bit 63 as an indirect or a direct one (04 Table 4-2). -/
theorem ringBell_of_accepted (hopen : (tgetD s.ports b.page {}).isOpen = true) (hsid : b.sid = (tgetD s.ports b.page {}).sid) :
    ringBell b s = if b.slot = 511 ∧ b.data.getLsbD 63 = true then indirectBell b s else directBell b s := by
  have hgate : ¬(!(tgetD s.ports b.page {}).isOpen || b.sid != (tgetD s.ports b.page {}).sid) = true := by
    simpa [hsid] using hopen
  exact if_neg hgate

/-- Settles O59: a refused doorbell is counted in its port and raises the port's event, which touches neither rings nor Skein's queues. -/
theorem doorbellsNeedTheirStreamId : Obligations.DoorbellsNeedTheirStreamId := by
  intro s b
  refine ⟨fun hrefused => ?_, ringBell_of_accepted⟩
  have hbell : ringBell b s = raiseEvent (portSrc b.page) kDoorbellReject (8 * b.slot) (countReject b.page s) :=
    (ringBell_of_refused hrefused).trans (rejectBell_reported ..)
  refine ⟨countReject b.page s, hbell, rfl, fun _ => countReject_other_port b.page s, countReject_port b.page s, ?_, ?_⟩
  · rw [hbell]; rfl
  · rw [hbell]; rfl

end Sys2Proof.Proofs.Doorbells
end

section
/-! SUPPORT. The completion ring's side of the indirect doorbell (04 R97, R100): which writes to it reach the test of the new head, and
what the two outcomes of that test leave. -/
namespace Sys2Proof.Proofs.HeadDoorbell
open Sys2Proof Sys2Proof.Machine Sys2Proof.Proofs.Doorbells

variable {s : State} {b : Bell} {r : Ring}

/-- 04 R100: the entries from the ring's old head to `h` are more than its posted ones, so that taking `h` would free more than N − 1. -/
def passesTail (r : Ring) (h : Nat) : Prop :=
  (r.tail + 2 ^ r.log2 - r.head % 2 ^ r.log2) % 2 ^ r.log2 < (h + 2 ^ r.log2 - r.head % 2 ^ r.log2) % 2 ^ r.log2

theorem rejectBell_unreported (page off : Nat) (s : State) : rejectBell page off false s = countReject page s := rfl

/-- A KIND 1 write that names a completion ring of its own port, with its reserved bits 0, is judged by its head alone (04 R97). -/
theorem indirectBell_of_head (hring : tget s.rings (bits b.data.toNat 32 20) = some r) (hport : r.port = b.page) (hcpl : r.isCpl = true)
    (hkind : bits b.data.toNat 62 1 = 1) (hlow : bits b.data.toNat 16 16 = 0) (hhigh : bits b.data.toNat 52 10 = 0) :
    indirectBell b s = acceptHead b.page (8 * b.slot) (bits b.data.toNat 32 20) (bits b.data.toNat 0 16) r s := by
  simp [indirectBell, hring, hport, hcpl, hkind, hlow, hhigh]

section Live
variable (page off id : Nat) {h : Nat} (hlive : r.draining = false)
include hlive

/-- A head outside the ring, or past its tail, is discarded and counted, with no event. -/
theorem acceptHead_of_invalid (hbad : 2 ^ r.log2 ≤ h ∨ passesTail r h) : acceptHead page off id h r s = countReject page s := by
  rw [acceptHead, if_neg (by simp [hlive])]
  exact (if_pos hbad).trans (rejectBell_unreported ..)

/-- A head in the ring and not past its tail becomes the ring's head. -/
theorem acceptHead_of_valid (hin : h < 2 ^ r.log2) (hfree : ¬ passesTail r h) :
    acceptHead page off id h r s = { s with rings := tput s.rings id { r with head := h } } := by
  rw [acceptHead, if_neg (by simp [hlive])]
  exact if_neg (not_or.mpr ⟨Nat.not_le.mpr hin, hfree⟩)

end Live

/-- Settles O58: past the checks of 04 R97, the new head decides, and its test has the two outcomes of R100. -/
theorem headDoorbellSetsOrDiscards : Obligations.HeadDoorbellSetsOrDiscards := by
  intro s b r d id n hring hport hcpl hkind hlow hhigh hlive
  have hjudged := indirectBell_of_head hring hport hcpl hkind hlow hhigh
  constructor
  · intro hbad
    exact hjudged.trans (acceptHead_of_invalid _ _ _ hlive hbad)
  · intro hin hfree
    exact hjudged.trans (acceptHead_of_valid _ _ _ hlive hin (Nat.not_lt.mpr hfree))

end Sys2Proof.Proofs.HeadDoorbell
end

section
/-! SUPPORT. What the two resets leave of the rings: no ring, and nothing that Skein, the job table or a merge under way held of one
(04 R105). -/
namespace Sys2Proof.Proofs.RingReset
open Sys2Proof Sys2Proof.Machine

/-- No ring is created, and no part of Skein holds work of one (04 R105). -/
structure RingsAbsent (t : State) : Prop where
  rings : t.rings = []
  skein : t.skein = {}
  jobs : t.jobs = []
  merge : t.merge = []

theorem RingsAbsent.tget_rings {t : State} (h : RingsAbsent t) (id : Nat) : tget t.rings id = none := by
  rw [h.rings]; rfl

theorem coreReset_ringsAbsent (s : State) : RingsAbsent (coreReset s) := ⟨rfl, rfl, rfl, rfl⟩

theorem fullReset_ringsAbsent (powered : Bool) (s : State) : RingsAbsent (fullReset powered s) := ⟨rfl, rfl, rfl, rfl⟩

/-- A powered block out of reset takes CORE_RST_N, with the clocks that were lost counted as present again (log 39). -/
theorem exec_coreResetAssert_of_running {s : State} (hpower : s.pins.powered = true) (hout : s.pins.coreInReset = false) :
    exec .coreResetAssert s = .next (coreReset { s with pins := { s.pins with pllLost := false, laneRefLost := false } }) := by
  change execCoreResetAssert s = _
  simp [execCoreResetAssert, aonOn, hpower, hout]

/-- Settles O54: CORE_RST_N acts on a powered block out of reset, AON_PORST_N on every block, and either leaves no ring. -/
theorem resetsLeaveEveryRingAbsent : Obligations.ResetsLeaveEveryRingAbsent := by
  constructor
  · intro s hpower hout
    have habsent := coreReset_ringsAbsent { s with pins := { s.pins with pllLost := false, laneRefLost := false } }
    exact ⟨_, exec_coreResetAssert_of_running hpower hout, habsent.tget_rings, habsent.skein, habsent.jobs, habsent.merge⟩
  · intro s
    have habsent := fullReset_ringsAbsent true s
    exact ⟨_, rfl, habsent.tget_rings, habsent.skein, habsent.jobs, habsent.merge⟩

end Sys2Proof.Proofs.RingReset
end

section
/-! SUPPORT. What CP_SET_QUOTA makes of a port's record and of its two buckets (05 R145), and that it touches that record alone: the held
jobs of the port keep their t_tok because the job table stays as it is. -/
namespace Sys2Proof.Proofs.SetQuota
open Sys2Proof Sys2Proof.Machine Sys2Proof.Safety Sys2Proof.Laws

/-! ### The level of one bucket -/

section Level
variable {old rate depth : Nat} {lvl : Int}

theorem newLevel_of_limited (hold : old ≠ 0) : newLevel old rate depth lvl = min lvl ((depth * bucketUnit : Nat) : Int) := if_pos hold

theorem newLevel_of_raised (hold : old = 0) (hrate : rate ≠ 0) : newLevel old rate depth lvl = ((depth * bucketUnit : Nat) : Int) :=
  (if_neg (fun hne => hne hold)).trans (if_pos hrate)

end Level

/-! ### The port's record -/

section Port
variable {now : Nat} {e : CmdEntry} {p : CPort}

/-- The byte bucket, brought to `now` at the old rate, is fitted to the depth of the new quotas. -/
theorem setQuota_lvlBytes : (setQuota now e p).lvlBytes =
    newLevel p.bytesPerS (setQuota now e p).bytesPerS (depthBytes (setQuota now e p)) (bucketsAt now p).lvlBytes := rfl

/-- The Hook bucket in the same way. -/
theorem setQuota_lvlHook : (setQuota now e p).lvlHook =
    newLevel p.hookPerS (setQuota now e p).hookPerS (depthHook (setQuota now e p)) (bucketsAt now p).lvlHook := rfl

end Port

/-! ### The tables of ports after a change of one port -/

section Ports
variable {s : State} {k port : Nat} {f : CPort → CPort}

theorem tget_modPort_same {p : CPort} (h : tget s.ports port = some p) : tget (modPort port f s).ports port = some (f p) := by
  simp [tget_tmod, h]

theorem tget_modPort_other (h : k ≠ port) : tget (modPort port f s).ports k = tget s.ports k := by
  simp [tget_tmod, h]

end Ports

/-! ### The command -/

/-- Marking the command as started is no part of what it changes: its commit logs the same change of the ports. -/
theorem logCommit_modPort_atHand (e : CmdEntry) (port : Nat) (f : CPort → CPort) (s : State) :
    let t := logCommit e (modPort port f (atHand e s))
    t = { modPort port f s with cmd := { s.cmd with exec := t.cmd.exec, commitLog := t.cmd.commitLog } } :=
  logCommit_only e _ (modPort port f s) rfl

/-- A packet at hand is answered OK with its port's quotas set and its buckets fitted. -/
theorem cpSetQuota_answers {s : State} {e : CmdEntry} (h : Head 0x0103 s e) :
    Answers .cpSetQuota e .ok 0 [] s (modPort e.port (setQuota s.clk.now e) s) := by
  have hexec : exec .cpSetQuota s =
      .next (answer (begun e) .ok [] (logCommit (begun e) (modPort e.port (setQuota s.clk.now e) (atHand e s)))) :=
    congrArg Host.Outcome.next (onCommand_head h _)
  exact ⟨_, hexec, answer_done e .ok [] _ _ (logCommit_modPort_atHand (begun e) e.port _ s)⟩

/-- Settles O56: the command sets its port's record to `setQuota`, and the old rate of each bucket decides its new level. -/
theorem setQuotaRefitsBuckets : Obligations.SetQuotaRefitsBuckets := by
  intro s e p hhead hport
  refine ⟨modPort e.port (setQuota s.clk.now e) s, setQuota s.clk.now e p, cpSetQuota_answers hhead, tget_modPort_same hport, rfl,
    fun _ => tget_modPort_other, rfl, rfl, rfl, rfl, rfl, rfl, rfl, ?_, ?_, ?_, ?_⟩
  · intro hlimited
    exact setQuota_lvlBytes.trans (newLevel_of_limited hlimited)
  · intro hunlimited hraised
    exact setQuota_lvlBytes.trans (newLevel_of_raised hunlimited hraised)
  · intro hlimited
    exact setQuota_lvlHook.trans (newLevel_of_limited hlimited)
  · intro hunlimited hraised
    exact setQuota_lvlHook.trans (newLevel_of_raised hunlimited hraised)

end Sys2Proof.Proofs.SetQuota
end

section
/-! SUPPORT. What FLT_ACK makes of the record that it names (12 R320), and that it touches that record alone. -/
namespace Sys2Proof.Proofs.Acknowledge
open Sys2Proof Sys2Proof.Machine Sys2Proof.Safety Sys2Proof.Laws

/-- The record of a source once host software has acknowledged it: ACKED is set and the reaction timer stops (12 R320). -/
def ackSrc (r : Src) : Src := { r with acked := true, timer := none }

/-! ### One record of the sources changed -/

section Sources
variable {s : State} {n k : Nat} {f : Src → Src}

/-- An unrecorded source counts as one of which nothing was recorded, so a severe source is in the table. -/
theorem exists_tget_of_severe (h : (srcOf s.flt n).severe = true) : ∃ r, tget s.flt.sources n = some r := by
  cases hrecord : tget s.flt.sources n with
  | some r => exact ⟨r, rfl⟩
  | none => simp [srcOf, tgetD, hrecord] at h

theorem srcOf_modSrc_same (h : (srcOf s.flt n).severe = true) : srcOf (modSrc n f s).flt n = f (srcOf s.flt n) := by
  obtain ⟨r, hrecord⟩ := exists_tget_of_severe h
  simp [srcOf, tgetD, tget_tmod, hrecord]

theorem srcOf_modSrc_other (h : k ≠ n) : srcOf (modSrc n f s).flt k = srcOf s.flt k := by
  simp [srcOf, tgetD, tget_tmod, h]

end Sources

/-! ### What the command does -/

/-- The state once FLT_ACK has named source `n`: only a severe source that is not yet acknowledged changes (12 R320). -/
def acknowledge (n : Nat) (s : State) : State :=
  if (srcOf s.flt n).severe && !(srcOf s.flt n).acked then modSrc n ackSrc s else s

section Effect
variable {s : State} {n : Nat}

theorem acknowledge_of_severe (hsevere : (srcOf s.flt n).severe = true) (hacked : (srcOf s.flt n).acked = false) :
    acknowledge n s = modSrc n ackSrc s := if_pos (by simp [hsevere, hacked])

theorem acknowledge_of_other (h : (srcOf s.flt n).severe = false ∨ (srcOf s.flt n).acked = true) : acknowledge n s = s := by
  refine if_neg ?_
  rcases h with hmild | hacked
  · simp only [hmild, Bool.false_and, Bool.false_eq_true, not_false_eq_true]
  · simp only [hacked, Bool.not_true, Bool.and_false, Bool.false_eq_true, not_false_eq_true]

/-- Marking the command as started touches no source. -/
theorem acknowledge_atHand (e : CmdEntry) : acknowledge n (atHand e s) = atHand e (acknowledge n s) := by
  rw [acknowledge, acknowledge, apply_ite (atHand e)]
  rfl

end Effect

/-- A packet at hand is answered OK with the source that it names acknowledged. -/
theorem fltAck_answers {s : State} {e : CmdEntry} (hhead : Head 0x0502 s e) :
    Answers .fltAck e .ok 0 [] s (acknowledge (par e 0 2) s) := by
  have hexec : exec .fltAck s = .next (answer (begun e) .ok [] (logCommit (begun e) (acknowledge (par e 0 2) (atHand e s)))) :=
    congrArg Host.Outcome.next (onCommand_head hhead _)
  rw [acknowledge_atHand] at hexec
  exact ⟨_, hexec, answer_done e .ok [] _ _ (logCommit_only (begun e) _ _ rfl)⟩

/-- Settles O52: a severe source has a record in the table, and the command sets that record to `ackSrc` or changes nothing. -/
theorem fltAckAcknowledgesSevereSource : Obligations.FltAckAcknowledgesSevereSource := by
  intro s e hhead n r
  have hanswers : Answers .fltAck e .ok 0 [] s (acknowledge n s) := fltAck_answers hhead
  constructor
  · rintro ⟨hsevere, hacked⟩
    rw [acknowledge_of_severe hsevere hacked] at hanswers
    have hack : srcOf (modSrc n ackSrc s).flt n = ackSrc r := srcOf_modSrc_same hsevere
    refine ⟨modSrc n ackSrc s, hanswers, hack, ?_, fun _ => srcOf_modSrc_other, rfl⟩
    rw [hack]
    exact Bool.and_false _
  · intro hother
    rwa [acknowledge_of_other hother] at hanswers

end Sys2Proof.Proofs.Acknowledge
end

section
/-! SUPPORT. A packet that fails a check of 03 R463 at its take-up is refused, and for FLT_INJECT the lifecycle state is such a check
(12 R328; 18 Table 18-1). -/
namespace Sys2Proof.Proofs.InjectionLimits
open Sys2Proof Sys2Proof.Machine Sys2Proof.Safety Sys2Proof.Laws

/-! ### Refusals at take-up -/

section TakeUp
variable {s : State} {e : CmdEntry} {st : Status} {detail lc : Nat} {bytes : Bytes}

/-- The packet that a check refuses is answered with the check's status and DETAIL, and uses up its command number. -/
theorem takeUp1_done_of_fault (h : takeUpFault s e = some (st, detail)) :
    Done e (replyTo s e st detail [] false) { s with cmd := { s.cmd with nextCid := s.cmd.nextCid + 1 } } (takeUp1 e s) := by
  have hrefused : takeUp1 e s = refuseAt e st detail { s with cmd := { s.cmd with nextCid := s.cmd.nextCid + 1 } } := by
    simp only [takeUp1, h]
  rw [hrefused]
  exact finish_done e _ _

/-- The header, the opcode, the scope and the lifecycle state are checked before all else (03 R463). -/
theorem takeUpFault_of_packetFault1 (h : packetFault1 s.fuse.lifecycle e.bytes = some (st, detail)) : takeUpFault s e = some (st, detail) := by
  simp only [takeUpFault, h]

/-- A known command with a sound header that the lifecycle state forbids is NOT_PERMITTED, as it is where its scope is wrong. -/
theorem packetFault1_of_forbidden (hheader : headerFault bytes = none) (hknown : (opInfo (fld bytes 0 2)).isSome)
    (hforbidden : lifecycleAllows lc (fld bytes 0 2) bytes = false) : packetFault1 lc bytes = some (.notPermitted, 0) := by
  obtain ⟨info, hinfo⟩ := Option.isSome_iff_exists.mp hknown
  simp [packetFault1, hheader, hinfo, hforbidden]

end TakeUp

/-! ### FLT_INJECT and the lifecycle state -/

/-- In FIELD the Scribe pair (class 7) and the sources of class 8 are closed to injection. -/
theorem lifecycleAllows_inject_field {bytes : Bytes} (h : srcClass (fld bytes 16 2) = some 7 ∨ srcClass (fld bytes 16 2) = some 8) :
    lifecycleAllows 2 0x0505 bytes = false := by
  rcases h with h | h <;> simp [lifecycleAllows, h]

/-- In SCRAPPED the group 0x05xx stays open but for FLT_INJECT. -/
theorem lifecycleAllows_inject_scrapped (bytes : Bytes) : lifecycleAllows 4 0x0505 bytes = false := rfl

/-- Settles O57: in either state the lifecycle check fails, after the header and before the parameters, so the take-up refuses the packet. -/
theorem faultInjectionIsLimitedByLifecycle : Obligations.FaultInjectionIsLimitedByLifecycle := by
  intro s e hop hheader hstate
  have hforbidden : lifecycleAllows s.fuse.lifecycle (fld e.bytes 0 2) e.bytes = false := by
    rw [hop]
    rcases hstate with ⟨hfield, hclass⟩ | hscrapped
    · rw [hfield]
      exact lifecycleAllows_inject_field hclass
    · rw [hscrapped]
      exact lifecycleAllows_inject_scrapped e.bytes
  have hknown : (opInfo (fld e.bytes 0 2)).isSome := by
    rw [hop]
    rfl
  exact takeUp1_done_of_fault (takeUpFault_of_packetFault1 (packetFault1_of_forbidden hheader hknown hforbidden))

end Sys2Proof.Proofs.InjectionLimits
end

section
/-! SUPPORT. What one command can do to the queue, the fuses, the cycle count, E and the sound parts of the state: one inversion of the
dispatch, `exec_effect`, from which every invariant of a step follows. -/
namespace Sys2Proof.Proofs.Invariants
open Sys2Proof Sys2Proof.Machine Sys2Proof.Safety

variable {s t : State} {i : Instr}

/-! ### What `Keeps` says, part by part -/

section Kept
variable (h : Keeps s t)
include h

theorem pending_of_keeps : t.pending = s.pending := h.1
theorem fuse_of_keeps : t.fuse = s.fuse := h.2.1
theorem now_of_keeps : t.clk.now = s.clk.now := let ⟨_, _, hnow, _⟩ := h; hnow
theorem e_of_keeps : t.tim.e = s.tim.e := let ⟨_, _, _, he, _⟩ := h; he
theorem faults_of_keeps : FaultsSound s.flt → FaultsSound t.flt := let ⟨_, _, _, _, hfaults, _⟩ := h; hfaults
theorem baton_of_keeps : BatonSound s.baton → BatonSound t.baton := let ⟨_, _, _, _, _, hbaton, _⟩ := h; hbaton
theorem leases_of_keeps : LeasesSound s.eng.leases → LeasesSound t.eng.leases := let ⟨_, _, _, _, _, _, hleases⟩ := h; hleases

end Kept

/-! ### The time-keeper moves E forward only (11 R300) -/

section EpochTime
variable {e : Nat} (r : TimeSample) {t : Tim} (h : e ≤ t.e)
include h

theorem le_discipline_e : e ≤ (discipline r t).e := by
  simp only [discipline]
  split
  · exact Nat.le_trans h (Nat.le_max_left ..)
  · split
    · exact Nat.le_trans h (Nat.le_max_left ..)
    · exact h

theorem le_takeUp_e (rank : Nat) : e ≤ (takeUp rank r t).e := le_discipline_e r h

theorem le_ppsEdge_e (src : Bool) (now : Nat) : e ≤ (ppsEdge src now r t).e := by
  simp only [ppsEdge]
  split
  · exact h
  · split
    · exact le_discipline_e r h
    · exact le_takeUp_e r h _

theorem le_whilePending_e (rank : Nat) : e ≤ (whilePending rank r t).e := by
  simp only [whilePending]
  split
  · exact le_takeUp_e r h rank
  · split <;> exact h

theorem le_loseInput_e : e ≤ (loseInput t).e := by
  simp only [loseInput]
  split
  · split <;> exact h
  · exact h

theorem le_commitSwitch_e (src : Bool) (now : Nat) : e ≤ (commitSwitch src now t).e := by
  simp only [commitSwitch]
  split <;> exact h

theorem le_tickTim_e : e ≤ (tickTim t).e := Nat.le_trans h (Nat.le_max_left ..)

end EpochTime

/-- The closing of the epochs that a forward step passes leaves E as the time-keeper set it. -/
theorem onTime_e (f : Tim → Tim) (h : s.tim.e ≤ (f s.tim).e) : s.tim.e ≤ (onTime f s).tim.e := by
  simp only [onTime]
  split
  · split
    · rw [e_of_keeps (closeKey_keeps _ _ (closeAcct_keeps _ _ (keeps_refl _)))]
      exact h
    · exact h
  · exact Nat.le_refl _

/-! ### The effect of a command -/

/-- The four kinds of effect that a command can have on what `Keeps` names: none; a move of the time, E not backward; a reset of the whole
block; and the completed record of a lifecycle transition (18 R441). -/
inductive Effect (i : Instr) (s t : State) : Prop where
  | none (kept : Keeps s t)
  | time (forward : s.tim.e ≤ t.tim.e) (kept : Keeps { s with tim := t.tim } t)
  | reset (row : i = .aonPowerOnReset ∨ i = .vddAonRemoved)
      (kept : Keeps { s with clk := { s.clk with now := 0 }, tim := State.reset.tim } t)
  | transition (r : NvmResult) (o : NvmOp) (rest : List NvmOp) (a b n : Nat) (d : Bytes) (row : i = .nvmOperationComplete r)
      (head : s.nvm.ops = o :: rest) (work : o.work = .transition a b n d)
      (kept : Keeps { s with fuse := { s.fuse with lifecycle := if s.fuse.lifecycle = a then b else s.fuse.lifecycle } } t)

theorem Effect.of_keepsO (hkeeps : KeepsO s (exec i s)) (h : exec i s = .next t) : Effect i s t := .none (hkeeps t h)

/-- A row of the time-keeper applies a change that does not take E back. -/
theorem effect_onTime {f : Tim → Tim} {u : State} (htim : u.tim = s.tim) (hkept : Keeps s u) (hf : ∀ t, t.e ≤ (f t).e) :
    Effect i s (onTime f u) :=
  .time (htim ▸ onTime_e f (hf _)) (onTime_keeps s f u hkept)

theorem effect_timeInputUnusable (lost : Bool) (h : exec (.timeInputUnusable lost) s = .next t) :
    Effect (.timeInputUnusable lost) s t := by
  refine .time ?_ (execTimeInputUnusable_keepsT lost s t h)
  cases h
  have hforward : s.tim.e ≤ (onTime loseInput s).tim.e := onTime_e _ (le_loseInput_e (Nat.le_refl _))
  split
  · exact hforward
  · exact hforward

/-- Verified, the record of a transition changes LIFECYCLE and resets the islands; what the NVM counted before it stays out of `Keeps`. -/
theorem verified_transition_keeps {o : NvmOp} {a b n : Nat} {d : Bytes} (hwork : o.work = .transition a b n d) (rest : List NvmOp)
    {u : State} (hkept : Keeps s u) :
    Keeps { s with fuse := { s.fuse with lifecycle := if s.fuse.lifecycle = a then b else s.fuse.lifecycle } } (verified o rest u) := by
  have hset : verified o rest u = transitionEffect a b n d (setOps rest u) := by
    simp only [verified, hwork]
  obtain ⟨hq, hfuse, hn, he, hf, hb, hl⟩ := hkept
  rw [hset]
  refine Keeps.trans (b := { u with fuse := { u.fuse with lifecycle := if u.fuse.lifecycle = a then b else u.fuse.lifecycle } })
    ⟨hq, ?_, hn, he, hf, hb, hl⟩ (transitionEffect_keeps a b n d (setOps rest u))
  rw [hfuse]

theorem effect_nvmOperationComplete (r : NvmResult) (h : exec (.nvmOperationComplete r) s = .next t) :
    Effect (.nvmOperationComplete r) s t := by
  by_cases hrecord : ∃ o rest a b n d, s.nvm.ops = o :: rest ∧ o.work = .transition a b n d
  · obtain ⟨o, rest, a, b, n, d, hops, hwork⟩ := hrecord
    have hdone : ∀ u, Keeps s u → Effect (.nvmOperationComplete r) s (verified o rest u) := fun u hu =>
      .transition r o rest a b n d rfl hops hwork (verified_transition_keeps hwork rest hu)
    have hfree : Keeps s (useFree 1 s) := useFree_keeps s 1 s (keeps_refl s)
    cases h
    simp only [hops]
    split
    · exact .none (keeps_refl s)
    · split
      · exact .none (nvmFail_keeps s o rest _ hfree)
      · split
        · exact hdone _ hfree
        · exact hdone _ (correctSector_keeps s _ _ hfree)
        · exact .none (failedVerify_keeps s _ o rest _ hfree)
        · exact .none (failedVerify_keeps s _ o rest _ (uncorrectableWord_keeps s _ _ hfree))
  · refine .none (execNvmOperationComplete_keeps r s (fun o rest hops a b n d hwork => ?_) t h)
    exact hrecord ⟨o, rest, a, b, n, d, hops, hwork⟩

/-- What a command does to the parts that `Keeps` names. -/
theorem exec_effect (h : exec i s = .next t) : Effect i s t := by
  cases i
  case aonPowerOnReset => cases h; exact .reset (.inl rfl) (fullReset_keeps true s)
  case vddAonRemoved => cases h; exact .reset (.inr rfl) (fullReset_keeps false s)
  case nvmOperationComplete r => exact effect_nvmOperationComplete r h
  case timPpsEdge r => cases h; exact effect_onTime rfl (keeps_refl s) fun t => le_ppsEdge_e r (by exact Nat.le_refl t.e) _ _
  case ppsMissing r => cases h; exact effect_onTime rfl (keeps_refl s) fun t => le_ppsEdge_e r (by exact Nat.le_refl t.e) _ _
  case timeInputUsable r =>
    cases h
    refine effect_onTime rfl ⟨rfl, rfl, rfl, rfl, id, id, id⟩ fun t => ?_
    split
    · exact Nat.le_refl _
    · dsimp only
      split
      · exact le_whilePending_e r (by exact Nat.le_refl t.e) _
      · exact Nat.le_refl _
  case timeInputUnusable lost => exact effect_timeInputUnusable lost h
  case timRankChange r =>
    cases h
    refine effect_onTime rfl (keeps_refl s) fun t => ?_
    dsimp only
    repeat' split
    · exact Nat.le_refl _
    · exact le_loseInput_e (Nat.le_refl t.e)
    · exact Nat.le_refl _
    · exact le_whilePending_e r (by exact Nat.le_refl t.e) _
    · exact le_takeUp_e r (by exact Nat.le_refl t.e) _
    · exact Nat.le_refl _
    · exact Nat.le_refl _
  case referenceSwitchCommit =>
    cases h
    refine effect_onTime rfl (keeps_refl s) fun t => ?_
    split
    · exact le_commitSwitch_e (Nat.le_refl t.e) _ _
    · exact Nat.le_refl _
  case slewEnd =>
    cases h
    refine effect_onTime rfl (keeps_refl s) fun t => ?_
    split <;> exact Nat.le_refl _
  case epochTick =>
    cases h
    refine effect_onTime rfl (keeps_refl s) fun t => ?_
    split <;> exact Nat.le_refl _
  all_goals exact .of_keepsO (by simp [exec]) h

/-! ### What the effects have in common -/

section Effects
variable (h : Effect i s t)
include h

theorem Effect.pending : t.pending = s.pending := by
  rcases h with hkept | ⟨_, hkept⟩ | ⟨_, hkept⟩ | ⟨_, _, _, _, _, _, _, _, _, _, hkept⟩ <;> exact (pending_of_keeps hkept :)

theorem Effect.faults (hsound : FaultsSound s.flt) : FaultsSound t.flt := by
  rcases h with hkept | ⟨_, hkept⟩ | ⟨_, hkept⟩ | ⟨_, _, _, _, _, _, _, _, _, _, hkept⟩ <;> exact faults_of_keeps hkept hsound

theorem Effect.baton (hsound : BatonSound s.baton) : BatonSound t.baton := by
  rcases h with hkept | ⟨_, hkept⟩ | ⟨_, hkept⟩ | ⟨_, _, _, _, _, _, _, _, _, _, hkept⟩ <;> exact baton_of_keeps hkept hsound

theorem Effect.leases (hsound : LeasesSound s.eng.leases) : LeasesSound t.eng.leases := by
  rcases h with hkept | ⟨_, hkept⟩ | ⟨_, hkept⟩ | ⟨_, _, _, _, _, _, _, _, _, _, hkept⟩ <;> exact leases_of_keeps hkept hsound

theorem Effect.epochTime (hpor : i ≠ .aonPowerOnReset) (hoff : i ≠ .vddAonRemoved) : s.tim.e ≤ t.tim.e := by
  rcases h with hkept | ⟨hforward, _⟩ | ⟨hrow, _⟩ | ⟨_, _, _, _, _, _, _, _, _, _, hkept⟩
  · exact Nat.le_of_eq (e_of_keeps hkept).symm
  · exact hforward
  · exact absurd hrow (not_or.mpr ⟨hpor, hoff⟩)
  · exact Nat.le_of_eq (e_of_keeps hkept).symm

end Effects

/-- A step does what its command does, or on an empty queue what a cycle of the clock does. -/
theorem step_cases (h : step s = .next t) :
    (s.pending = [] ∧ t = tick s) ∨ ∃ c rest, s.pending = c :: rest ∧ Effect c { s with pending := rest } t := by
  unfold step at h
  split at h
  next hempty => cases h; exact .inl ⟨hempty, rfl⟩
  next c rest hqueue => exact .inr ⟨c, rest, hqueue, exec_effect h⟩

/-! ### The statements -/

/-- Settles O7: a command or a cycle that changes the baton rewrites its three copies alike. -/
theorem batonCopiesStayEqual : Obligations.BatonCopiesStayEqual := by
  intro s t hsound hstep
  rcases step_cases hstep with ⟨_, rfl⟩ | ⟨c, rest, _, heffect⟩
  · exact baton_of_keeps (tick_keeps s) hsound
  · exact heffect.baton hsound

/-- Settles O8: neither a command nor a cycle leaves a severe source unacknowledged with ERR_N released, or a source twice in the queue. -/
theorem faultQueueAndErrStaySound : Obligations.FaultQueueAndErrStaySound := by
  intro s t hsound hstep
  rcases step_cases hstep with ⟨_, rfl⟩ | ⟨c, rest, _, heffect⟩
  · exact faults_of_keeps (tick_keeps s) hsound
  · exact heffect.faults hsound

/-- Settles O9: what writes the operand memory of a lease keeps its canonical form. -/
theorem operandMemoryStaysCanonical : Obligations.OperandMemoryStaysCanonical := by
  intro s t hsound hstep
  rcases step_cases hstep with ⟨_, rfl⟩ | ⟨c, rest, _, heffect⟩
  · exact leases_of_keeps (tick_keeps s) hsound
  · exact heffect.leases hsound

/-- Settles O10: the time-keeper takes a maximum with E, and only a reset of the whole block sets E anew. -/
theorem epochTimeNeverDecreases : Obligations.EpochTimeNeverDecreases := by
  intro s t hstep hpor hoff
  rcases step_cases hstep with ⟨_, rfl⟩ | ⟨c, rest, hqueue, heffect⟩
  · rw [e_of_keeps (tick_keeps s)]
    dsimp only
    split
    · exact le_tickTim_e (Nat.le_refl _)
    · exact Nat.le_refl _
  · exact heffect.epochTime (by rintro rfl; exact hpor (by rw [hqueue]; rfl)) (by rintro rfl; exact hoff (by rw [hqueue]; rfl))

/-- Settles O3: a command is taken off the front of the queue and adds none; an empty queue stays empty. -/
theorem queueIsFirstInFirstOut : Obligations.QueueIsFirstInFirstOut := by
  intro s t hstep
  rcases step_cases hstep with ⟨hempty, rfl⟩ | ⟨c, rest, hqueue, heffect⟩
  · rw [pending_of_keeps (tick_keeps s), hempty]
    rfl
  · rw [heffect.pending, hqueue]
    rfl

/-- Settles O11: of the four kinds of effect only the reset of the whole block sets the cycle count. -/
theorem cycleCountFollowsTheClock : Obligations.CycleCountFollowsTheClock := by
  intro i s t hexec
  have hreset : i = .aonPowerOnReset ∨ i = .vddAonRemoved → t.clk.now = 0 := by
    rintro (rfl | rfl) <;> (cases hexec; rfl)
  split
  next hrow => exact hreset hrow
  next hrow =>
    rcases exec_effect hexec with hkept | ⟨_, hkept⟩ | ⟨hrow', _⟩ | ⟨_, _, _, _, _, _, _, _, _, _, hkept⟩
    · exact (now_of_keeps hkept :)
    · exact (now_of_keeps hkept :)
    · exact absurd hrow' hrow
    · exact (now_of_keeps hkept :)

/-- Settles O12: of the four kinds of effect only the completed record of a transition changes the fuses, and only from its source. -/
theorem fusesChangeByTransitionRecords : Obligations.FusesChangeByTransitionRecords := by
  intro i s t hexec hchange
  rcases exec_effect hexec with hkept | ⟨_, hkept⟩ | ⟨_, hkept⟩ | ⟨r, o, rest, a, b, n, d, hrow, hops, hwork, hkept⟩
  · exact absurd (fuse_of_keeps hkept) hchange
  · exact absurd (fuse_of_keeps hkept) hchange
  · exact absurd (fuse_of_keeps hkept) hchange
  · have hfuse : t.fuse = { s.fuse with lifecycle := if s.fuse.lifecycle = a then b else s.fuse.lifecycle } := fuse_of_keeps hkept
    by_cases hsource : s.fuse.lifecycle = a
    · rw [if_pos hsource] at hfuse
      exact ⟨⟨r, hrow⟩, o, rest, a, b, n, d, hops, hwork, hsource, hfuse⟩
    · rw [if_neg hsource] at hfuse
      exact absurd hfuse hchange

end Sys2Proof.Proofs.Invariants
end

section
/-! SUPPORT. A command stops exactly where its operands have a shape that the interface does not have. -/
namespace Sys2Proof.Proofs.Shapes
open Sys2Proof Sys2Proof.Machine

/-- A command is well-formed and has a next state, or it is ill-formed and stops as malformed. -/
def ShapeDecides (i : Instr) (s : State) : Prop :=
  (i.wf = true ∧ ∃ t, exec i s = .next t) ∨ (i.wf = false ∧ exec i s = .fault .malformed)

/-- The model's test of a unit code is the interface's (07 R218, 08 R241, 09 R265). -/
theorem engselValid_eq_engineCode : engselValid = engineCode := rfl

/-- A row that tests the shape of its operands first (log 14), and takes them where the test passes. -/
theorem shapeDecides_of_ite {i : Instr} {s u : State} {c : Prop} [Decidable c] (hwf : i.wf = true ↔ ¬ c)
    (hexec : exec i s = if c then .fault .malformed else .next u) : ShapeDecides i s := by
  by_cases hc : c
  · exact .inr ⟨Bool.eq_false_iff.mpr (fun h => hwf.mp h hc), by rw [hexec, if_pos hc]⟩
  · exact .inl ⟨hwf.mpr hc, u, by rw [hexec, if_neg hc]⟩

theorem exec_shape (i : Instr) (s : State) : ShapeDecides i s := by
  cases i
  case fabReadData data => exact shapeDecides_of_ite (c := data.length ≠ 128) (by simp [Instr.wf]) rfl
  case streamWord beat => exact shapeDecides_of_ite (c := beat.data.length ≠ 32) (by simp [Instr.wf]) rfl
  case flitReceived flit => exact shapeDecides_of_ite (c := flit.length ≠ 256) (by simp [Instr.wf]) rfl
  case coreResetRelease tests =>
    exact shapeDecides_of_ite (c := (!tests.units.all (fun u => engselValid u.engsel.toNat)) = true) (by simp [Instr.wf, engselValid_eq_engineCode]) rfl
  case unitDrainEnd code => exact shapeDecides_of_ite (c := (!engselValid code.toNat) = true) (by simp [Instr.wf, engselValid_eq_engineCode]) rfl
  case microcodeRolloverUnit unit =>
    exact shapeDecides_of_ite (c := (!engselValid unit.engsel.toNat) = true) (by simp [Instr.wf, engselValid_eq_engineCode]) rfl
  all_goals exact .inl ⟨rfl, _, rfl⟩

/-- Settles O4: the shape of the operands decides between the two outcomes, and no row refuses. -/
theorem onlyMalformedCommandsStop : Obligations.OnlyMalformedCommandsStop := by
  refine ⟨fun i s hwf => ?_, fun i s f hfault => ?_, fun i s r hrefused => ?_⟩
  · rcases exec_shape i s with ⟨_, hnext⟩ | ⟨hbad, _⟩
    · exact hnext
    · rw [hwf] at hbad
      contradiction
  · rcases exec_shape i s with ⟨_, t, hnext⟩ | ⟨hbad, hstop⟩
    · rw [hfault] at hnext
      contradiction
    · rw [hfault] at hstop
      exact ⟨Host.Outcome.fault.inj hstop, hbad⟩
  · rcases exec_shape i s with ⟨_, t, hnext⟩ | ⟨_, hstop⟩
    · rw [hrefused] at hnext
      contradiction
    · rw [hrefused] at hstop
      contradiction

end Sys2Proof.Proofs.Shapes
end

section
/-! SUPPORT. How the statements about packet rows are reached: the row of the packet at hand runs its meaning on the entry marked as
started (03 R78), and that mark, the commit log and the reply are all that its end adds to the effect (03 R77, R79). -/
namespace Sys2Proof.Proofs.Packets
open Sys2Proof Sys2Proof.Machine Sys2Proof.Safety Sys2Proof.Laws

variable {i : Instr} {op : Nat} {f : CmdEntry → State → State} {s u v : State} {e : CmdEntry} {st : Status} {d : Nat} {p : Bytes}

/-! ### The rows -/

/-- A row with an opcode runs a meaning on the packet of that opcode. -/
theorem exec_of_opcodeOf (h : opcodeOf i = some op) (s : State) : ∃ f, exec i s = .next (onCommand op f s) := by
  cases i <;> simp only [opcodeOf, Option.some.injEq, reduceCtorEq] at h
  all_goals
    subst h
    exact ⟨_, rfl⟩

theorem onCommand_of_not_running (h : running s = false) : onCommand op f s = s := by
  simp [onCommand, h]

theorem onCommand_of_no_packet (h : front s op = none) : onCommand op f s = s := by
  simp [onCommand, h]

/-- A packet whose read failed is answered with the status of the failure (03 R462). -/
theorem onCommand_of_failure (hrun : running s = true) (hfront : front s op = some e) (hfail : e.failure = some st) :
    onCommand op f s = answer e st [] s := by
  simp [onCommand, hrun, hfront, hfail]

/-- The row of the packet at hand is its meaning, on the entry marked as started. -/
theorem exec_head (hrow : exec i s = .next (onCommand op f s)) (h : Head op s e) : exec i s = .next (f (begun e) (atHand e s)) :=
  hrow.trans (congrArg Host.Outcome.next (onCommand_head h f))

/-- The same where the meaning is known to come to `t`. -/
theorem exec_of_head (hrow : exec i s = .next (onCommand op f s)) (h : Head op s e) (hmeaning : f (begun e) (atHand e s) = u) :
    exec i s = .next u :=
  (exec_head hrow h).trans (congrArg Host.Outcome.next hmeaning)

/-! ### The end of a command -/

/-- `v` is `u` but for the entries in execution and the commit log, which the end of a command settles. -/
def SameButEntries (v u : State) : Prop :=
  v = { u with cmd := { u.cmd with exec := v.cmd.exec, commitLog := v.cmd.commitLog } }

theorem sameButEntries_atHand (e : CmdEntry) (s : State) : SameButEntries (atHand e s) s := rfl

theorem SameButEntries.logCommit (h : SameButEntries v u) (e : CmdEntry) : SameButEntries (logCommit e v) u := logCommit_only e v u h

/-- A row that answers at once. -/
theorem answers_of_answer (hexec : exec i s = .next (answer (begun e) st p v)) (hsame : SameButEntries v u) : Answers i e st 0 p s u :=
  ⟨_, hexec, answer_done e st p v u hsame⟩

/-- A row that commits its effect and answers. -/
theorem answers_of_commit (hexec : exec i s = .next (answer (begun e) st p (logCommit (begun e) v))) (hsame : SameButEntries v u) :
    Answers i e st 0 p s u :=
  answers_of_answer hexec (hsame.logCommit _)

/-- A row that refuses the packet with its DETAIL. -/
theorem answers_of_refusal (hexec : exec i s = .next (refuseAt (begun e) st d v)) (hsame : SameButEntries v u) : Answers i e st d [] s u :=
  ⟨_, hexec, refuse_done e st d v u hsame⟩

/-- A refusal without any effect. -/
theorem answers_of_refused (hexec : exec i s = .next (refuseAt (begun e) st d (atHand e s))) : Answers i e st d [] s s :=
  answers_of_refusal hexec (sameButEntries_atHand e s)

/-- A test that fails, in the form in which the model asks for it. -/
theorem not_of_false {b : Bool} (h : b = false) : (!b) = true := by rw [h]; rfl

theorem not_not_of_true {b : Bool} (h : b = true) : ¬ (!b) = true := by rw [h]; exact Bool.false_ne_true

theorem and_of {a b : Bool} (ha : a = true) (hb : b = true) : (a && b) = true := Bool.and_eq_true_iff.mpr ⟨ha, hb⟩

theorem not_and_of_left {a b : Bool} (ha : a = false) : ¬ (a && b) = true := fun h => ne_true_of_eq_false ha (Bool.and_eq_true_iff.mp h).1

theorem not_and_of_right {a b : Bool} (hb : b = false) : ¬ (a && b) = true := fun h => ne_true_of_eq_false hb (Bool.and_eq_true_iff.mp h).2

/-- Settles O13: no row acts while the Scribe does not run or without a packet, and a failed read is answered before the meaning. -/
theorem packetRowsActOnTheirPacketOnly : Obligations.PacketRowsActOnTheirPacketOnly := by
  intro i op s hop
  obtain ⟨f, hrow⟩ := exec_of_opcodeOf hop s
  constructor
  · rintro (hstopped | hnone)
    · rw [hrow, onCommand_of_not_running hstopped]
    · rw [hrow, onCommand_of_no_packet hnone]
  · intro e st hrun hfront hfail
    rw [hrow, onCommand_of_failure hrun hfront hfail]
    exact ⟨_, rfl, finish_done e _ s⟩

end Sys2Proof.Proofs.Packets
end

section
/-! SUPPORT. The block group: NOP, GET_INFO, STATUS_SNAPSHOT, SET_POWER_POLICY and SCRIBE_HANDOVER (03 Table 3-5, R87; 14 R354, R367). -/
namespace Sys2Proof.Proofs.BlockCommands
open Sys2Proof Sys2Proof.Machine Sys2Proof.Safety Sys2Proof.Laws Sys2Proof.Proofs.Packets

/-- Where no other command is in execution, none is beside the one at hand (14 R367). -/
theorem no_other_started {s : State} {e : CmdEntry} (halone : ∀ x ∈ s.cmd.exec, x.started = true → x.cid = e.cid) :
    (atHand e s).cmd.exec.any (fun x => x.started && x.cid != e.cid) = false := by
  rw [List.any_eq_false]
  intro x hx
  obtain ⟨y, hy, rfl⟩ := List.mem_map.mp hx
  by_cases hcid : y.cid = e.cid
  · simp [hcid]
  · simpa [hcid] using halone y hy

/-- Settles O14: each meaning is one answer, refusal or write, on the conditions of its row. -/
theorem blockCommandsComplete : Obligations.BlockCommandsComplete := by
  refine ⟨fun s e h => ?nop, fun s e h => ?getInfo, fun s e h => ?power, fun s e h => ?handover, fun s e h => ?snapshot⟩
  case nop => exact answers_of_answer (exec_of_head rfl h rfl) rfl
  case getInfo => exact answers_of_answer (exec_of_head rfl h rfl) rfl
  case power =>
    split
    next hrouted => exact answers_of_refused (exec_of_head rfl h (if_pos hrouted))
    next hrouted => exact answers_of_commit (exec_of_head rfl h (if_neg hrouted)) rfl
  case handover =>
    have hexec := exec_head (i := .scribeHandover) rfl h
    split
    next hbusy =>
      have hfault : handoverFault (atHand e s) = some (.notPermitted, 0) := if_pos hbusy
      simp only [hfault] at hexec
      exact answers_of_refused hexec
    next hready =>
      intro halone
      have hfault : handoverFault (atHand e s) = none := if_neg hready
      have hidle : (atHand e s).cmd.exec.any (fun x => x.started && x.cid != (begun e).cid) = false := no_other_started halone
      simp only [hfault, hidle, Bool.false_eq_true, if_false] at hexec
      exact answers_of_commit hexec rfl
  case snapshot =>
    intro b
    split
    next hshort => exact answers_of_refused (exec_of_head rfl h (if_pos hshort))
    next hlong =>
      split
      next hspan => exact answers_of_refused (exec_of_head rfl h ((if_neg hlong).trans (if_pos (not_of_false hspan))))
      next hspan =>
        exact exec_of_head rfl h ((if_neg hlong).trans (if_neg (not_not_of_true (eq_true_of_ne_false hspan))))

end Sys2Proof.Proofs.BlockCommands
end

section
/-! SUPPORT. The fault group (12 R312, R318 to R328): the settings, FLT_CLEAR, FLT_RELEASE_ERR and FLT_INJECT. -/
namespace Sys2Proof.Proofs.FaultCommands
open Sys2Proof Sys2Proof.Machine Sys2Proof.Safety Sys2Proof.Laws Sys2Proof.Proofs.Packets

variable {s : State} {e : CmdEntry}

/-! ### FLT_RELEASE_ERR (12 R318, R319) -/

theorem unacked_ne_zero_of_mem {x : Nat × Src} (hmem : x ∈ s.flt.sources) (hsevere : x.2.severe = true) (hacked : x.2.acked = false) :
    unacked s.flt ≠ 0 := by
  have hcounted : x ∈ s.flt.sources.filter (fun e => e.2.severe && !e.2.acked) := by
    simp [List.mem_filter, hmem, hsevere, hacked]
  exact Nat.ne_of_gt (List.length_pos_of_mem hcounted)

/-- While fail-silent the Scribe does not run (14 R369). -/
theorem not_running_of_failSilent (h : s.pwr.failSilent = true) : running s = false := by
  simp [running, coreOn, h]

/-- The release, where every severe source is acknowledged: at once, or at the end of t_ERRPW. -/
theorem exec_fltReleaseErr_of_acked (h : Head 0x0504 s e) (hacked : unacked s.flt = 0) :
    exec .fltReleaseErr s = .next (answer (begun e) .ok [] (logCommit (begun e) { atHand e s with flt :=
      if s.flt.widthRunning then { s.flt with relWait := s.flt.err } else { s.flt with err := false } })) :=
  exec_of_head rfl h (if_neg (not_not_intro hacked))

/-- Settles O53: a severe source unacknowledged refuses the release, t_ERRPW delays it, and fail-silent stops every packet row. -/
theorem releaseOfErrWaitsForAcknowledgement : Obligations.ReleaseOfErrWaitsForAcknowledgement := by
  refine ⟨fun s e x h hmem hsevere hacked => ?refused, fun s e h hacked hwidth => ?released, fun s e h hacked hwidth => ?waits,
    fun s i op hsilent hop => ?silent⟩
  case refused => exact answers_of_refused (exec_of_head rfl h (if_pos (unacked_ne_zero_of_mem hmem hsevere hacked)))
  case released =>
    have hexec := exec_fltReleaseErr_of_acked h hacked
    rw [if_neg (ne_true_of_eq_false hwidth)] at hexec
    exact answers_of_commit hexec rfl
  case waits =>
    have hexec := exec_fltReleaseErr_of_acked h hacked
    rw [if_pos hwidth] at hexec
    exact answers_of_commit hexec rfl
  case silent => exact (packetRowsActOnTheirPacketOnly i op s hop).1 (.inl (not_running_of_failSilent hsilent))

/-! ### The other commands -/

/-- FLT_INJECT past its checks: a cell that failed for good takes no injection (10 R270). -/
theorem exec_fltInject_of_valid (h : Head 0x0505 s e) (hvalid : injectFault (begun e) (atHand e s) = none) :
    exec .fltInject s = .next (answer (begun e) .ok [] (logCommit (begun e)
      (if (par e 2 1 == 4 && (tgetD s.rng.cells (par e 0 2 - 0x040) {}).state == .failed) = true then atHand e s
       else { atHand e s with flt := armInject (par e 0 2) (par e 2 1) (par e 4 4 % 2 ^ 31) (decide (2 ^ 31 ≤ par e 4 4)) s.flt }))) := by
  have hexec := exec_head (i := .fltInject) rfl h
  simp only [hvalid] at hexec
  exact hexec

/-- Settles O23: the settings are taken as they are, the cause decides FLT_CLEAR, and Table 12-6 and R326 decide FLT_INJECT. -/
theorem faultCommandsComplete : Obligations.FaultCommandsComplete := by
  refine ⟨fun s e h => ?setClass, fun s e h => ?setTimers, fun s e h => ?clear, fun s e h => ?inject⟩
  case setClass => exact answers_of_commit (exec_of_head rfl h rfl) rfl
  case setTimers => exact answers_of_commit (exec_of_head rfl h rfl) rfl
  case clear =>
    split
    next hcause => exact answers_of_refusal (exec_of_head rfl h (if_pos hcause)) rfl
    next hcause => exact answers_of_commit (exec_of_head rfl h (if_neg hcause)) rfl
  case inject =>
    split
    next hlisted =>
      have hfault : injectFault (begun e) (atHand e s) = some (.invalidField, 18) := if_pos (not_of_false hlisted)
      have hexec := exec_head (i := .fltInject) rfl h
      simp only [hfault] at hexec
      exact answers_of_refused hexec
    next hlisted =>
      have hlisted := not_not_of_true (eq_true_of_ne_false hlisted)
      split
      next hdouble =>
        have hfault : injectFault (begun e) (atHand e s) = some (.invalidField, 20) := (if_neg hlisted).trans (if_pos hdouble)
        have hexec := exec_head (i := .fltInject) rfl h
        simp only [hfault] at hexec
        exact answers_of_refused hexec
      next hdouble =>
        have hexec := exec_fltInject_of_valid h ((if_neg hlisted).trans (if_neg hdouble))
        split
        next hcell =>
          rw [if_pos (by simpa using hcell)] at hexec
          exact answers_of_commit hexec rfl
        next hcell =>
          rw [if_neg (by simpa using hcell)] at hexec
          exact answers_of_commit hexec rfl

end Sys2Proof.Proofs.FaultCommands
end

section
/-! SUPPORT. The port commands (06 R170 to R174): CP_OPEN, CP_CLOSE, CP_SET_POLICY, CP_SET_QUOTA and CP_QUERY. -/
namespace Sys2Proof.Proofs.PortCommands
open Sys2Proof Sys2Proof.Machine Sys2Proof.Safety Sys2Proof.Laws Sys2Proof.Proofs.Packets

/-- Settles O15: CP_OPEN by its checks in their order, the others by their meanings. -/
theorem portCommandsComplete : Obligations.PortCommandsComplete := by
  refine ⟨fun s e h => ?open_, fun s e h => ?setQuota, fun s e h => ?query, fun s e h => ?close, fun s e h => ?setPolicy⟩
  case open_ =>
    have hexec := exec_head (i := .cpOpen) rfl h
    split
    next d hfault =>
      have hfault : openFault (atHand e s) (begun e).port (par (begun e) 0 2) (par (begun e) 8 8) (par (begun e) 16 8) = some d := hfault
      simp only [hfault] at hexec
      exact answers_of_refused hexec
    next hfault =>
      have hfault : openFault (atHand e s) (begun e).port (par (begun e) 0 2) (par (begun e) 8 8) (par (begun e) 16 8) = none := hfault
      simp only [hfault] at hexec
      intro p q
      have hiff : (p.isOpen || !s.keys.carveEn || !s.keys.carveReady) = true ↔ p.isOpen = true ∨ s.keys.carveEn = false ∨ s.keys.carveReady = false := by
        simp [or_assoc]
      split
      next hclosed => exact answers_of_refused (hexec.trans (congrArg _ (if_pos (hiff.mpr hclosed))))
      next hclosed =>
        exact ⟨rfl, rfl, rfl, rfl, rfl, answers_of_commit (hexec.trans (congrArg _ (if_neg (mt hiff.mp hclosed)))) rfl⟩
  case setQuota => exact answers_of_commit (exec_of_head rfl h rfl) rfl
  case query => exact answers_of_answer (exec_of_head rfl h rfl) rfl
  case close => exact exec_of_head rfl h rfl
  case setPolicy => exact exec_of_head rfl h rfl

end Sys2Proof.Proofs.PortCommands
end

section
/-! SUPPORT. The key commands (06 R158 to R168, R186, R187): what a use of a slot whose MAC checks leaves, and each meaning by its checks. -/
namespace Sys2Proof.Proofs.KeyCommands
open Sys2Proof Sys2Proof.Machine Sys2Proof.Safety Sys2Proof.Laws Sys2Proof.Proofs.Packets

variable {s : State} {e : CmdEntry}

/-! ### The use of a slot (06 R168) -/

/-- A use of a slot whose MAC checks, and a handle that names no current slot, change nothing. -/
theorem slotUsed_of_checks {port h : Nat} (hchecks : SlotChecks s port h) : slotUsed port h s = s := by
  refine if_neg ?_
  rintro ⟨hstatus, hbad⟩
  obtain ⟨hinject, hmac⟩ := hchecks hstatus
  rcases hbad with hbad | hbad
  · rw [hinject] at hbad
    contradiction
  · rw [hmac] at hbad
    contradiction

theorem slotUsed_of_status {port h : Nat} (hstatus : keyStatus s port h ≠ .ok) : slotUsed port h s = s :=
  slotUsed_of_checks fun hok => absurd hok hstatus

/-- A slot that is not spilled is used where it stands. -/
theorem withSlot_of_cached {n : Nat} {f : State → State} (h : (slotOf s n).spilled = false) : withSlot e n f s = f s :=
  if_neg (ne_true_of_eq_false h)

/-- A key that lies in its slot needs no extended record. -/
theorem withKey_of_cached {n : Nat} {f : State → State} (h : (slotOf s n).spilled = false) (hext : (slotOf s n).ext = none) :
    withKey e n f s = f s := by
  rw [withKey, withSlot_of_cached h]
  simp only [hext]

/-! ### Parts of the meanings -/

/-- KEY_EXPORT of the key in its slot (06 R160). -/
def exportKey (e : CmdEntry) (s : State) : State :=
  let sl := keyOf s (par e 0 4)
  let n := blobLen (keyBytes sl).length
  if par e 4 4 < n then refuseAt e .invalidField 20 s
  else if !cmdSpanOk s e (par e 8 8) n then refuseAt e .notPermitted 0 s
  else cmdWrite e (par e 8 8) (blobOf sl.keyType sl.usage.toNat e.port sl.validUntil (keyBytes sl)) (replyTo s e .ok 0 (leBytes 4 n) false) s

/-- KEY_STORE_NVM of the key in its slot (06 R186). -/
def storeKey (e : CmdEntry) (s : State) : State :=
  let v := nextKeyVersion s.nvm (par e 4 2)
  setEntry e.cid (fun x => { x with committed := true, reply := some (replyTo s e .ok 0 (leBytes 4 v) false) })
    (logCommit e (nvmQueue { work := .keyProgram (archiveRec (par e 4 2) v (keyOf s (par e 0 4))), cid := some e.cid } s))

/-! ### KEY_IMPORT (06 R159) -/

/-- A blob that is read and whose header holds no reserved encoding is opened, where no injected error meets its read. -/
theorem exec_keyImport_of_landed (h : Head 0x0200 s e) (hinject : injectedAt s.flt 0x0B2 0 = none) (hread : e.readIssued = true)
    (hfields : blobFieldsOk (landed e) = true) : exec .keyImport s = .next (match openBlob e.port (landed e) with
      | none => refuseAt (begun e) .blobInvalid 0 (atHand e s)
      | some m =>
        if validityOver s (fld (landed e) 12 4) = true then refuseAt (begun e) .keyRevoked 0 (atHand e s)
        else match installKey e.port (fld (landed e) 5 1) (fld (landed e) 6 2) (fld (landed e) 12 4) m (atHand e s) with
          | none => refuseAt (begun e) .quotaExceeded 0 (atHand e s)
          | some q => answer (begun e) .ok (leBytes 4 q.2) (logCommit (begun e) q.1)) := by
  have hexec := exec_head (i := .keyImport) rfl h
  have hclean : eccInjected 0x0B2 (atHand e s) = atHand e s := by
    simp only [eccInjected, show injectedAt (atHand e s).flt 0x0B2 0 = none from hinject]
  simp only [begun_readIssued, landed_begun, hread, hfields, hclean, Bool.and_self, Bool.not_true, Bool.false_eq_true, if_true, if_false] at hexec
  exact hexec

/-! ### KEY_EXPORT and KEY_STORE_NVM (06 R160, R186) -/

/-- A sound handle whose key may not be exported is refused; one that may, and lies in its slot, is written where it fits. -/
theorem exec_keyExport_of_checks (h : Head 0x0202 s e) (hchecks : SlotChecks s e.port (par e 0 4)) :
    exec .keyExport s = .next (if keyStatus s e.port (par e 0 4) ≠ .ok then refuseAt (begun e) (keyStatus s e.port (par e 0 4)) 0 (atHand e s)
      else if (!usageHas (keyOf s (par e 0 4)) 6) = true then refuseAt (begun e) .notPermitted 0 (atHand e s)
      else withKey (begun e) (handleSlot (par e 0 4)) (exportKey (begun e)) (atHand e s)) := by
  have hused : slotUsed (begun e).port (par (begun e) 0 4) (atHand e s) = atHand e s := slotUsed_of_checks hchecks
  have hexec := exec_head (i := .keyExport) rfl h
  simp only [hused] at hexec
  exact hexec

theorem exec_keyStoreNvm_of_checks (h : Head 0x0204 s e) (hchecks : SlotChecks s e.port (par e 0 4)) :
    exec .keyStoreNvm s = .next (match keyStoreFault e s with
      | some f => refuseAt (begun e) f.1 f.2 (atHand e s)
      | none => withSlot (begun e) (handleSlot (par e 0 4)) (storeKey (begun e)) (atHand e s)) := by
  have hused : slotUsed (begun e).port (par (begun e) 0 4) (atHand e s) = atHand e s := slotUsed_of_checks hchecks
  have hexec := exec_head (i := .keyStoreNvm) rfl h
  simp only [hused] at hexec
  exact hexec

/-! ### The statements -/

/-- Settles O16: each meaning past its checks, in the order of the spec's checks. -/
theorem keyCommandsComplete : Obligations.KeyCommandsComplete := by
  refine ⟨fun s e r q h hrec hmine hvalid hslot => ?load, fun s e q h hfault hdest hslot => ?generate,
    fun s e q m h hinject hread hfields hopen hvalid hslot => ?import_, fun s e h hread hmin hmax hunit hspan => ?importRead,
    fun s e h hchecks hok husage hcached hext => ?export_, fun s e h hok => ?destroy, fun s e h hchecks hfault hcached => ?store⟩
  case load =>
    have hexec := exec_head (i := .keyLoadNvm) rfl h
    have hrec : bestKeyRec (atHand e s).nvm (par (begun e) 0 2) = some r := hrec
    have hvalid : validityOver (atHand e s) r.slot.validUntil = false := hvalid
    have hmine : r.slot.owner = (begun e).port := hmine
    have hslot : installKey (begun e).port r.slot.keyType r.slot.usage.toNat r.slot.validUntil (keyBytes r.slot) (atHand e s) = some q := hslot
    simp only [hrec, hvalid, hmine, ne_eq, not_true_eq_false, if_false, Bool.false_eq_true, hslot] at hexec
    exact answers_of_commit hexec rfl
  case generate =>
    have hexec := exec_head (i := .keyGenerate) rfl h
    have hfault : generateFault (atHand e s) (begun e) = none := hfault
    have hslot : installKey (begun e).port (par (begun e) 0 2) (par (begun e) 2 2) 0 (freeBytes (atHand e s) (genLen (par (begun e) 0 2))) (atHand e s) = some q := hslot
    have hdest : par (begun e) 8 8 = 0 := hdest
    simp only [hfault, hslot, hdest, if_true] at hexec
    exact answers_of_commit hexec rfl
  case import_ =>
    have hexec := exec_keyImport_of_landed h hinject hread hfields
    simp only [hopen, hvalid, hslot, Bool.false_eq_true, if_false] at hexec
    exact answers_of_commit hexec rfl
  case importRead =>
    have hexec := exec_head (i := .keyImport) rfl h
    have hlen : ¬ (par e 8 4 < 40 ∨ 2048 < par e 8 4 ∨ par e 8 4 % 8 ≠ 0) := by omega
    have hspan : cmdSpanOk (atHand e s) (begun e) (par e 0 8) (par e 8 4) = true := hspan
    simp only [begun_readIssued, hread, par_begun, hspan, Bool.false_and, Bool.false_eq_true, Bool.not_false, Bool.not_true, if_true, if_false, if_neg hlen] at hexec
    exact hexec
  case export_ =>
    intro sl n hlen hspan
    have hexec := exec_keyExport_of_checks h hchecks
    rw [if_neg (not_not_intro hok), if_neg (not_not_of_true husage), withKey_of_cached (s := atHand e s) hcached hext] at hexec
    exact hexec.trans (congrArg _ ((if_neg (Nat.not_lt.mpr hlen)).trans (if_neg (not_not_of_true hspan))))
  case destroy => exact exec_of_head rfl h (if_pos hok)
  case store =>
    have hexec := exec_keyStoreNvm_of_checks h hchecks
    simp only [hfault] at hexec
    rw [withSlot_of_cached (s := atHand e s) hcached] at hexec
    exact hexec

/-- Settles O17: each refusal by the first check that fails. -/
theorem keyCommandsRefuse : Obligations.KeyCommandsRefuse := by
  refine ⟨fun s e h hstatus => ?exportStatus, fun s e h hchecks hok husage => ?exportUsage, fun s e h hrevoked => ?destroy,
    fun s e f h hchecks hfault => ?store, fun s e h hrec => ?loadNone, fun s e r h hrec hother => ?loadOther,
    fun s e r h hrec hmine hover => ?loadOver, fun s e f h hfault => ?generate, fun s e h hread hlen => ?importLength,
    fun s e h hread hfields => ?importFields, fun s e h hinject hread hfields hopen => ?importBlob⟩
  case exportStatus =>
    have hexec := exec_keyExport_of_checks h (fun hok => absurd hok hstatus)
    rw [if_pos hstatus] at hexec
    exact answers_of_refused hexec
  case exportUsage =>
    have hexec := exec_keyExport_of_checks h hchecks
    rw [if_neg (not_not_intro hok), if_pos (not_of_false husage)] at hexec
    exact answers_of_refused hexec
  case destroy =>
    have hcurrent : ¬ (keyStatus s e.port (par e 0 4) = .ok ∨ keyStatus s e.port (par e 0 4) = .keyStale) := by
      rw [hrevoked]
      decide
    have hexec := exec_of_head (i := .keyDestroy) rfl h (if_neg hcurrent)
    have hrevoked : keyStatus (atHand e s) (begun e).port (par (begun e) 0 4) = .keyRevoked := hrevoked
    rw [hrevoked] at hexec
    exact answers_of_refused hexec
  case store =>
    have hexec := exec_keyStoreNvm_of_checks h hchecks
    simp only [hfault] at hexec
    exact answers_of_refused hexec
  case loadNone =>
    have hexec := exec_head (i := .keyLoadNvm) rfl h
    have hrec : bestKeyRec (atHand e s).nvm (par (begun e) 0 2) = none := hrec
    simp only [hrec] at hexec
    exact answers_of_refused hexec
  case loadOther =>
    have hexec := exec_head (i := .keyLoadNvm) rfl h
    have hrec : bestKeyRec (atHand e s).nvm (par (begun e) 0 2) = some r := hrec
    simp only [hrec] at hexec
    exact answers_of_refused (hexec.trans (congrArg _ (if_pos hother)))
  case loadOver =>
    have hexec := exec_head (i := .keyLoadNvm) rfl h
    have hrec : bestKeyRec (atHand e s).nvm (par (begun e) 0 2) = some r := hrec
    simp only [hrec] at hexec
    exact answers_of_refused (hexec.trans (congrArg _ ((if_neg (not_not_intro hmine)).trans (if_pos hover))))
  case generate =>
    have hexec := exec_head (i := .keyGenerate) rfl h
    have hfault : generateFault (atHand e s) (begun e) = some f := hfault
    simp only [hfault] at hexec
    exact answers_of_refused hexec
  case importLength =>
    have hexec := exec_head (i := .keyImport) rfl h
    simp only [begun_readIssued, hread, par_begun, Bool.false_and, Bool.false_eq_true, Bool.not_false, if_true, if_false, if_pos hlen] at hexec
    exact answers_of_refused hexec
  case importFields =>
    have hexec := exec_head (i := .keyImport) rfl h
    simp only [begun_readIssued, landed_begun, hread, hfields, Bool.and_false, Bool.not_true, Bool.false_eq_true, Bool.not_false, if_true, if_false] at hexec
    exact answers_of_refused hexec
  case importBlob =>
    have hexec := exec_keyImport_of_landed h hinject hread hfields
    simp only [hopen] at hexec
    exact answers_of_refused hexec

end Sys2Proof.Proofs.KeyCommands
end

section
/-! SUPPORT. The ring commands (04 R96, R101 to R106, R121; 05 R143), each meaning past its checks. -/
namespace Sys2Proof.Proofs.RingCommands
open Sys2Proof Sys2Proof.Machine Sys2Proof.Safety Sys2Proof.Laws Sys2Proof.Proofs.Packets

variable {s : State} {e : CmdEntry} {r : Ring}

/-- RING_RESTART of a ring of the port: NEW_HEAD, then the ring's state, then the restart of its kind (04 R103). -/
theorem exec_ringRestart_of_own (h : Head 0x0303 s e) (hown : ownRing s e = some r) : exec .ringRestart s = .next (
    if (r.isCpl ∧ par e 4 4 ≠ 0) ∨ (!r.isCpl ∧ 2 ^ r.log2 ≤ par e 4 4) then refuseAt (begun e) .invalidField 20 (atHand e s)
    else if (!r.stopped) = true then refuseAt (begun e) .notPermitted 0 (atHand e s)
    else if r.isCpl then answer (begun e) .ok [] (logCommit (begun e)
      (remark (par e 0 4) r { atHand e s with rings := tput s.rings (par e 0 4) { r with stopped := false } }))
    else
      let r1 : Ring := { r with stopped := false, head := par e 4 4, reads := [] }
      answer (begun e) .ok [] (logCommit (begun e) (remark (par e 0 4) r1
        { atHand e s with rings := dropReads (par e 0 4) [] r1 (dropReads (par e 0 4) [] r s.rings) }))) := by
  have hexec := exec_head (i := .ringRestart) rfl h
  simp only [show ownRing (atHand e s) (begun e) = some r from hown] at hexec
  exact hexec

/-- RING_QUERY of a ring whose context is at hand reads it out (04 R106). -/
theorem exec_ringQuery_of_own (h : Head 0x0305 s e) (hown : ownRing s e = some r) : exec .ringQuery s = .next (
    if (!r.cached && e.phase != 2) = true then fetchContext (par e 0 4)
      (setEntry e.cid (fun x => { x with phase := 1, work := [ringRecOff (par e 0 4)] }) (atHand e s))
    else answer (begun e) .ok (leBytes 4 r.head ++ leBytes 4 r.tail ++ leBytes 4 (ringState s e.port (par e 0 4))
      ++ leBytes 4 (ringCount s (par e 0 4) r)) (atHand e s)) := by
  have hexec := exec_head (i := .ringQuery) rfl h
  simp only [show ownRing (atHand e s) (begun e) = some r from hown, Option.any_some] at hexec
  exact hexec

/-! ### What `remark` changes -/

/-- A fold that marks rings in Skein changes nothing but Skein. -/
theorem foldl_skein {α : Type} (marks : α → Bool) (mark : α → Skein → Skein) (l : List α) (s : State) :
    l.foldl (fun a x => if marks x then { a with skein := mark x a.skein } else a) s
      = { s with skein := l.foldl (fun k x => if marks x then mark x k else k) s.skein } := by
  induction l generalizing s with
  | nil => rfl
  | cons x rest ih =>
    rw [List.foldl_cons, ih, List.foldl_cons]
    cases marks x <;> rfl

/-- Marking rings again leaves the entries of commands alone. -/
theorem sameButEntries_remark {id : Nat} {v u : State} (h : SameButEntries v u) : SameButEntries (remark id r v) (remark id r u) := by
  rw [h]
  simp only [remark, foldl_skein]
  repeat' split
  all_goals rfl

/-- Settles O19: each command past its checks, RING_RESTART by the kind of the ring and RING_QUERY by the place of its context. -/
theorem ringCommandsComplete : Obligations.RingCommandsComplete := by
  refine ⟨fun s e c h habsent hcplRing hkind hport hurgent hspan hroom => ?create, fun s e h habsent hspan hroom => ?cplCreate,
    fun s e r h hown hnamed => ?destroy, fun s e r h hown hkind hstopped hhead => ?restartCpl,
    fun s e r h hown hkind hstopped hhead => ?restart, fun s e r h hown hkind => ?coalesce, fun s e h hown => ?queryNone,
    fun s e r h hown hcached => ?query, fun s e r h hown hcached hphase => ?queryFetch⟩
  case create =>
    have hexec := exec_head (i := .ringCreate) rfl h
    simp only [show tget (atHand e s).rings (par (begun e) 0 4) = none from habsent, Option.isSome_none, Bool.false_eq_true, if_false,
      show tget (atHand e s).rings (par (begun e) 16 4) = some c from hcplRing] at hexec
    have hpermitted : (!(c.isCpl && c.port == e.port) || (par e 6 1 == 1 && !(tgetD s.ports e.port {}).pflags.getLsbD 0)
        || !inWindow (tgetD s.ports e.port {}) (par e 8 8) (entrySize (par e 4 1) * 2 ^ par e 5 1)) = false := by
      rw [hspan, hkind, hport]
      simpa using fun hone => (hurgent hone).1
    have hquota : (ringsFull s e.port || (par e 6 1 == 1 && decide (512 ≤ urgentRings s))) = false := by
      rw [hroom]
      simpa using fun hone => (hurgent hone).2
    exact answers_of_commit (hexec.trans (congrArg _
      ((if_neg (ne_true_of_eq_false hpermitted)).trans (if_neg (ne_true_of_eq_false hquota))))) rfl
  case cplCreate =>
    have hexec := exec_head (i := .cplRingCreate) rfl h
    simp only [show tget (atHand e s).rings (par (begun e) 0 4) = none from habsent, Option.isSome_none, Bool.false_eq_true, if_false] at hexec
    exact answers_of_commit (hexec.trans (congrArg _ ((if_neg (not_not_of_true hspan)).trans (if_neg (ne_true_of_eq_false hroom))))) rfl
  case destroy =>
    have hexec := exec_head (i := .ringDestroy) rfl h
    simp only [show ownRing (atHand e s) (begun e) = some r from hown] at hexec
    refine hexec.trans (congrArg _ (if_neg ?_))
    intro hbad
    obtain ⟨hkind, hstill⟩ := Bool.and_eq_true_iff.mp hbad
    exact absurd (hnamed hkind) (ne_false_of_eq_true hstill)
  case restartCpl =>
    have hexec := exec_ringRestart_of_own h hown
    rw [if_neg (by simp [hkind, hhead]), if_neg (not_not_of_true hstopped), if_pos hkind] at hexec
    exact answers_of_commit hexec (sameButEntries_remark rfl)
  case restart =>
    have hexec := exec_ringRestart_of_own h hown
    rw [if_neg (by simp [hkind, hhead]), if_neg (not_not_of_true hstopped), if_neg (ne_true_of_eq_false hkind)] at hexec
    exact answers_of_commit hexec (sameButEntries_remark rfl)
  case coalesce =>
    have hexec := exec_head (i := .ringSetCoalesce) rfl h
    simp only [show ownRing (atHand e s) (begun e) = some r from hown] at hexec
    exact answers_of_commit (hexec.trans (congrArg _ (if_neg (not_not_of_true hkind)))) rfl
  case queryNone =>
    have hexec := exec_head (i := .ringQuery) rfl h
    simp only [show ownRing (atHand e s) (begun e) = none from hown, Option.any_none, Bool.false_and, Bool.false_eq_true, if_false] at hexec
    exact answers_of_answer hexec rfl
  case query =>
    have hexec := exec_ringQuery_of_own h hown
    rw [if_neg (by rcases hcached with hcached | hphase <;> simp [*])] at hexec
    exact answers_of_answer hexec rfl
  case queryFetch =>
    have hexec := exec_ringQuery_of_own h hown
    rw [if_pos (by simp [hcached, hphase])] at hexec
    exact hexec

end Sys2Proof.Proofs.RingCommands
end

section
/-! SUPPORT. The session commands (06 R169, R178 to R183), each meaning past its checks. -/
namespace Sys2Proof.Proofs.SessionCommands
open Sys2Proof Sys2Proof.Machine Sys2Proof.Safety Sys2Proof.Laws Sys2Proof.Proofs.Packets Sys2Proof.Proofs.KeyCommands

variable {s : State} {e : CmdEntry}

/-- SESSION_CREATE past its checks: a key that P3 spilled is read before the session is made (06 R169). -/
theorem exec_sessionCreate_of_checks {ix : Nat} (h : Head 0x0206 s e) (hchecks : SlotChecks s e.port (askedSession e).key)
    (hfault : createFault (atHand e s) (begun e) = none) (hfree : freeSession (atHand e s) = some ix) : exec .sessionCreate s = .next (
      if (askedSession e).key = 0 then makeSession (begun e) ix (atHand e s)
      else withSlot (begun e) (handleSlot (askedSession e).key) (makeSession (begun e) ix) (atHand e s)) := by
  have hexec := exec_head (i := .sessionCreate) rfl h
  have hused : slotUsed (begun e).port (askedSession (begun e)).key (atHand e s) = atHand e s := slotUsed_of_checks hchecks
  simp only [hused, hfault, hfree] at hexec
  exact hexec

/-- Settles O18: each command past its checks, and SESSION_QUERY by the place of its record. -/
theorem sessionCommandsComplete : Obligations.SessionCommandsComplete := by
  refine ⟨fun s e ix h hchecks hfault hfree hkey => ?create, fun s e ix h hchecks hfault hfree hkey hspilled => ?createFetch,
    fun s e f h hchecks hfault => ?createRefused, fun s e r g h hsess hring hport hkind hbind hbound hfits hroom => ?bind,
    fun s e r g h hsess hring hport hkind hbind hbound => ?unbind, fun s e h hsess => ?bindClosed, fun s e r h hsess => ?close,
    fun s e h hsess => ?closeClosed, fun s e r h hsess hcached => ?query, fun s e r h hsess hcached => ?queryFetch,
    fun s e h hsess => ?queryClosed⟩
  case create =>
    have hexec := exec_sessionCreate_of_checks h hchecks hfault hfree
    rcases hkey with hzero | hcached
    · rw [if_pos hzero] at hexec
      exact hexec
    · rw [withSlot_of_cached (s := atHand e s) hcached, ite_self] at hexec
      exact hexec
  case createFetch =>
    have hexec := exec_sessionCreate_of_checks h hchecks hfault hfree
    rw [if_neg hkey] at hexec
    exact hexec.trans (congrArg _ (if_pos hspilled))
  case createRefused =>
    have hexec := exec_head (i := .sessionCreate) rfl h
    have hused : slotUsed (begun e).port (askedSession (begun e)).key (atHand e s) = atHand e s := slotUsed_of_checks hchecks
    simp only [hused, hfault] at hexec
    exact answers_of_refused hexec
  case bind =>
    have hexec := exec_head (i := .sessionBindRing) rfl h
    simp only [show sessionOf (atHand e s) (begun e).port (par (begun e) 0 4) = some r from hsess,
      show tget (atHand e s).rings (par (begun e) 4 4) = some g from hring] at hexec
    rw [if_neg (by simp [hport, hkind]), if_neg (by simpa [hbind] using hbound), if_pos (by simp [hbind]), if_neg (by simpa using hfits),
      if_neg (Nat.not_le.mpr hroom)] at hexec
    exact answers_of_commit hexec rfl
  case unbind =>
    have hexec := exec_head (i := .sessionBindRing) rfl h
    simp only [show sessionOf (atHand e s) (begun e).port (par (begun e) 0 4) = some r from hsess,
      show tget (atHand e s).rings (par (begun e) 4 4) = some g from hring] at hexec
    rw [if_neg (by simp [hport, hkind]), if_neg (by simpa [hbind] using hbound), if_neg (by simp [hbind])] at hexec
    exact hexec
  case bindClosed =>
    have hexec := exec_head (i := .sessionBindRing) rfl h
    simp only [show sessionOf (atHand e s) (begun e).port (par (begun e) 0 4) = none from hsess] at hexec
    exact answers_of_refused hexec
  case close =>
    have hexec := exec_head (i := .sessionClose) rfl h
    simp only [show sessionOf (atHand e s) (begun e).port (par (begun e) 0 4) = some r from hsess] at hexec
    exact hexec
  case closeClosed =>
    have hexec := exec_head (i := .sessionClose) rfl h
    simp only [show sessionOf (atHand e s) (begun e).port (par (begun e) 0 4) = none from hsess] at hexec
    exact answers_of_refused hexec
  case query =>
    have hexec := exec_head (i := .sessionQuery) rfl h
    simp only [show sessionOf (atHand e s) (begun e).port (par (begun e) 0 4) = some r from hsess] at hexec
    exact answers_of_answer (hexec.trans (congrArg _ (if_neg (not_not_of_true hcached)))) rfl
  case queryFetch =>
    have hexec := exec_head (i := .sessionQuery) rfl h
    simp only [show sessionOf (atHand e s) (begun e).port (par (begun e) 0 4) = some r from hsess] at hexec
    exact hexec.trans (congrArg _ (if_pos (not_of_false hcached)))
  case queryClosed =>
    have hexec := exec_head (i := .sessionQuery) rfl h
    simp only [show sessionOf (atHand e s) (begun e).port (par (begun e) 0 4) = none from hsess] at hexec
    exact answers_of_refused hexec

end Sys2Proof.Proofs.SessionCommands
end

section
/-! SUPPORT. The window commands (09 R242 to R247, R262), each meaning past its checks. -/
namespace Sys2Proof.Proofs.WindowCommands
open Sys2Proof Sys2Proof.Machine Sys2Proof.Safety Sys2Proof.Laws Sys2Proof.Proofs.Packets

variable {s : State} {e : CmdEntry} {f : Nat → Lease → State → State}

/-! ### The lease that a command names (06 Table 6-6) -/

theorem onLease_of_none (h : leaseHolding s e.port (par e 0 2) = none) : onLease e f s = refuseAt e .notPermitted 0 s := by
  simp only [onLease, h]

theorem onLease_of_other {ix : Nat} {l : Lease} (h : leaseHolding s e.port (par e 0 2) = some (ix, l)) (hix : ix ≠ par e 0 2 % 512) :
    onLease e f s = refuseAt e .invalidField 16 s := by
  simp only [onLease, h, if_pos hix]

theorem onLease_of_first {l : Lease} (h : leaseHolding s e.port (par e 0 2) = some (par e 0 2 % 512, l)) :
    onLease e f s = f (par e 0 2 % 512) l s := by
  simp only [onLease, h, ne_eq, not_true_eq_false, if_false]

/-- Settles O28: WINDOW_LEASE past its checks, and the others on the lease that they name. -/
theorem windowCommandsComplete : Obligations.WindowCommandsComplete := by
  refine ⟨fun s e r c h hflag hsess halg hmax hhook hroom hlen => ?lease, fun s e h hbad => ?leaseRefused, fun s e l h hlease => ?release,
    fun s e h hlease => ?releaseNone, fun s e ix l h hlease hix => ?releaseOther, fun s e l h hlease => ?clear,
    fun s e h hlease => ?clearNone, fun s e h => ?query⟩
  case lease =>
    have hexec := exec_head (i := .windowLease) rfl h
    simp only [show sessionOf (atHand e s) (begun e).port (par (begun e) 0 4) = some r from hsess,
      show leaseHook (atHand e s) = some c from hhook] at hexec
    have hpermitted : (!(tgetD s.ports e.port {}).pflags.getLsbD 2 || !isHook r.alg) = false := by
      rw [hflag, halg]
      rfl
    have hfree : ¬ (hookFree s c < par e 4 1 ∨ ((freeLogical s).take (par e 4 1)).length < par e 4 1) := by omega
    exact answers_of_commit (hexec.trans (congrArg _ ((if_neg (ne_true_of_eq_false hpermitted)).trans
      ((if_neg (ne_true_of_eq_false hmax)).trans (if_neg hfree))))) rfl
  case leaseRefused =>
    refine answers_of_refused (exec_of_head rfl h (if_pos (Bool.or_eq_true_iff.mpr ?_)))
    rcases hbad with hflag | hsess
    · exact .inl (not_of_false hflag)
    · simp only [show sessionOf (atHand e s) (begun e).port (par (begun e) 0 4) = none from hsess]
      exact .inr rfl
  case release => exact exec_of_head rfl h (onLease_of_first (s := atHand e s) hlease)
  case releaseNone => exact answers_of_refused (exec_of_head rfl h (onLease_of_none (s := atHand e s) hlease))
  case releaseOther => exact answers_of_refused (exec_of_head rfl h (onLease_of_other (s := atHand e s) hlease hix))
  case clear => exact exec_of_head rfl h (onLease_of_first (s := atHand e s) hlease)
  case clearNone => exact answers_of_refused (exec_of_head rfl h (onLease_of_none (s := atHand e s) hlease))
  case query =>
    have hexec := exec_head (i := .windowQuery) rfl h
    split
    next hnone =>
      simp only [show leaseHolding (atHand e s) (begun e).port (par (begun e) 0 2) = none from hnone] at hexec
      exact answers_of_answer hexec rfl
    next x hsome =>
      simp only [show leaseHolding (atHand e s) (begun e).port (par (begun e) 0 2) = some x from hsome] at hexec
      exact answers_of_answer hexec rfl

end Sys2Proof.Proofs.WindowCommands
end

section
/-! SUPPORT. The stream, time and epoch commands (11 R285 to R303; 05 R140, R147 to R149). -/
namespace Sys2Proof.Proofs.StreamCommands
open Sys2Proof Sys2Proof.Machine Sys2Proof.Safety Sys2Proof.Laws Sys2Proof.Proofs.Packets

/-- Settles O21: STREAM_OPEN by its check, the others by the ownership of the channel and then by the frame at the front or by the windows given. -/
theorem streamCommandsComplete : Obligations.StreamCommandsComplete := by
  refine ⟨fun s e h => ?opens, fun s e h => ?close, fun s e h hown => ?dropRefused, fun s e h hown hframe => ?dropNothing,
    fun s e x h hown hframe halive => ?dropAlive, fun s e x h hown hframe hdead => ?dropDead, fun s e h => ?window⟩
  case opens =>
    have hexec := exec_head (i := .streamOpen) rfl h
    split
    next f hfault =>
      simp only [show streamOpenFault (atHand e s) (begun e) (chanOf (atHand e s) (par (begun e) 0 1)) = some f from hfault] at hexec
      exact answers_of_refused hexec
    next hfault =>
      simp only [show streamOpenFault (atHand e s) (begun e) (chanOf (atHand e s) (par (begun e) 0 1)) = none from hfault] at hexec
      exact answers_of_commit hexec rfl
  case close =>
    split
    next hown => exact exec_of_head rfl h (if_neg (not_not_of_true hown))
    next hown => exact answers_of_refused (exec_of_head rfl h (if_pos (not_of_false (eq_false_of_ne_true hown))))
  case dropRefused => exact answers_of_refused (exec_of_head rfl h (if_pos (not_of_false hown)))
  case dropNothing =>
    have hexec := (exec_head (i := .streamDropRest) rfl h).trans (congrArg _ (if_neg (not_not_of_true hown)))
    simp only [show currentFrame (atHand e s) (chanOf (atHand e s) (par (begun e) 0 1)) = none from hframe] at hexec
    exact answers_of_commit hexec rfl
  case dropAlive =>
    have hexec := (exec_head (i := .streamDropRest) rfl h).trans (congrArg _ (if_neg (not_not_of_true hown)))
    simp only [show currentFrame (atHand e s) (chanOf (atHand e s) (par (begun e) 0 1)) = some x from hframe,
      show frameAlive (atHand e s) x = true from halive] at hexec
    exact hexec
  case dropDead =>
    have hexec := (exec_head (i := .streamDropRest) rfl h).trans (congrArg _ (if_neg (not_not_of_true hown)))
    simp only [show currentFrame (atHand e s) (chanOf (atHand e s) (par (begun e) 0 1)) = some x from hframe,
      show frameAlive (atHand e s) x = false from hdead] at hexec
    exact answers_of_commit hexec rfl
  case window =>
    have hexec := exec_head (i := .streamSetWindow) rfl h
    split
    · next hown => exact answers_of_refused (hexec.trans (congrArg _ (if_pos (not_of_false hown))))
    · next hown =>
      replace hexec := hexec.trans (congrArg _ (if_neg (not_not_of_true (eq_true_of_ne_false hown))))
      split
      · next hcycle => exact answers_of_refused (hexec.trans (congrArg _ (if_pos hcycle)))
      · next hcycle =>
        replace hexec := hexec.trans (congrArg _ (if_neg hcycle))
        split
        · next hopen => exact answers_of_refused (hexec.trans (congrArg _ (if_pos hopen)))
        · next hopen => exact answers_of_commit (hexec.trans (congrArg _ (if_neg hopen))) rfl

variable {s : State} {e : CmdEntry} {len base log2 number : Nat}

/-! ### EPOCH_SCHEDULE past its range checks (05 R147, R148) -/

theorem setSchedule_acct_of_running (h : s.ep.acct.running = true) : setSchedule 0 len base log2 number s =
    { s with ep := { s.ep with acct := { s.ep.acct with lenMs := len }, newLedger := some (base, log2) } } := if_pos h

theorem setSchedule_key_of_running (h : s.ep.key.running = true) : setSchedule 1 len base log2 number s =
    { s with ep := { s.ep with key := { s.ep.key with lenMs := len } } } := if_pos h

/-- Settles O22: EPOCH_SCHEDULE by its range checks, its kind and whether the schedule runs. -/
theorem timeCommandsComplete : Obligations.TimeCommandsComplete := by
  refine ⟨fun s e h => answers_of_answer (exec_head (i := .timeQuery) rfl h) rfl,
    fun s e h => answers_of_commit (exec_head (i := .timeSetPolicy) rfl h) rfl, fun s e o h hfault => ?refused,
    fun s e h hfits hkind hrun => ?acct, fun s e h hfits hkind hrun => ?key, fun s e h hfits hkind hrun hphase => ?first⟩
  case refused =>
    have hexec := exec_head (i := .epochSchedule) rfl h
    simp only [show scheduleFault (par (begun e) 0 1) (par (begun e) 8 8) (par (begun e) 16 8) (par (begun e) 24 1) = some o from hfault] at hexec
    exact answers_of_refused hexec
  all_goals
    have hexec := exec_head (i := .epochSchedule) rfl h
    simp only [show scheduleFault (par (begun e) 0 1) (par (begun e) 8 8) (par (begun e) 16 8) (par (begun e) 24 1) = none from hfits] at hexec
  case acct =>
    rw [show par (begun e) 0 1 = 0 from hkind] at hexec
    replace hexec := hexec.trans (congrArg _ (if_pos (.inl hrun)))
    rw [setSchedule_acct_of_running (s := atHand e s) hrun] at hexec
    exact answers_of_commit hexec rfl
  case key =>
    rw [show par (begun e) 0 1 = 1 from hkind] at hexec
    replace hexec := hexec.trans (congrArg _ (if_pos (.inl hrun)))
    rw [setSchedule_key_of_running (s := atHand e s) hrun] at hexec
    exact answers_of_commit hexec rfl
  case first =>
    rw [show par (begun e) 0 1 = 0 from hkind] at hexec
    exact hexec.trans (congrArg _ (if_neg (not_or.mpr ⟨ne_true_of_eq_false hrun, hphase⟩)))

end Sys2Proof.Proofs.StreamCommands
end

section
/-! SUPPORT. The random-number commands (10 R276 to R282) and the settings and counter commands (15 R378 to R392). -/
namespace Sys2Proof.Proofs.SettingsCommands
open Sys2Proof Sys2Proof.Machine Sys2Proof.Safety Sys2Proof.Laws Sys2Proof.Proofs.Packets

variable {s : State} {e : CmdEntry}

/-! ### RNG_FILL past its first phase and its span (10 R282) -/

theorem not_outsideSpan_of_cmdSpanOk {a n : Nat} (h : cmdSpanOk s e a n = true) :
    ¬ (e.port ≠ 0xFFFF ∧ (!inWindow (tgetD s.ports e.port {}) a n) = true) := by
  rcases Bool.or_eq_true_iff.mp h with hport | hwindow
  · exact fun hbad => hbad.1 (eq_of_beq hport)
  · exact fun hbad => not_not_of_true hwindow hbad.2

/-- Settles O29: RNG_RESEED by the reserves, RNG_FILL by its phase, its span and the state of FEED_6. -/
theorem randomCommandsComplete : Obligations.RandomCommandsComplete := by
  refine ⟨fun s e h => answers_of_answer (exec_head (i := .rngHealth) rfl h) rfl, fun s e h => ?reseed,
    fun s e h hphase hport hspan => ?fillOutside, fun s e h hphase hspan hready => ?fillStopped,
    fun s e h hphase hspan hready hreserve => ?fillDraw, fun s e h hphase htime => ?fillWrite⟩
  case reseed =>
    have hexec := exec_head (i := .rngReseed) rfl h
    rw [← List.not_all_eq_any_not] at hexec
    split
    next hall => exact answers_of_commit (hexec.trans (congrArg _ (if_neg (not_not_of_true hall)))) rfl
    next hall => exact answers_of_refused (hexec.trans (congrArg _ (if_pos (not_of_false (eq_false_of_ne_true hall)))))
  case fillOutside =>
    exact answers_of_refused (exec_of_head (i := .rngFill) rfl h ((if_neg hphase).trans (if_pos ⟨hport, not_of_false hspan⟩)))
  case fillStopped =>
    exact answers_of_refused (exec_of_head (i := .rngFill) rfl h ((if_neg hphase).trans ((if_neg (not_outsideSpan_of_cmdSpanOk hspan)).trans
      (if_pos (Bool.or_eq_true_iff.mpr (.inl (not_of_false hready)))))))
  case fillDraw =>
    refine exec_of_head (i := .rngFill) rfl h ((if_neg hphase).trans ((if_neg (not_outsideSpan_of_cmdSpanOk hspan)).trans (if_neg ?_)))
    rw [show feedReady (atHand e s) 6 = true from hready, show (tgetD (atHand e s).rng.feeds 6 {}).reserve = true from hreserve]
    exact Bool.false_ne_true
  case fillWrite =>
    exact exec_of_head (i := .rngFill) rfl h ((if_pos hphase).trans (if_neg (Nat.not_lt.mpr htime)))

/-! ### SETTINGS_IMAGE_LOAD (16 R390) -/

/-- Settles O25: each command by its check; SETTINGS_IMAGE_LOAD by its length, its read, the manifest and the values. -/
theorem settingsCommandsComplete : Obligations.SettingsCommandsComplete := by
  refine ⟨fun s e h => answers_of_answer (exec_head (i := .nvmQuery) rfl h) rfl, fun s e h => ?read,
    fun s e h => exec_head (i := .storeSettings) rfl h, fun s e h => ?increment, fun s e h hbad => ?imageLength,
    fun s e h hpos hmax hread => ?imageRead, fun s e v h hmin hmax hread => ?image⟩
  case read =>
    split
    next hknown => exact answers_of_answer (exec_of_head (i := .counterRead) rfl h (if_neg (not_not_of_true hknown))) rfl
    next hknown => exact answers_of_refused (exec_of_head (i := .counterRead) rfl h (if_pos (not_of_false (eq_false_of_ne_true hknown))))
  case increment =>
    have hexec := exec_head (i := .counterIncrement) rfl h
    split
    next f hfault =>
      simp only [show counterFault (begun e) (atHand e s) = some f from hfault] at hexec
      exact answers_of_refused hexec
    next hfault =>
      simp only [show counterFault (begun e) (atHand e s) = none from hfault] at hexec
      exact hexec
  case imageLength => exact answers_of_refused (exec_of_head (i := .settingsImageLoad) rfl h (if_pos hbad))
  case imageRead =>
    exact exec_of_head (i := .settingsImageLoad) rfl h ((if_neg (by show ¬ (par e 8 4 = 0 ∨ 65536 < par e 8 4); omega)).trans (if_pos (not_of_false hread)))
  case image =>
    intro n body m hbody hmanifest hlen hdigest hvalues hok hcarve
    have hexec := exec_of_head (i := .settingsImageLoad) rfl h
      ((if_neg (show ¬ (par e 8 4 = 0 ∨ 65536 < par e 8 4) by omega)).trans ((if_neg (not_not_of_true hread)).trans
        (if_neg (show ¬ (n < 7347 ∨ 48896 < body.length ∨ manifestFault s m 2 ≠ none ∨ fld m 16 4 ≠ body.length ∨ slice m 32 48 ≠ sha384 body) by
          simp [hmanifest, hlen, hdigest, Nat.not_lt.mpr hmin, Nat.not_lt.mpr hbody, n]))))
    simp only [show Config.settingsValues ((landed (begun e)).take (par (begun e) 8 4 - 7347)) = some v from hvalues] at hexec
    refine hexec.trans (congrArg _ ((if_neg (not_not_of_true hok)).trans (if_neg ?_)))
    rw [show (atHand e s).keys.carveEn = false from hcarve]
    exact Bool.false_ne_true

end Sys2Proof.Proofs.SettingsCommands
end

section
/-! SUPPORT. The Darning commands (13 R334 to R346), each by the role of its unit and by what its kind has out. -/
namespace Sys2Proof.Proofs.DarningCommands
open Sys2Proof Sys2Proof.Machine Sys2Proof.Safety Sys2Proof.Laws Sys2Proof.Proofs.Packets

variable {s : State} {e : CmdEntry} {c : Nat}

theorem not_idleSpare_of_busy (h : (jobsOn s c).isEmpty = false) : ¬ ((unitOf s c).role = .spare ∧ (jobsOn s c).isEmpty = true) :=
  fun hidle => ne_true_of_eq_false h hidle.2

theorem not_idleSpare_of_active (h : (unitOf s c).role = .active) : ¬ ((unitOf s c).role = .spare ∧ (jobsOn s c).isEmpty = true) :=
  fun hidle => by simp [h] at hidle

theorem roleGone_of_spare (h : (unitOf s c).role = .spare) : ¬ roleGone (unitOf s c).role = true := by rw [h]; exact Bool.false_ne_true

theorem roleGone_of_active (h : (unitOf s c).role = .active) : ¬ roleGone (unitOf s c).role = true := by rw [h]; exact Bool.false_ne_true

/-! ### UNIT_RETIRE and UNIT_TEST of a unit that is there (13 R339) -/

/-- Past the units that are gone, under test or of a busy kind, UNIT_RETIRE asks for an idle spare and then for the floor. -/
theorem exec_unitRetire_of_there (h : Head 0x0506 s e) (hrole : ¬ roleGone (unitOf s (par e 0 2)).role = true)
    (hbusy : kindBusy s (unitKind (par e 0 2)) = false) (htest : s.darn.test.any (fun t => t.unit == par e 0 2) = false) :
    exec .unitRetire s = .next (
      if (unitOf s (par e 0 2)).role = .spare ∧ (jobsOn s (par e 0 2)).isEmpty = true then
        answer (begun e) .ok [] (settle (unitKind (par e 0 2)) (spareCount s.eng.units (unitKind (par e 0 2))) (recordRole (par e 0 2) (some .retired)
          (setRole (par e 0 2) .retired (logCommit (begun e) (atHand e s)))))
      else if floorForbids s (par e 0 2) = true then refuseAt (begun e) .capacityFloor 0 (atHand e s)
      else setEntry e.cid (fun x => { x with committed := true }) (withdraw (par e 0 2) (.retire e.cid) (logCommit (begun e) (atHand e s)))) :=
  exec_of_head rfl h ((if_neg hrole).trans ((if_neg (ne_true_of_eq_false htest)).trans (if_neg (ne_true_of_eq_false hbusy))))

/-- A unit that is not an idle spare is withdrawn, as far as the floor lets it. -/
theorem retire_withdraws (h : Head 0x0506 s e) (hrole : ¬ roleGone (unitOf s (par e 0 2)).role = true)
    (hidle : ¬ ((unitOf s (par e 0 2)).role = .spare ∧ (jobsOn s (par e 0 2)).isEmpty = true))
    (hbusy : kindBusy s (unitKind (par e 0 2)) = false) (htest : s.darn.test.any (fun t => t.unit == par e 0 2) = false) :
    if floorForbids s (par e 0 2) = true then Answers .unitRetire e .capacityFloor 0 [] s s
    else exec .unitRetire s = .next (setEntry e.cid (fun x => { x with committed := true })
      (withdraw (par e 0 2) (.retire e.cid) (logCommit (begun e) (atHand e s)))) := by
  have hexec := (exec_unitRetire_of_there h hrole hbusy htest).trans (congrArg _ (if_neg hidle))
  split
  next hfloor => exact answers_of_refused (hexec.trans (congrArg _ (if_pos hfloor)))
  next hfloor => exact hexec.trans (congrArg _ (if_neg hfloor))

/-- The same of UNIT_TEST, for a unit that is neither an idle spare nor gone. -/
theorem test_withdraws (h : Head 0x0507 s e) (hrole : ¬ roleGone (unitOf s (par e 0 2)).role = true)
    (hidle : ¬ ((unitOf s (par e 0 2)).role = .spare ∧ (jobsOn s (par e 0 2)).isEmpty = true))
    (hbusy : kindBusy s (unitKind (par e 0 2)) = false) :
    if floorForbids s (par e 0 2) = true then Answers .unitTest e .capacityFloor 0 [] s s
    else exec .unitTest s = .next (setEntry e.cid (fun x => { x with committed := true }) (withdraw (par e 0 2) (.test e.cid) (atHand e s))) := by
  have hexec := (exec_head (i := .unitTest) rfl h).trans
    (congrArg _ ((if_neg (ne_true_of_eq_false hbusy)).trans (if_neg (not_or.mpr ⟨hidle, hrole⟩))))
  split
  next hfloor => exact answers_of_refused (hexec.trans (congrArg _ (if_pos hfloor)))
  next hfloor => exact hexec.trans (congrArg _ (if_neg hfloor))

/-- Settles O24: UNIT_RETIRE and UNIT_TEST by the role of the unit, SWEEP_CONTROL by ENABLE, ROW_REPAIR by its check. -/
theorem darningCommandsComplete : Obligations.DarningCommandsComplete := by
  refine ⟨fun s e h hgone => ?retireGone, fun s e h hspare hidle hbusy htest => ?retireSpare, fun s e h hspare hjobs hbusy htest => ?retireRetry,
    fun s e h hactive hbusy htest => ?retireActive, fun s e h hthere hbusy => ?test, fun s e h hspare hjobs hbusy => ?testRetry,
    fun s e h hactive hbusy => ?testActive, fun s e h hon hperiod => ?sweepOn, fun s e h hoff => ?sweepOff, fun s e h => ?repair⟩
  case retireGone => exact answers_of_commit (exec_of_head (i := .unitRetire) rfl h (if_pos hgone)) rfl
  case retireSpare =>
    exact (exec_unitRetire_of_there h (roleGone_of_spare hspare) hbusy htest).trans (congrArg _ (if_pos ⟨hspare, hidle⟩))
  case retireRetry => exact retire_withdraws h (roleGone_of_spare hspare) (not_idleSpare_of_busy hjobs) hbusy htest
  case retireActive => exact retire_withdraws h (roleGone_of_active hactive) (not_idleSpare_of_active hactive) hbusy htest
  case test => exact exec_of_head rfl h ((if_neg (ne_true_of_eq_false hbusy)).trans (if_pos hthere))
  case testRetry => exact test_withdraws h (roleGone_of_spare hspare) (not_idleSpare_of_busy hjobs) hbusy
  case testActive => exact test_withdraws h (roleGone_of_active hactive) (not_idleSpare_of_active hactive) hbusy
  case sweepOn =>
    have hexec := exec_head (i := .sweepControl) rfl h
    simp only [show par (begun e) 4 1 = 1 from hon, show (par (begun e) 0 4 != 0) = true from bne_iff_ne.mpr hperiod, beq_self_eq_true, Bool.true_or,
      Bool.true_and, if_true] at hexec
    exact answers_of_commit hexec rfl
  case sweepOff =>
    have hexec := exec_head (i := .sweepControl) rfl h
    simp only [show par (begun e) 4 1 = 0 from hoff, show (0 == 1) = false from rfl, Bool.false_and, Bool.false_eq_true, if_false] at hexec
    exact ⟨_, answers_of_commit hexec rfl⟩
  case repair =>
    have hexec := exec_head (i := .rowRepair) rfl h
    split
    next f hfault =>
      simp only [show rowFault (begun e) (atHand e s) = some f from hfault] at hexec
      exact answers_of_refused hexec
    next hfault =>
      simp only [show rowFault (begun e) (atHand e s) = none from hfault] at hexec
      exact hexec

end Sys2Proof.Proofs.DarningCommands
end

section
/-! SUPPORT. The firmware commands (16 R394 to R412), each by the state of the transfer and its checks. -/
namespace Sys2Proof.Proofs.FirmwareCommands
open Sys2Proof Sys2Proof.Machine Sys2Proof.Safety Sys2Proof.Laws Sys2Proof.Proofs.Packets

variable {s u : State} {e : CmdEntry}

/-! ### FW_CHUNK in its turn, its bytes at hand (16 R396) -/

theorem exec_fwChunk_of_turn (h : Head 0x0701 s e) (hstate : s.fw.state = .transfer) (hturn : par e 0 4 = nextChunk s.fw)
    (hlast : par e 0 4 < s.fw.beginChunks) (hlen : par e 4 4 = chunkLen s.fw.beginLen s.fw.beginChunks (par e 0 4)) :
    exec .fwChunk s = .next (
      if !e.readIssued then cmdRead (begun e) (par e 8 8) (par e 4 4) (atHand e s)
      else match takeChunk (atHand e s) (par e 0 4) (landed e) with
        | .inl st => failTransfer (begun e) st (atHand e s)
        | .inr (f, []) => answer (begun e) .ok [] (logCommit (begun e) { atHand e s with fw := f })
        | .inr (f, ops) => setEntry e.cid (fun x => { x with committed := true, reply := some (replyTo s e .ok 0 [] false) })
            (logCommit (begun e) (queueOps (withCid e.cid ops) { atHand e s with fw := f }))) := by
  have hinTurn : ¬ (s.fw.state ≠ .transfer ∨ par e 0 4 ≠ nextChunk s.fw ∨ s.fw.beginChunks ≤ par e 0 4) :=
    not_or.mpr ⟨not_not_intro hstate, not_or.mpr ⟨not_not_intro hturn, Nat.not_le.mpr hlast⟩⟩
  exact exec_of_head (i := .fwChunk) rfl h ((if_neg hinTurn).trans (if_neg (not_not_intro hlen)))

/-! ### What FW_ABORT and ACTIVATE_AT ask (16 R398, R403) -/

theorem abort_refused_iff (f : Fw) : (f.relay || !(f.state == .transfer || f.state == .staged || f.state == .scheduled)) = true
    ↔ ¬ (f.relay = false ∧ (f.state = .transfer ∨ f.state = .staged ∨ f.state = .scheduled)) := by
  cases f.relay <;> simp [and_assoc]

/-- An instant more than 7 days ahead of the gateway time is not set. -/
theorem schedule_of_far {v : State} {sec ns : Nat} (htime : gNs v = gNs s) (h : gNs s + 604800000000000 < sec * 1000000000 + ns) :
    (schedule sec ns v).getD u = u := by
  rw [show schedule sec ns v = none from if_pos (htime ▸ h)]
  rfl

/-- Any other is set, or is past and acts as ACTIVATE. -/
theorem schedule_of_near {sec ns : Nat} (h : ¬ gNs s + 604800000000000 < sec * 1000000000 + ns) : schedule sec ns s = some (
    let s1 := { s with fw := { s.fw with actSec := sec, actNs := ns } }
    if sec * 1000000000 + ns ≤ gNs s then prepare true s1 else { s1 with fw := { s1.fw with state := .scheduled, immediate := false } }) := if_neg h

theorem schedule_getD_of_near {v : State} {sec ns : Nat} (htime : gNs v = gNs s) (h : ¬ gNs s + 604800000000000 < sec * 1000000000 + ns) :
    (schedule sec ns v).getD u =
      let s1 := { v with fw := { v.fw with actSec := sec, actNs := ns } }
      if sec * 1000000000 + ns ≤ gNs s then prepare true s1 else { s1 with fw := { s1.fw with state := .scheduled, immediate := false } } := by
  rw [schedule_of_near (htime ▸ h), Option.getD_some, htime]

/-- Settles O26: each command by the state that admits it; FW_CHUNK by its read and by the operations that its chunk needs. -/
theorem firmwareCommandsComplete : Obligations.FirmwareCommandsComplete := by
  refine ⟨fun s e h => ?begins, fun s e h hstate hturn hlast hlen hread => ?chunkRead,
    fun s e f h hstate hturn hlast hlen hread htake => ?chunkKept, fun s e f ops h hstate hturn hlast hlen hread htake hops => ?chunkWritten,
    fun s e h hstate hwhole hgood => ?ends, fun s e h => ?abort, fun s e h => ?activate, fun s e h => ?activateAt,
    fun s e h hstate => ?confirmRefused, fun s e h hstate hself hroll => ?confirm, fun s e h hmin hmax hread => ?relayRead,
    fun s e h hmin hmax hread hphase hlen hform hout hkind => ?relay⟩
  case begins =>
    have hexec := exec_head (i := .fwBegin) rfl h
    split
    next f hfault =>
      simp only [show fwBeginFault (begun e) (atHand e s) = some f from hfault] at hexec
      exact answers_of_refused hexec
    next hfault =>
      simp only [show fwBeginFault (begun e) (atHand e s) = none from hfault] at hexec
      exact hexec
  case chunkRead => exact (exec_fwChunk_of_turn h hstate hturn hlast hlen).trans (congrArg _ (if_pos (not_of_false hread)))
  case chunkKept =>
    have hexec := (exec_fwChunk_of_turn h hstate hturn hlast hlen).trans (congrArg _ (if_neg (not_not_of_true hread)))
    rw [htake] at hexec
    exact answers_of_commit hexec rfl
  case chunkWritten =>
    have hexec := (exec_fwChunk_of_turn h hstate hturn hlast hlen).trans (congrArg _ (if_neg (not_not_of_true hread)))
    rw [htake] at hexec
    cases ops with
    | nil => exact absurd rfl hops
    | cons o r => exact hexec
  case ends =>
    have hopen : ¬ (s.fw.state ≠ .transfer ∧ s.fw.state ≠ .staged) := by
      rcases hstate with hstate | hstate <;> simp [hstate]
    have hexec := (exec_head (i := .fwEnd) rfl h).trans (congrArg _ ((if_neg hopen).trans (if_neg (not_not_intro hwhole))))
    rw [hgood] at hexec
    exact answers_of_commit hexec rfl
  case abort =>
    have hexec := exec_head (i := .fwAbort) rfl h
    split
    next hown => exact hexec.trans (congrArg _ (if_neg (mt (abort_refused_iff s.fw).mp (not_not_intro hown))))
    next hother => exact answers_of_refused (hexec.trans (congrArg _ (if_pos ((abort_refused_iff s.fw).mpr hother))))
  case activate =>
    have hexec := exec_head (i := .activate) rfl h
    split
    next hstaged => exact hexec.trans (congrArg _ (if_neg (not_not_intro hstaged)))
    next hstaged => exact answers_of_refused (hexec.trans (congrArg _ (if_pos hstaged)))
  case activateAt =>
    have hexec := exec_head (i := .activateAt) rfl h
    split
    next hstaged => exact answers_of_refused (hexec.trans (congrArg _ (if_pos hstaged)))
    next hstaged =>
      replace hexec := hexec.trans (congrArg _ (if_neg hstaged))
      intro t s1
      split
      next hfar => exact answers_of_refused (hexec.trans (congrArg _ (schedule_of_far (s := s) rfl hfar)))
      next hnear => exact hexec.trans (congrArg _ (schedule_getD_of_near (s := s) rfl hnear))
  case confirmRefused => exact answers_of_refused (exec_of_head (i := .confirmHealth) rfl h (if_pos hstate))
  case confirm =>
    refine exec_of_head (i := .confirmHealth) rfl h ((if_neg (not_not_intro hstate)).trans (if_neg ?_))
    rw [show (atHand e s).fw.selfPass = true from hself, show (atHand e s).fw.rollDone = true from hroll]
    exact Bool.false_ne_true
  case relayRead =>
    exact exec_of_head (i := .relayPacket) rfl h
      ((if_neg (show ¬ (par e 8 4 < 32 ∨ 4128 < par e 8 4) by omega)).trans (if_pos (not_of_false hread)))
  case relay =>
    have hexec := exec_of_head (i := .relayPacket) rfl h
      ((if_neg (show ¬ (par e 8 4 < 32 ∨ 4128 < par e 8 4) by omega)).trans ((if_neg (not_not_of_true hread)).trans
        ((if_neg hphase).trans ((if_neg (not_not_intro hlen)).trans ((if_neg (not_not_of_true hform)).trans (if_neg (Nat.not_lt.mpr hout)))))))
    rw [show relayKind (landed (begun e)) = 1 from hkind] at hexec
    exact hexec

end Sys2Proof.Proofs.FirmwareCommands
end

section
/-! SUPPORT. The card commands (17 R420 to R436), each by the state of the slot. -/
namespace Sys2Proof.Proofs.CardCommands
open Sys2Proof Sys2Proof.Machine Sys2Proof.Safety Sys2Proof.Laws Sys2Proof.Proofs.Packets

variable {s : State} {e : CmdEntry} {locked : Bool} {f : State → State}

/-! ### The slot's state (17 Table 17-4) -/

theorem withCard_of_fault {d : Status × Nat} (hidle : cardBusy s.fol = false) (hfault : slotFault locked s = some d) :
    withCard locked e f s = refuseAt e d.1 d.2 s := by
  simp only [withCard, hidle, hfault, Bool.false_eq_true, if_false]

theorem withCard_of_admitted (hidle : cardBusy s.fol = false) (hfault : slotFault locked s = none) : withCard locked e f s = f s := by
  simp only [withCard, hidle, hfault, Bool.false_eq_true, if_false]

/-- Settles O27: CARD_POWER by the card, the others past the slot's state by their own checks. -/
theorem cardCommandsComplete : Obligations.CardCommandsComplete := by
  refine ⟨fun s e h => answers_of_answer (exec_head (i := .cardQuery) rfl h) rfl, fun s e h => ?power,
    fun s e d h hidle hfault => ?unlockRefused, fun s e h hidle hfault hlocked => ?unlock, fun s e h hidle hfault hfeature => ?setPassword,
    fun s e h hidle hfault => ?erase, fun s e h hidle hfault hphase hroom => ?write, fun s e h hlen => ?restoreLong,
    fun s e h hlen hidle hfault hroom => ?restore⟩
  case power =>
    have hexec := exec_head (i := .cardPower) rfl h
    split
    next hoff => exact answers_of_answer (hexec.trans (congrArg _ (if_pos hoff))) rfl
    next hon =>
      replace hexec := hexec.trans (congrArg _ (if_neg hon))
      split
      next habsent => exact answers_of_answer (hexec.trans (congrArg _ (if_pos (not_of_false habsent)))) rfl
      next hseated => exact hexec.trans (congrArg _ (if_neg (not_not_of_true (eq_true_of_ne_false hseated))))
  case unlockRefused => exact answers_of_refused (exec_of_head (i := .cardUnlock) rfl h (withCard_of_fault (s := atHand e s) hidle hfault))
  case unlock =>
    refine exec_of_head (i := .cardUnlock) rfl h ((withCard_of_admitted (s := atHand e s) hidle hfault).trans (if_neg ?_))
    exact fun hready => hlocked ⟨hready.1, eq_false_of_ne_true fun hset => not_not_of_true hset hready.2⟩
  case setPassword =>
    have hexec := exec_of_head (i := .cardSetPassword) rfl h (withCard_of_admitted (s := atHand e s) hidle hfault)
    simp only [show passwordFault (atHand e s) = none from hfeature] at hexec
    exact hexec
  case erase => exact exec_of_head (i := .cardForceErase) rfl h (withCard_of_admitted (s := atHand e s) hidle hfault)
  case write =>
    have hexec := exec_of_head (i := .archiveWrite) rfl h ((withCard_of_admitted (s := atHand e s) hidle hfault).trans (if_pos hphase))
    simp only [show archiveFault (atHand e s) = none from hroom] at hexec
    exact hexec
  case restoreLong => exact answers_of_refused (exec_of_head (i := .archiveRestore) rfl h (if_pos hlen))
  case restore =>
    exact exec_of_head (i := .archiveRestore) rfl h ((if_neg (show ¬ 16384 < par e 8 4 by omega)).trans
      ((withCard_of_admitted (s := atHand e s) hidle hfault).trans ((if_pos hlen).trans (if_neg (Nat.not_lt.mpr hroom)))))

end Sys2Proof.Proofs.CardCommands
end

section
/-! SUPPORT. The identity operations (18 Table 18-2, R440 to R449): their common checks, their input, the block's Hook work, and then what
each does. -/
namespace Sys2Proof.Proofs.IdentityOperations
open Sys2Proof Sys2Proof.Machine Sys2Proof.Safety Sys2Proof.Laws Sys2Proof.Proofs.Packets

variable {s u : State} {e : CmdEntry} {srcLen out n : Nat} {states : List Nat}

/-! ### What every operation asks first -/

theorem idChecked_of_fits {f : State → State} (hsrc : par e 8 4 = srcLen) (hout : out ≤ par e 24 4) (hstate : s.fuse.lifecycle ∈ states) :
    idChecked e srcLen out states f s = f s := by
  simp [idChecked, hsrc, Nat.not_lt.mpr hout, hstate]

theorem idChecked_of_length {f : State → State} (h : par e 8 4 ≠ srcLen ∨ par e 24 4 < out) :
    idChecked e srcLen out states f s = idRefuse e .invalidField s := if_pos h

theorem idChecked_of_lifecycle {f : State → State} (hsrc : par e 8 4 = srcLen) (hout : out ≤ par e 24 4) (hstate : s.fuse.lifecycle ∉ states) :
    idChecked e srcLen out states f s = idRefuse e .notPermitted s := by
  simp [idChecked, hsrc, Nat.not_lt.mpr hout, hstate]

theorem withInput_of_unread {f : Bytes → State → State} (h : e.readIssued = false) : withInput e n f s = cmdRead e (par e 0 8) n s :=
  if_pos (not_of_false h)

theorem withInput_of_read {f : Bytes → State → State} (h : e.readIssued = true) : withInput e n f s = f (landed e) s :=
  if_neg (not_not_of_true h)

theorem onHook_of_booked {f : State → State} (h : bookHook n s = some u) : onHook e n f s = f u := by
  simp only [onHook, h]

/-- Settles O30: each operation past the checks, by its input and its own tests. -/
theorem identityOperationsComplete : Obligations.IdentityOperationsComplete := by
  refine ⟨fun s e h hsrc hout hstate => ?cert, fun s e h hbad => ?certLength, fun s e h hsrc hout hstate => ?certState,
    fun s e h hsrc hout hstate hread => ?attestRead, fun s e s1 s2 out h hsrc hout hstate hread hfeed hbook hsign => ?attest,
    fun s e s1 s3 out h hsrc hout hstate hfeed hbook => ?rewrap, fun s e h hsrc hstate hread => ?provRead,
    fun s e h hsrc hstate hread hsame => ?provSame, fun s e s1 h hsrc hstate hread hother hinit hbook hsigned hblock hnewer => ?prov,
    fun s e h hsrc hstate hread => ?pairRead, fun s e s1 h hsrc hstate hread hother hbook hsigned hblock hnewer => ?pair,
    fun s e s1 h hsrc hstate hread hbook hsigned hblock hpath => ?lifecycle⟩
  case cert => exact exec_of_head (i := .readCert) rfl h (idChecked_of_fits (e := begun e) (s := atHand e s) hsrc hout hstate)
  case certLength => exact answers_of_refused (exec_of_head (i := .readCert) rfl h (idChecked_of_length (e := begun e) (s := atHand e s) hbad))
  case certState => exact answers_of_refused (exec_of_head (i := .readCert) rfl h (idChecked_of_lifecycle (e := begun e) (s := atHand e s) hsrc hout hstate))
  case attestRead =>
    exact exec_of_head (i := .attest) rfl h ((idChecked_of_fits (e := begun e) (s := atHand e s) hsrc hout hstate).trans (withInput_of_unread (e := begun e) (s := atHand e s) hread))
  case attest =>
    have hexec := exec_of_head (i := .attest) rfl h ((idChecked_of_fits (e := begun e) (s := atHand e s) hsrc hout hstate).trans
      ((withInput_of_read (e := begun e) (s := atHand e s) hread).trans ((if_neg (not_not_of_true hfeed)).trans (onHook_of_booked hbook))))
    simp only [show signObject (statement (landed (begun e)) s1) s1 = (some out, s2) from hsign] at hexec
    exact hexec
  case rewrap =>
    intro n draw s2 hsign
    have hexec := exec_of_head (i := .rewrapKey) rfl h ((idChecked_of_fits (e := begun e) (s := atHand e s) hsrc hout (List.mem_singleton.mpr hstate)).trans
      ((if_neg (not_not_of_true hfeed)).trans (onHook_of_booked hbook)))
    simp only [show signObject (rewrapRequest (wrapInc 32 s1.id.lastRequest) (freeBytes s1 112) (feedDraw 7 (feedDraw 7 (useFree 112 s1))))
      (feedDraw 7 (feedDraw 7 (useFree 112 s1))) = (some out, s3) from hsign] at hexec
    exact hexec
  case provRead =>
    exact exec_of_head (i := .provision) rfl h ((idChecked_of_fits (e := begun e) (s := atHand e s) hsrc (Nat.zero_le _) hstate).trans
      (withInput_of_unread (e := begun e) (s := atHand e s) hread))
  case provSame =>
    exact answers_of_answer (exec_of_head (i := .provision) rfl h ((idChecked_of_fits (e := begun e) (s := atHand e s) hsrc (Nat.zero_le _) hstate).trans
      ((withInput_of_read (e := begun e) (s := atHand e s) hread).trans (if_pos hsame)))) rfl
  case prov =>
    have hinitial : (fld (landed e) 5 1 % 2 == 1) = false := by
      rw [hinit]
      rfl
    intro c
    refine exec_of_head (i := .provision) rfl h ((idChecked_of_fits (e := begun e) (s := atHand e s) hsrc (Nat.zero_le _) hstate).trans
      ((withInput_of_read (e := begun e) (s := atHand e s) hread).trans ((if_neg hother).trans ((if_neg ?notFinal).trans
        ((onHook_of_booked hbook).trans ((if_neg ?accepted).trans (if_neg (ne_true_of_eq_false hinitial))))))))
    case notFinal => exact fun hfinal => ne_true_of_eq_false hinitial hfinal.2
    case accepted =>
      intro hbad
      simp only [Bool.or_eq_true, Bool.and_eq_true] at hbad
      obtain ((hunsigned | hforeign) | hold) | ⟨hfinal, -⟩ := hbad
      · exact not_not_of_true hsigned hunsigned
      · exact bne_iff_ne.mp hforeign hblock
      · exact Nat.not_le.mpr hnewer (of_decide_eq_true hold)
      · exact ne_true_of_eq_false hinitial hfinal
  case pairRead =>
    exact exec_of_head (i := .pair) rfl h ((idChecked_of_fits (e := begun e) (s := atHand e s) hsrc (Nat.zero_le _) hstate).trans
      (withInput_of_unread (e := begun e) (s := atHand e s) hread))
  case pair =>
    refine exec_of_head (i := .pair) rfl h ((idChecked_of_fits (e := begun e) (s := atHand e s) hsrc (Nat.zero_le _) hstate).trans
      ((withInput_of_read (e := begun e) (s := atHand e s) hread).trans ((if_neg hother).trans ((onHook_of_booked hbook).trans (if_neg ?_)))))
    intro hbad
    simp only [Bool.or_eq_true] at hbad
    obtain (hunsigned | hforeign) | hold := hbad
    · exact not_not_of_true hsigned hunsigned
    · exact bne_iff_ne.mp hforeign hblock
    · exact Nat.not_le.mpr hnewer (of_decide_eq_true hold)
  case lifecycle =>
    refine exec_of_head (i := .lifecycle) rfl h ((idChecked_of_fits (e := begun e) (s := atHand e s) hsrc (Nat.zero_le _) hstate).trans
      ((withInput_of_read (e := begun e) (s := atHand e s) hread).trans ((onHook_of_booked hbook).trans (if_neg ?_))))
    intro hbad
    simp only [Bool.or_eq_true] at hbad
    obtain (hunsigned | hforeign) | hpathless := hbad
    · exact not_not_of_true hsigned hunsigned
    · exact bne_iff_ne.mp hforeign hblock
    · exact not_not_of_true hpath hpathless

end Sys2Proof.Proofs.IdentityOperations
end

section
/-! SUPPORT. The step itself, a cycle without work (log 1), the state after reset, and what a reaction timer holds up (12 R324). -/
namespace Sys2Proof.Proofs.Cycle
open Sys2Proof Sys2Proof.Machine Sys2Proof.Safety Sys2Proof.Laws Sys2Proof.Proofs.Invariants

variable {s : State} {n d : Nat} {r : Src} {l : Tbl Src}

/-! ### Reaction timers (12 R324) -/

/-- One source in the search for the timer that runs out first. -/
def earlierTimer (a : Option (Nat × Nat)) (e : Nat × Src) : Option (Nat × Nat) :=
  match e.2.timer with
  | none => a
  | some t => match a with
    | none => some (e.1, t)
    | some b => if t < b.2 then some (e.1, t) else a

theorem firstTimer_eq (f : Flt) : firstTimer f = f.sources.foldl earlierTimer none := rfl

theorem earlierTimer_isSome_of_isSome {a : Option (Nat × Nat)} (h : a.isSome = true) (e : Nat × Src) : (earlierTimer a e).isSome = true := by
  obtain ⟨b, rfl⟩ := Option.isSome_iff_exists.mp h
  unfold earlierTimer
  cases e.2.timer with
  | none => rfl
  | some t => exact (ite_self (c := t < b.2) true) ▸ apply_ite Option.isSome _ _ _

theorem earlierTimer_isSome_of_timer (h : r.timer = some d) (a : Option (Nat × Nat)) : (earlierTimer a (n, r)).isSome = true := by
  unfold earlierTimer
  rw [h]
  cases a with
  | none => rfl
  | some b => exact (ite_self (c := d < b.2) true) ▸ apply_ite Option.isSome _ _ _

theorem foldl_earlierTimer_isSome {a : Option (Nat × Nat)} (h : a.isSome = true) : (l.foldl earlierTimer a).isSome = true := by
  induction l generalizing a with
  | nil => exact h
  | cons e r ih => exact ih (earlierTimer_isSome_of_isSome h e)

/-- A source whose timer runs makes the search find one. -/
theorem foldl_earlierTimer_of_mem (h : r.timer = some d) (hmem : (n, r) ∈ l) (a : Option (Nat × Nat)) :
    (l.foldl earlierTimer a).isSome = true := by
  induction l generalizing a with
  | nil => cases hmem
  | cons e rest ih =>
    rw [List.foldl_cons]
    rcases List.mem_cons.mp hmem with heq | hrest
    · subst heq
      exact foldl_earlierTimer_isSome (earlierTimer_isSome_of_timer h a)
    · exact ih hrest _

theorem not_deepIdle_of_timer (hmem : (n, r) ∈ s.flt.sources) (h : r.timer = some d) : deepIdle s = false := by
  have htimer : (firstTimer s.flt).isNone = false := by
    rw [firstTimer_eq, Option.isNone_eq_false_iff]
    exact foldl_earlierTimer_of_mem h hmem none
  simp [deepIdle, htimer]

/-- Settles O55: both rows ask for deep-idle, which a running timer denies. -/
theorem reactionTimersHoldPowerEntry : Obligations.ReactionTimersHoldPowerEntry := by
  intro s n r d hmem htimer
  have hidle : deepIdle s = false := not_deepIdle_of_timer hmem htimer
  constructor
  · change execDeepIdleEntry s = _
    unfold execDeepIdleEntry
    split
    · rfl
    · simp [hidle]
  · change execPowerEntryCommit s = _
    unfold execPowerEntryCommit
    split
    · rfl
    · simp [hidle]

/-! ### The step and the reset -/

/-- Settles O1: the step's own second case. -/
theorem stepRunsFrontCommand : Obligations.StepRunsFrontCommand := by
  intro c rest s hqueue
  simp only [step, hqueue]

/-- Settles O5: the values of the reset state, evaluated. -/
theorem resetHoldsStatedValues : Obligations.ResetHoldsStatedValues := by
  unfold Obligations.ResetHoldsStatedValues
  decide

/-- Settles O6: no source, no message and no lease at reset. -/
theorem resetIsSound : Obligations.ResetIsSound := by
  exact ⟨⟨rfl, rfl⟩, ⟨List.nodup_nil, fun hsevere => absurd rfl hsevere⟩, fun x hx => nomatch hx⟩

/-! ### A cycle in which nothing is due -/

theorem lateClears_of_no_jobs (h : s.jobs = []) : lateClears s = [] := by
  rw [lateClears, List.filterMap_eq_nil_iff]
  intro l _
  cases l.2.zeroing with
  | none => rfl
  | some z => simp [h]

theorem moveClears_nil (l : Tbl Lease) : moveClears [] l = l := List.map_id' l

/-- Without jobs no queue moves. -/
theorem settleQueues_of_no_jobs (h : s.jobs = []) : settleQueues s = s := by
  have hjobs : (settleQueues s).jobs = s.jobs := by simp [settleQueues, h, tmap]
  change { s with jobs := (settleQueues s).jobs, eng := { s.eng with leases := moveClears (lateClears s) s.eng.leases } } = s
  rw [hjobs, lateClears_of_no_jobs h, moveClears_nil]

theorem startDue_of_idle (h : running s = false ∨ s.jobs = []) : startDue s = s := by
  unfold startDue
  rcases h with hstopped | hnone
  · rw [if_neg (ne_true_of_eq_false hstopped)]
  · rw [settleQueues_of_no_jobs hnone, hnone]
    exact ite_self s

theorem trainSteps_of_trained (h : s.link.training = false) : trainSteps s = s := if_neg (ne_true_of_eq_false h)

theorem heldBells_of_empty_porch (h : s.pwr.porch = []) : heldBells s = s := by
  simp [heldBells, h]

theorem crpAccept_of_none_waiting (h : s.pwr.crpWait = []) : crpAccept s = s := by
  rw [crpAccept, h, List.foldl_nil, ← h]
  exact ite_self s

/-- The time moved on by one cycle. -/
def clockOn (s : State) : State :=
  { s with clk := { s.clk with now := s.clk.now + 1 }, tim := if aonOn s then tickTim s.tim else s.tim }

theorem tick_of_idle (hidle : running s = false ∨ s.jobs = []) (htraining : s.link.training = false) (hporch : s.pwr.porch = [])
    (hwait : s.pwr.crpWait = []) : tick s = trackIdle (refreshXoff (clockOn s)) := by
  change crpAccept (heldBells (trainSteps (trackIdle (refreshXoff (startDue (clockOn s)))))) = _
  rw [startDue_of_idle (s := clockOn s) hidle,
    trainSteps_of_trained (s := trackIdle (refreshXoff (clockOn s))) htraining,
    heldBells_of_empty_porch (s := trackIdle (refreshXoff (clockOn s))) hporch,
    crpAccept_of_none_waiting (s := trackIdle (refreshXoff (clockOn s))) hwait]

/-- Settles O2: a cycle keeps what `tick_keeps` says, and without due work only the time, the idle times and XOFF move. -/
theorem emptyQueuePassesOneCycle : Obligations.EmptyQueuePassesOneCycle := by
  intro s hempty
  have hkept : Keeps (clockOn s) (tick s) := tick_keeps s
  refine ⟨tick s, by simp only [step, hempty], now_of_keeps hkept, (pending_of_keeps hkept).trans hempty, (fuse_of_keeps hkept :),
    e_of_keeps hkept, fun hidle htraining hporch hwait => ?_⟩
  rw [tick_of_idle hidle htraining hporch hwait]
  exact ⟨rfl, rfl, rfl⟩

end Sys2Proof.Proofs.Cycle
end

section
/-! SUPPORT. The resets, the supplies and the clocks (02 R53, R55; 14 R350 to R359; 15 R380). -/
namespace Sys2Proof.Proofs.ResetsAndSupplies
open Sys2Proof Sys2Proof.Machine Sys2Proof.Safety Sys2Proof.Laws Sys2Proof.Proofs.Packets

variable {s : State}

/-! ### What an erase and the settling of the NVM's operations leave alone -/

theorem eraseContent_regs (l : Nat) (s : State) : (eraseContent l s).regs = s.regs := by
  unfold eraseContent
  split
  · rfl
  · split
    · rfl
    · split
      · rfl
      · split <;> rfl

theorem settleOps_regs (s : State) : (settleOps s).regs = s.regs := by
  unfold settleOps
  cases hops : s.nvm.ops with
  | nil => rfl
  | cons o rest =>
    dsimp only
    split
    · split
      · exact eraseContent_regs _ s
      · rfl
    · rfl

/-- Settles O31: the two resets by what they set; each supply and clock row by the state of its pin. -/
theorem resetsAndSuppliesComplete : Obligations.ResetsAndSuppliesComplete := by
  refine ⟨fun s => ?powerOn, fun s => ?powerOff, fun s hpower hout => ?coreReset, fun s tests hpower hin hvalid => ?release,
    fun s hcore hstage hen hinit htree => ?carve, fun s hpower hpll => ?pll, fun s hpower hxtal => ?xtalLoss, fun s hpower => ?xtalReturn,
    fun s hpower hhigh => ?brownout, fun s hpower hlow => ?recover, fun s hpower hlow hdue => ?lowTimeout⟩
  case powerOn => exact ⟨_, rfl, rfl, rfl, rfl, rfl, rfl, rfl, rfl, rfl, rfl, rfl, rfl, rfl, rfl, rfl, rfl, (fullReset_keeps true s).2.1⟩
  case powerOff => exact ⟨_, rfl, rfl, rfl, rfl, rfl, rfl, rfl, rfl, rfl, (fullReset_keeps false s).2.1⟩
  case coreReset =>
    obtain ⟨_, hfuse, hnow, he, _⟩ := coreReset_keeps s { s with pins := { s.pins with pllLost := false, laneRefLost := false } }
      ⟨rfl, rfl, rfl, rfl, id, id, id⟩
    refine ⟨_, RingReset.exec_coreResetAssert_of_running hpower hout, rfl, rfl, rfl, rfl, rfl, rfl, ?_, rfl, rfl, rfl, rfl, rfl, he, hnow, hfuse⟩
    exact congrArg (fun r : Regs => ({ sectorSel := r.sectorSel } : Regs)) (settleOps_regs _)
  case release =>
    exact (if_neg (not_not_of_true hvalid)).trans (congrArg Host.Outcome.next (if_pos (and_of hpower hin)))
  case carve =>
    exact congrArg Host.Outcome.next
      (if_pos (and_of (and_of (and_of (and_of hcore (decide_eq_true hstage)) hen) hinit) (beq_iff_eq.mpr htree)))
  case pll => exact congrArg Host.Outcome.next (if_pos (and_of hpower (not_of_false hpll)))
  case xtalLoss => exact congrArg Host.Outcome.next (if_pos (and_of hpower (not_of_false hxtal)))
  case xtalReturn => exact congrArg Host.Outcome.next (if_pos hpower)
  case brownout => exact congrArg Host.Outcome.next (if_pos (and_of hpower (not_of_false hhigh)))
  case recover => exact congrArg Host.Outcome.next (if_pos (and_of hpower hlow))
  case lowTimeout => exact congrArg Host.Outcome.next (if_pos (and_of (and_of hpower hlow) (decide_eq_true hdue)))

end Sys2Proof.Proofs.ResetsAndSupplies
end

section
/-! SUPPORT. The rows of the fabric ports (02 R33 to R39, R53, R58; 05 R129). -/
namespace Sys2Proof.Proofs.FabricRows
open Sys2Proof Sys2Proof.Machine Sys2Proof.Safety Sys2Proof.Laws Sys2Proof.Proofs.Packets

variable {s : State} {port : Fin 4} {tag : BitVec 11} {st : RspStatus} {ok last : Bool} {data : Bytes} {n k : Nat} {x : Txn}

/-! ### What a response meets: the pins of the port, and the transaction of its tag -/

theorem exec_fabReadData (hlen : data.length = 128) (hpins : fabPins s port.val = true) :
    exec (.fabReadData port tag st ok last data) s = .next (readBeat port.val tag.toNat st ok last data s) :=
  (if_neg (not_not_intro hlen)).trans (congrArg Host.Outcome.next (if_pos hpins))

theorem exec_fabWriteAck (hpins : fabPins s port.val = true) : exec (.fabWriteAck port tag st) s = .next (writeAck port.val tag.toNat st s) :=
  congrArg Host.Outcome.next (if_pos hpins)

theorem exec_fabReadData_of_routed (hlen : data.length = 128) (hpins : fabPins s port.val = false) :
    exec (.fabReadData port tag st ok last data) s = .next s :=
  (if_neg (not_not_intro hlen)).trans (congrArg Host.Outcome.next (if_neg (ne_true_of_eq_false hpins)))

section Response
variable (hdeaf : portDeaf s n = false) (hq : (portN s n).quarantine.contains k = false)
include hdeaf hq

theorem readBeat_of_none (hnone : (portN s n).txns.find? (fun t => t.tag == k) = none) : readBeat n k st ok last data s = isolatePort n k s := by
  simp only [readBeat, hdeaf, hq, hnone, Bool.false_eq_true, if_false]

theorem writeAck_of_none (hnone : (portN s n).txns.find? (fun t => t.tag == k) = none) : writeAck n k st s = isolatePort n k s := by
  simp only [writeAck, hdeaf, hq, hnone, Bool.false_eq_true, if_false]

/-- A beat with no error of a read with none before it, no injection armed. -/
theorem readBeat_of_good (hsome : (portN s n).txns.find? (fun t => t.tag == k) = some x) (hread : x.req.kind = .rd) (hworst : x.worst = .ok)
    (hinj : injectedAt s.flt (fabSrc n) 1 = none) (hfits : x.beats + 1 ≤ beatsOf x.req.addr x.req.len)
    (hlast : last = decide (x.beats + 1 = beatsOf x.req.addr x.req.len)) :
    let x1 := { x with beats := x.beats + 1, got := x.got ++ data, worst := .ok }
    readBeat n k .ok true last data s =
      if last then complete n x1 .ok (slice x1.got (x.req.addr % 128) x.req.len) s
      else modFab n (fun q => { q with txns := q.txns.map (fun y => if y.tag = k then x1 else y) }) s := by
  have hinOrder : ¬ (x.req.kind ≠ .rd ∨ beatsOf x.req.addr x.req.len < x.beats + 1
      ∨ (last ∧ x.beats + 1 ≠ beatsOf x.req.addr x.req.len) ∨ (!last ∧ x.beats + 1 = beatsOf x.req.addr x.req.len)) := by
    subst hlast
    simp only [hread, ne_eq, not_true_eq_false, false_or, decide_eq_true_eq, Bool.not_eq_true', decide_eq_false_iff_not]
    omega
  simp only [readBeat, hdeaf, hq, hsome, Bool.false_eq_true, if_false, hinOrder, hinj, hworst]
  rfl

theorem writeAck_of_write (hsome : (portN s n).txns.find? (fun t => t.tag == k) = some x) (hwrite : x.req.kind ≠ .rd) (hbeats : x.beats = 0)
    (hgood : st ≠ .poison) : writeAck n k st s = complete n x (rspAccess st) [] s := by
  simp only [writeAck, hdeaf, hq, hsome, Bool.false_eq_true, if_false, hwrite, hbeats, hgood, Nat.lt_irrefl, or_self]

end Response

/-- Settles O32: each row by the pins, the port and the transaction of its tag. -/
theorem fabricCommandsComplete : Obligations.FabricCommandsComplete := by
  refine ⟨fun port tag data s x hlen hpins hdeaf hq hsome hread hworst hinj => ?beat, fun port tag st ok last data s hlen hpins hdeaf hq hnone => ?stray,
    fun port tag st s x hpins hdeaf hq hsome hwrite hbeats hgood => ?ack, fun port tag s x hdeaf hsome hdue => ?timeout,
    fun port req w s hpins hdeaf => ?credit, fun port s hdeaf => ?resetAssert, fun port s => rfl, fun port s hpins hdeaf => ?clockLost,
    fun s hrun hdue => ?measure, fun port tag st ok last data req w s hlen hpins => ?routed⟩
  case beat =>
    intro x1
    refine ⟨fun hlast => ?_, fun hmore => ?_⟩
    · rw [exec_fabReadData hlen hpins,
        readBeat_of_good hdeaf hq hsome hread hworst hinj (Nat.le_of_eq hlast) (decide_eq_true hlast).symm]
      rfl
    · rw [exec_fabReadData hlen hpins,
        readBeat_of_good hdeaf hq hsome hread hworst hinj (Nat.le_of_lt hmore) (decide_eq_false (Nat.ne_of_lt hmore)).symm]
      rfl
  case stray =>
    rw [exec_fabReadData hlen hpins, exec_fabWriteAck hpins, readBeat_of_none hdeaf hq hnone, writeAck_of_none hdeaf hq hnone]
    exact ⟨rfl, rfl⟩
  case ack => rw [exec_fabWriteAck hpins, writeAck_of_write hdeaf hq hsome hwrite hbeats hgood]
  case timeout =>
    refine congrArg Host.Outcome.next ((if_neg (ne_true_of_eq_false hdeaf)).trans ?_)
    simp only [hsome]
    exact if_neg (Nat.not_lt.mpr hdue)
  case credit =>
    have hexec : exec (.fabCreditReturn port req w) s = .next (creditReturn port.val (b2n req) w.toNat s) := congrArg Host.Outcome.next (if_pos hpins)
    replace hexec := hexec.trans (congrArg Host.Outcome.next (if_neg (ne_true_of_eq_false hdeaf)))
    split
    next hover => exact hexec.trans (congrArg Host.Outcome.next (if_pos hover))
    next hfits => exact hexec.trans (congrArg Host.Outcome.next (if_neg hfits))
  case resetAssert => exact congrArg (fun u => Host.Outcome.next (modFab port.val _ u)) (if_neg (ne_true_of_eq_false hdeaf))
  case clockLost =>
    refine congrArg Host.Outcome.next (if_neg ?_)
    rw [hdeaf, hpins]
    exact Bool.false_ne_true
  case measure => exact congrArg Host.Outcome.next (if_pos (and_of hrun (decide_eq_true hdue)))
  case routed =>
    refine ⟨exec_fabReadData_of_routed hlen hpins, congrArg Host.Outcome.next (if_neg (ne_true_of_eq_false hpins)),
      congrArg Host.Outcome.next (if_neg (ne_true_of_eq_false hpins)), congrArg Host.Outcome.next (if_pos ?_)⟩
    exact Bool.or_eq_true_iff.mpr (.inr (not_of_false hpins))

end Sys2Proof.Proofs.FabricRows
end

section
/-! SUPPORT. Accesses of the control register port (02 R40 to R42, R58; 14 R359; 19 R451 to R457): which are accepted and served, and what the
served writes and reads of a register are. -/
namespace Sys2Proof.Proofs.RegisterRows
open Sys2Proof Sys2Proof.Machine Sys2Proof.Safety Sys2Proof.Laws Sys2Proof.Proofs.Packets Sys2Proof.Proofs.Scope

variable {i : Instr} {s : State} {off : Nat} {l : Lanes} {d : Word} {x : CrpAccess}

/-! ### An access at the pins -/

theorem crpPin_of_tiedOff (h : crpPins s = false) : crpPin x s = s := if_neg (ne_true_of_eq_false h)

/-- An access that finds CRP_READY low, or others waiting, waits (02 R42). -/
theorem crpPin_of_waiting (hpins : crpPins s = true) (hpower : s.pins.powered = true) (hbusy : crpReady s = false ∨ s.pwr.crpWait ≠ []) :
    crpPin x s = { s with pwr := { s.pwr with crpWait := s.pwr.crpWait ++ [x] } } := by
  have hnotNow : ¬ (crpReady s && s.pwr.crpWait.isEmpty) = true := by
    rcases hbusy with hlow | hwaiting
    · exact not_and_of_left hlow
    · exact not_and_of_right (List.isEmpty_eq_false_iff.mpr hwaiting)
  exact (if_pos hpins).trans ((if_neg (not_not_of_true hpower)).trans (if_neg hnotNow))

/-! ### The rows of a register -/

/-- A row that writes a register, served, is the write of that register. -/
theorem exec_of_writes (hrow : exec i s = .next (pinWrite off l d s)) (h : Writes off s) : exec i s = .next (writeServed off (laneMask l) d s) := by
  rw [hrow, pinWrite, crpPin_of_takes h.1, crpDo, writeReg, h.2]

/-- A row that reads a register, served, is the read of that register. -/
theorem exec_of_reads (hrow : exec i s = .next (pinRead off l s)) (h : Reads off s) : exec i s = .next (readServed off (laneMask l) s) := by
  rw [hrow, pinRead, crpPin_of_takes h.1, crpDo, readReg, h.2]

theorem writeGate_of_reset (hpower : s.pins.powered = true) (hreset : s.pins.coreInReset = true) : writeGate s off = .dead := by
  simp [writeGate, hpower, hreset]

theorem writeGate_of_failSilent (hpower : s.pins.powered = true) (hreset : s.pins.coreInReset = false) (hsilent : s.pwr.failSilent = true)
    (hoff : mailboxOff off = false) : writeGate s off = .failSilent := by
  simp [writeGate, hpower, hreset, hsilent, hoff]

theorem exec_registerWrite_of_takes (a : BitVec 19) (h : Takes s) : exec (.registerWrite a l d) s = .next (writeReg (8 * a.toNat) l d s) :=
  congrArg Host.Outcome.next (crpPin_of_takes h _)

/-- Settles O33: accepted, an access acts by its gate; not accepted, it waits or is not heeded. -/
theorem registerAccessesAreGated : Obligations.RegisterAccessesAreGated := by
  refine ⟨fun a l d s h => ?write, fun a l s h => ?read, fun a l s h => ?bells, fun a l d s hpins hpower hbusy => ?waits,
    fun a l d s b hpins => ?tiedOff, fun s l d h hreset a => ?reset, fun s a l d h hreset hsilent hoff => ?failSilent⟩
  case write => exact exec_registerWrite_of_takes a h
  case read =>
    have hexec : exec (.rcCounterRead ⟨false, a⟩ l) s = .next (readReg (8 * a.toNat) l s) := congrArg Host.Outcome.next (crpPin_of_takes h _)
    exact hexec
  case bells =>
    exact congrArg Host.Outcome.next ((crpPin_of_takes h _).trans (if_pos h.2.1))
  case waits => exact ⟨congrArg Host.Outcome.next (crpPin_of_waiting hpins hpower hbusy), congrArg Host.Outcome.next (crpPin_of_waiting hpins hpower hbusy)⟩
  case tiedOff =>
    refine ⟨congrArg Host.Outcome.next (crpPin_of_tiedOff hpins), congrArg Host.Outcome.next ?_⟩
    dsimp only
    rw [crpPin_of_tiedOff hpins, pinRead, crpPin_of_tiedOff hpins, ite_self]
  case reset => rw [exec_registerWrite_of_takes a h, writeReg, writeGate_of_reset h.2.1 hreset]
  case failSilent => rw [exec_registerWrite_of_takes a h, writeReg, writeGate_of_failSilent h.2.1 hreset hsilent hoff]

/-! ### The groups of registers -/

theorem exec_of_writes_glb (hrow : exec i s = .next (pinWrite off l d s)) (h : Writes off s) (hoff : off < 0x1000) :
    exec i s = .next (writeGlb off (laneMask l) d s) :=
  (exec_of_writes hrow h).trans (congrArg _ (if_pos hoff))

theorem exec_of_writes_cmd (hrow : exec i s = .next (pinWrite off l d s)) (h : Writes off s) (hlow : 0x1000 ≤ off) (hhigh : off < 0x2000) :
    exec i s = .next (writeCmd off (laneMask l) d s) :=
  (exec_of_writes hrow h).trans (congrArg _ ((if_neg (Nat.not_lt.mpr hlow)).trans (if_pos hhigh)))

theorem exec_of_writes_sel (hrow : exec i s = .next (pinWrite off l d s)) (h : Writes off s) (hlow : 0x2000 ≤ off) (hhigh : off < 0x5000) :
    exec i s = .next (writeSel off (laneMask l) d s) :=
  (exec_of_writes hrow h).trans (congrArg _ ((if_neg (by omega)).trans ((if_neg (Nat.not_lt.mpr hlow)).trans (if_pos hhigh))))

theorem exec_of_writes_rest (hrow : exec i s = .next (pinWrite off l d s)) (h : Writes off s) (hlow : 0x5000 ≤ off) :
    exec i s = .next (writeRest off (laneMask l) d s) :=
  (exec_of_writes hrow h).trans (congrArg _ ((if_neg (by omega)).trans ((if_neg (by omega)).trans (if_neg (Nat.not_lt.mpr hlow)))))

/-- A read that captures nothing gives the word and clears what it covers. -/
theorem exec_of_reads_plain (hrow : exec i s = .next (pinRead off l s)) (h : Reads off s) (hcapture : off ≠ 0x6000) (hlane : off / 0x1000 ≠ 10) :
    exec i s = .next { clearRead off (laneMask l) s with
      regs := { (clearRead off (laneMask l) s).regs with rdata := BitVec.ofNat 64 ((regWord s off).getD 0) &&& laneMask l, rerr := false } } := by
  rw [exec_of_reads hrow h, readServed, captureRead, if_neg (not_and_of_not_left _ hcapture), if_neg (not_and_of_not_left _ hlane)]

/-- A full read of TIM_NOW_SEC captures the time first (11 R308). -/
theorem exec_of_reads_now (hrow : exec i s = .next (pinRead 0x6000 .full s)) (h : Reads 0x6000 s) :
    exec i s = .next { s with
      tim := captureTime s.tim
      regs := { s.regs with
        rdata := BitVec.ofNat 64 ((regWord { s with tim := captureTime s.tim } 0x6000).getD 0) &&& laneMask .full, rerr := false } } := by
  have hcaptured : captureRead 0x6000 (laneMask .full) s = { s with tim := captureTime s.tim } := if_pos ⟨rfl, rfl⟩
  rw [exec_of_reads hrow h, readServed, hcaptured]
  rfl

/-! ### The bits of a low write -/

/-- Bit 0 of a write on the low lanes is the register's. -/
theorem setB_low (old : Bool) (d : Word) : setB old 0 (laneMask .low) d = d.getLsbD 0 := rfl

theorem hit_low (d : Word) : hit 0 (laneMask .low) d = d.getLsbD 0 := Bool.true_and _

/-- CMD_ADMIN_CTRL with RESET written as 0 keeps the bits below it. -/
theorem enableBits (d : Word) : (d &&& ~~~0x80000000).getLsbD 0 = d.getLsbD 0 ∧ hit 31 (laneMask .low) (d &&& ~~~0x80000000) = false := by
  constructor
  · simp
  · simp [hit]

/-- CMD_ADMIN_CTRL with RESET written as 1 keeps the bits below it. -/
theorem resetBits (d : Word) : (d ||| 0x80000000).getLsbD 0 = d.getLsbD 0 ∧ hit 31 (laneMask .low) (d ||| 0x80000000) = true := by
  constructor
  · simp
  · simp [hit, laneMask]

/-- CMD_MBOX_CTRL with GO written as 1 keeps DONE. -/
theorem goBits (d : Word) : hit 0 (laneMask .low) (d ||| 1) = true ∧ hit 1 (laneMask .low) (d ||| 1) = d.getLsbD 1 := by
  constructor
  · simp [hit, laneMask]
  · simp [hit, laneMask]

/-- LANE_CTRL with RETRAIN written as 1 keeps RATE. -/
theorem retrainBits (d : Word) : (d ||| 0x100).getLsbD 0 = d.getLsbD 0 ∧ hit 8 (laneMask .low) (d ||| 0x100) = true := by
  constructor
  · simp
  · simp [hit, laneMask]

/-! ### The CMD group (03 Table 3-1) -/

theorem writeCmd_adminCtrl (s : State) (m d : BitVec 64) : writeCmd 0x1008 m d s =
    let en := setB s.cmd.adminEn 0 m d
    let s1 := { s with cmd := { s.cmd with adminEn := en, adminLog2 := setF s.cmd.adminLog2 8 5 m d } }
    let s2 := if hit 31 m d then adminReset s1 else s1
    adminFetch (p1Work (en && !s.cmd.adminEn && s2.cmd.adminHead != s2.cmd.adminTail) s2) := rfl

theorem writeCmd_mboxCtrl (s : State) (m d : BitVec 64) : writeCmd 0x1100 m d s =
    let go := hit 0 m d && !s.cmd.mboxGo
    let s1 := { s with cmd := { s.cmd with mboxDone := w1c s.cmd.mboxDone 1 m d, mboxGo := s.cmd.mboxGo || go
                                           mboxAt := if go then s.clk.now else s.cmd.mboxAt } }
    if go then (if s.pwr.failSilent then { s1 with cmd := failSilentMbox s1 } else p1Work true s1) else s1 := rfl

theorem adminReset_of_stopped (h : (s.cmd.halted || !s.cmd.adminEn) = true) : adminReset s = { s with cmd := { s.cmd with
    adminHead := 0, adminTail := 0, halted := false, readPtr := 0, takePtr := 0, landing := [], readOut := false
    adminGen := s.cmd.adminGen + 1, tailTimes := [], answered := [], commitLog := [], haltReply := none, readFail := none } } := if_pos h

/-- Settles O34: each row is the served write of its register; RESET is judged against the EN that the write leaves (log 122). -/
theorem commandRegistersComplete : Obligations.CommandRegistersComplete := by
  refine ⟨fun s l d h => exec_of_writes_cmd rfl h (by decide) (by decide), fun s d h hdisabled hen hreset => ?enable, fun s d h hstopped => ?reset,
    fun s l d h => exec_of_writes_cmd rfl h (by decide) (by decide), fun s l d h => exec_of_writes_cmd rfl h (by decide) (by decide),
    fun s d h hgo hsilent => ?mbox⟩
  case enable =>
    obtain ⟨hbit, hnoReset⟩ := enableBits d
    rw [exec_of_writes_cmd (i := .cmdAdminEnableWrite .low d) rfl h (by decide) (by decide), writeCmd_adminCtrl, setB_low, hbit, hnoReset, hen,
      hdisabled]
    rfl
  case reset =>
    obtain ⟨hbit, hdoReset⟩ := resetBits d
    have hacts : (s.cmd.halted || !d.getLsbD 0) = true := by
      rcases hstopped with hhalted | hoff
      · rw [hhalted, Bool.true_or]
      · rw [hoff, Bool.not_false, Bool.or_true]
    rw [exec_of_writes_cmd (i := .cmdAdminReset .low d) rfl h (by decide) (by decide), writeCmd_adminCtrl, setB_low, hbit, hdoReset]
    refine ⟨_, _, rfl, rfl, ?_⟩
    rw [if_pos rfl, adminReset_of_stopped hacts]
    exact ⟨rfl, rfl, rfl, rfl, rfl, rfl, rfl, rfl⟩
  case mbox =>
    obtain ⟨hset, hdone⟩ := goBits d
    rw [exec_of_writes_cmd (i := .cmdMboxGo .low d) rfl h (by decide) (by decide), writeCmd_mboxCtrl, w1c, hset, hdone, hgo, hsilent]
    rfl

/-! ### The other groups -/

theorem writeRest_linkCtrl (s : State) (m d : BitVec 64) : writeRest 0xA008 m d s =
    let l := { s.link with rate := setB s.link.rate 0 m d }
    { s with link := if hit 8 m d then retrain s.clk.now l else l } := rfl

/-- Settles O35: each row is the served write or read of its register. -/
theorem otherRegisterRowsComplete : Obligations.OtherRegisterRowsComplete := by
  refine ⟨fun s d h hbit => ?wake, fun s d h hdisabled hbit => ?carve, fun s l d h => exec_of_writes_glb rfl h (by decide),
    fun s d h hopen hbit => ?irq, fun s d h => exec_of_writes_rest (l := .low) rfl h (by decide),
    fun s h => exec_of_reads_plain rfl h (by decide) (by decide),
    fun s h => exec_of_reads_plain (l := .full) rfl h (by decide) (by decide), fun s h => ⟨_, exec_of_reads_now rfl h, rfl, rfl, rfl, rfl⟩, fun s d h => ?retrain⟩
  case wake => exact (exec_of_writes_glb rfl h (by decide)).trans (congrArg Host.Outcome.next (if_pos ((hit_low d).trans hbit)))
  case carve =>
    refine (exec_of_writes_glb rfl h (by decide)).trans (congrArg Host.Outcome.next ((if_neg (ne_true_of_eq_false hdisabled)).trans ?_))
    simp only [setB_low, hbit, Bool.true_and, beq_iff_eq]
  case irq =>
    refine (exec_of_writes_sel rfl h (by decide) (by decide)).trans (congrArg Host.Outcome.next ((if_neg (not_not_of_true hopen)).trans ?_))
    simp only [setB_low, hbit, Bool.false_and, Bool.false_eq_true, if_false]
  case retrain =>
    obtain ⟨hrate, hset⟩ := retrainBits d
    rw [exec_of_writes_rest (i := .laneRetrain .low d) rfl h (by decide), writeRest_linkCtrl, setB_low, hrate, hset]
    rfl

end Sys2Proof.Proofs.RegisterRows
end

section
/-! SUPPORT. Doorbells from the pins to their ring (02 R40 to R43, R58; 04 R97 to R100, Table 4-2; 14 R357; 19 R454). -/
namespace Sys2Proof.Proofs.DoorbellRows
open Sys2Proof Sys2Proof.Machine Sys2Proof.Safety Sys2Proof.Laws Sys2Proof.Proofs.Packets Sys2Proof.Proofs.Scope Sys2Proof.Proofs.Doorbells
  Sys2Proof.Proofs.HeadDoorbell Sys2Proof.Proofs.RegisterRows

variable {i : Instr} {s : State} {b : Bell} {wide : Bool} {id : Nat} {r : Ring}

/-! ### A doorbell that the port accepts -/

/-- The state with the wake that a doorbell asks for. -/
def woken (s : State) : State := { s with pwr := wakePower 0 s.pwr }

theorem presentBell_of_narrow (b : Bell) (s : State) : presentBell false b s = s := rfl

theorem presentBell_of_reset (h : s.pins.coreInReset = true) : presentBell wide b s = s :=
  if_pos (by rw [h, Bool.or_true])

theorem reset_released_of_coreOn (h : coreOn s = true) : s.pins.powered = true ∧ s.pins.coreInReset = false ∧ s.pwr.failSilent = false := by
  simpa [coreOn, and_assoc] using h

section Heard
variable (hpower : s.pins.powered = true) (hreset : s.pins.coreInReset = false)
include hpower hreset

theorem presentBell_of_failSilent (h : s.pwr.failSilent = true) : presentBell true b s = { s with pwr := { s.pwr with fsAccess := true } } := by
  simp [presentBell, hpower, hreset, h]

theorem presentBell_of_awake (h : s.pwr.failSilent = false) (hstate : s.pwr.state = .p0) : presentBell true b s = ringBell b (woken s) := by
  simp [presentBell, hpower, hreset, h, hstate, woken]

theorem presentBell_of_asleep (h : s.pwr.failSilent = false) (hstate : s.pwr.state ≠ .p0) :
    presentBell true b s = { s with pwr := { wakePower 0 s.pwr with porch := s.pwr.porch ++ [b] } } := by
  simp [presentBell, hpower, hreset, h, hstate]

end Heard

section Pins
variable (hrow : exec i s = .next (crpPin (.bell wide b) s))
include hrow

theorem exec_of_bell (h : Takes s) : exec i s = .next (presentBell wide { b with at_ := s.clk.now } s) :=
  hrow.trans (congrArg _ (crpPin_of_takes h _))

end Pins

/-- A doorbell accepted while the block is awake reaches Skein with the time of its acceptance. -/
theorem exec_of_bell_awake (hrow : exec i s = .next (crpPin (.bell true b) s)) (h : Takes s) (hcore : coreOn s = true) (hstate : s.pwr.state = .p0) :
    exec i s = .next (ringBell { b with at_ := s.clk.now } (woken s)) := by
  obtain ⟨hpower, hreset, hsilent⟩ := reset_released_of_coreOn hcore
  rw [exec_of_bell hrow h, presentBell_of_awake hpower hreset hsilent hstate]

/-! ### Direct doorbells (04 R98) -/

theorem directBell_of_none (h : tfind s.rings (fun _ r => r.port == b.page && r.slot == some b.slot && !r.isCpl) = none) :
    directBell b s = countReject b.page s := by
  simp only [directBell, h]
  rfl

section Found
variable (h : tfind s.rings (fun _ r => r.port == b.page && r.slot == some b.slot && !r.isCpl) = some (id, r))
include h

theorem directBell_of_outside (hbad : bits b.data.toNat 16 48 ≠ 0 ∨ 2 ^ r.log2 ≤ bits b.data.toNat 0 16) :
    directBell b s = countReject b.page s := by
  simp only [directBell, h, if_pos hbad]
  rfl

theorem directBell_of_valid (hzero : bits b.data.toNat 16 48 = 0) (hin : bits b.data.toNat 0 16 < 2 ^ r.log2) :
    directBell b s = acceptTail id (bits b.data.toNat 0 16) b.at_ r s := by
  simp only [directBell, h, hzero, Nat.not_le.mpr hin, ne_eq, not_true_eq_false, or_self, if_false]

end Found

/-! ### Indirect doorbells (04 Table 4-2) -/

theorem indirectBell_of_none (h : tget s.rings (bits b.data.toNat 32 20) = none) :
    indirectBell b s = raiseEvent (portSrc b.page) kDoorbellReject (8 * b.slot) (countReject b.page s) := by
  simp only [indirectBell, h]
  rfl

section Named
variable (h : tget s.rings (bits b.data.toNat 32 20) = some r)
include h

theorem indirectBell_of_other (hbad : r.port ≠ b.page ∨ r.isCpl ≠ (bits b.data.toNat 62 1 == 1)) :
    indirectBell b s = raiseEvent (portSrc b.page) kDoorbellReject (8 * b.slot) (countReject b.page s) := by
  simp only [indirectBell, h, if_pos hbad]
  rfl

section Tail
variable (hport : r.port = b.page) (hcpl : r.isCpl = false) (hkind : bits b.data.toNat 62 1 = 0)
include hport hcpl hkind

/-- A KIND 0 write that names a descriptor ring of its own port is judged by its reserved bits and its tail. -/
theorem indirectBell_of_descriptor : indirectBell b s =
    if bits b.data.toNat 16 16 ≠ 0 ∨ bits b.data.toNat 52 10 ≠ 0 then countReject b.page s
    else if 2 ^ r.log2 ≤ bits b.data.toNat 0 16 then countReject b.page s
    else acceptTail (bits b.data.toNat 32 20) (bits b.data.toNat 0 16) b.at_ r s := by
  simp [indirectBell, h, hport, hcpl, hkind]
  rfl

theorem indirectBell_of_bad_tail
    (hbad : bits b.data.toNat 16 16 ≠ 0 ∨ bits b.data.toNat 52 10 ≠ 0 ∨ 2 ^ r.log2 ≤ bits b.data.toNat 0 16) :
    indirectBell b s = countReject b.page s := by
  rw [indirectBell_of_descriptor h hport hcpl hkind]
  rcases or_assoc.mpr hbad with hreserved | hout
  · exact if_pos hreserved
  · rw [if_pos hout, ite_self]

theorem indirectBell_of_tail (hlow : bits b.data.toNat 16 16 = 0) (hhigh : bits b.data.toNat 52 10 = 0) (hin : bits b.data.toNat 0 16 < 2 ^ r.log2) :
    indirectBell b s = acceptTail (bits b.data.toNat 32 20) (bits b.data.toNat 0 16) b.at_ r s := by
  rw [indirectBell_of_descriptor h hport hcpl hkind, if_neg (by simp [hlow, hhigh]), if_neg (Nat.not_le.mpr hin)]

end Tail
end Named

theorem acceptTail_of_live (hlive : r.draining = false) (tail at_ : Nat) : acceptTail id tail at_ r s =
    { s with rings := tput s.rings id { r with tail := tail, stamps := r.stamps ++ [(tail, at_)] }, skein := markRing id r.urgent s.skein } :=
  if_neg (ne_true_of_eq_false hlive)

/-! ### The data of an indirect write -/

theorem bits_one (x k : Nat) : bits x k 1 = (x.testBit k).toNat := (Nat.toNat_testBit x k).symm

/-- KIND, bit 62, is 0 in the data of a tail, and bit 63 is 1. -/
theorem tailData_bits (d : Word) : bits ((d.setWidth 62).setWidth 64 ||| 0x8000000000000000#64).toNat 62 1 = 0
    ∧ ((d.setWidth 62).setWidth 64 ||| 0x8000000000000000#64).getLsbD 63 = true := by
  rw [bits_one, BitVec.testBit_toNat]
  constructor
  · simp
  · simp

/-- KIND is 1 in the data of a head. -/
theorem headData_bits (d : Word) : bits ((d.setWidth 62).setWidth 64 ||| 0xC000000000000000#64).toNat 62 1 = 1
    ∧ ((d.setWidth 62).setWidth 64 ||| 0xC000000000000000#64).getLsbD 63 = true := by
  rw [bits_one, BitVec.testBit_toNat]
  constructor
  · simp
  · simp

theorem kind_of_tail {x : Nat} (hkind : bits x 62 1 = 0) (hcpl : r.isCpl = true) : r.isCpl ≠ (bits x 62 1 == 1) := by
  rw [hcpl, hkind]
  decide

theorem kind_of_head {x : Nat} (hkind : bits x 62 1 = 1) (hcpl : r.isCpl = false) : r.isCpl ≠ (bits x 62 1 == 1) := by
  rw [hcpl, hkind]
  decide

/-- A doorbell heard at its port's page by its stream ID, on which the block acts at once. -/
abbrev Heard (page : Fin 1024) (sid : BitVec 16) (s : State) : Prop :=
  (Takes s ∧ coreOn s = true ∧ s.pwr.state = .p0) ∧ (tgetD s.ports page.val {}).isOpen = true ∧ (tgetD s.ports page.val {}).sid = sid

section Rows
variable {page : Fin 1024} {slot : Fin 512} {sid : BitVec 16} {d : Word}

theorem exec_direct_of_heard (h : Heard page sid s) (hdirect : slot.val ≠ 511 ∨ d.getLsbD 63 = false) :
    exec (.doorbellDirectWrite page slot sid true d) s =
      .next (directBell { page := page.val, slot := slot.val, sid := sid, data := d, at_ := s.clk.now } (woken s)) := by
  obtain ⟨⟨htakes, hcore, hstate⟩, hopen, hsid⟩ := h
  rw [exec_of_bell_awake (i := .doorbellDirectWrite page slot sid true d) rfl htakes hcore hstate, ringBell_of_accepted hopen hsid.symm, if_neg]
  rintro ⟨hslot, hbit⟩
  exact hdirect.elim (fun hother => hother hslot) (fun hclear => ne_true_of_eq_false hclear hbit)

theorem exec_indirectTail_of_heard (h : Heard page sid s) :
    exec (.doorbellIndirectTail page sid true d) s = .next (indirectBell
      { page := page.val, slot := 511, sid := sid, data := (d.setWidth 62).setWidth 64 ||| 0x8000000000000000#64, at_ := s.clk.now } (woken s)) := by
  obtain ⟨⟨htakes, hcore, hstate⟩, hopen, hsid⟩ := h
  rw [exec_of_bell_awake (i := .doorbellIndirectTail page sid true d) rfl htakes hcore hstate, ringBell_of_accepted hopen hsid.symm,
    if_pos ⟨rfl, (tailData_bits d).2⟩]

theorem exec_indirectHead_of_heard (h : Heard page sid s) :
    exec (.doorbellIndirectHead page sid true d) s = .next (indirectBell
      { page := page.val, slot := 511, sid := sid, data := (d.setWidth 62).setWidth 64 ||| 0xC000000000000000#64, at_ := s.clk.now } (woken s)) := by
  obtain ⟨⟨htakes, hcore, hstate⟩, hopen, hsid⟩ := h
  rw [exec_of_bell_awake (i := .doorbellIndirectHead page sid true d) rfl htakes hcore hstate, ringBell_of_accepted hopen hsid.symm,
    if_pos ⟨rfl, (headData_bits d).2⟩]

end Rows

/-- Settles O36: at the pins by CRP_READY and the lanes, then by the power state, then by the port, the ring and the index. -/
theorem doorbellsComplete : Obligations.DoorbellsComplete := by
  refine ⟨fun page slot sid d s id r h hdirect hfind hzero hin => ?direct, fun page slot sid d s id r h hdirect hfind hbad => ?outside,
    fun page slot sid d s h hdirect hnone => ?noRing, fun page slot sid d s h hrefused => ?refused, fun page sid d s h => ?tail,
    fun page sid d s h => ?head, fun page slot sid d s h => ?narrow, fun page slot sid d s h hreset => ?reset,
    fun page slot sid d s h hreset hsilent => ?failSilent, fun page slot sid d s h hcore hstate => ?porch,
    fun page slot sid d s hpins hpower hbusy => ?held, fun page slot sid d s b hpins => ?tiedOff⟩
  case direct => exact (exec_direct_of_heard h hdirect).trans (congrArg _ (directBell_of_valid hfind hzero hin))
  case outside => exact (exec_direct_of_heard h hdirect).trans (congrArg _ (directBell_of_outside hfind hbad))
  case noRing => exact (exec_direct_of_heard h hdirect).trans (congrArg _ (directBell_of_none hnone))
  case refused =>
    obtain ⟨htakes, hcore, hstate⟩ := h
    exact (exec_of_bell_awake (i := .doorbellDirectWrite page slot sid true d) rfl htakes hcore hstate).trans
      (congrArg _ (ringBell_of_refused hrefused))
  case tail =>
    intro w row
    have hkind := (tailData_bits d).1
    refine ⟨fun r hring hport hcpl => ⟨fun hlow hhigh hin hlive => ?_, fun hbad => ?_⟩, fun r hring hbad => ?_, fun hnone => ?_⟩
    · exact (exec_indirectTail_of_heard h).trans
        (congrArg _ ((indirectBell_of_tail hring hport hcpl hkind hlow hhigh hin).trans (acceptTail_of_live hlive _ _)))
    · exact (exec_indirectTail_of_heard h).trans (congrArg _ (indirectBell_of_bad_tail hring hport hcpl hkind hbad))
    · refine (exec_indirectTail_of_heard h).trans (congrArg _ (indirectBell_of_other hring ?_))
      exact hbad.imp id (kind_of_tail hkind)
    · exact (exec_indirectTail_of_heard h).trans (congrArg _ (indirectBell_of_none hnone))
  case head =>
    intro w row
    have hkind := (headData_bits d).1
    refine ⟨fun r hring hport hcpl hlow hhigh hlive => ?_, fun r hring hbad => ?_, fun hnone => ?_⟩
    · have hjudged := (exec_indirectHead_of_heard h).trans (congrArg _ (indirectBell_of_head hring hport hcpl hkind hlow hhigh))
      exact ⟨fun hin hfree => hjudged.trans (congrArg _ (acceptHead_of_valid _ _ _ hlive hin (Nat.not_lt.mpr hfree))),
        fun hbad => hjudged.trans (congrArg _ (acceptHead_of_invalid _ _ _ hlive hbad))⟩
    · refine (exec_indirectHead_of_heard h).trans (congrArg _ (indirectBell_of_other hring ?_))
      exact hbad.imp id (kind_of_head hkind)
    · exact (exec_indirectHead_of_heard h).trans (congrArg _ (indirectBell_of_none hnone))
  case narrow =>
    exact ⟨(exec_of_bell rfl h).trans (congrArg _ (presentBell_of_narrow _ s)), (exec_of_bell rfl h).trans (congrArg _ (presentBell_of_narrow _ s)),
      (exec_of_bell rfl h).trans (congrArg _ (presentBell_of_narrow _ s))⟩
  case reset => exact (exec_of_bell rfl h).trans (congrArg _ (presentBell_of_reset hreset))
  case failSilent => exact (exec_of_bell rfl h).trans (congrArg _ (presentBell_of_failSilent h.2.1 hreset hsilent))
  case porch =>
    obtain ⟨hpower, hreset, hsilent⟩ := reset_released_of_coreOn hcore
    exact (exec_of_bell rfl h).trans (congrArg _ (presentBell_of_asleep hpower hreset hsilent hstate))
  case held => exact congrArg Host.Outcome.next (crpPin_of_waiting hpins hpower hbusy)
  case tiedOff =>
    exact ⟨congrArg Host.Outcome.next (crpPin_of_tiedOff hpins), congrArg Host.Outcome.next (crpPin_of_tiedOff hpins),
      congrArg Host.Outcome.next (crpPin_of_tiedOff hpins)⟩

end Sys2Proof.Proofs.DoorbellRows
end

section
/-! SUPPORT. The control path: what ADMIN_PACKET_FETCH takes, a deadline that passes, a fence whose jobs are gone (03 R69 to R75, R88, R463). -/
namespace Sys2Proof.Proofs.ControlPath
open Sys2Proof Sys2Proof.Machine Sys2Proof.Safety Sys2Proof.Laws Sys2Proof.Proofs.Packets

variable {s : State} {e : CmdEntry} {f : Fence}

theorem exec_fenceDrainComplete_of_drained (hrun : running s = true) (h : drained s = some (e, f)) :
    exec .fenceDrainComplete s = .next (afterFence e f s) := by
  refine congrArg Host.Outcome.next ((if_pos hrun).trans ?_)
  simp only [h]

/-- Unbinding ends with the reply that its command has prepared, or with OK. -/
theorem afterFence_binding {h ring : Nat} (hobj : f.obj = .binding h ring) (hop : e.opcode = 0x0207) :
    afterFence e f s = finish e (e.reply.getD (replyTo s e .ok 0 [] true)) s := by
  have hkeeps : (if e.opcode = 0x0101 then modPort e.port (fun q => { q with sid := 0, winBase := 0, winLen := 0 }) s else s) = s :=
    if_neg (by rw [hop]; decide)
  simp only [afterFence, hobj, endFenced, hkeeps]

/-- Settles O37: each row by what waits for it. -/
theorem controlPathCompletes : Obligations.ControlPathCompletes := by
  refine ⟨fun s hrun hwaits => congrArg Host.Outcome.next ((if_pos hrun).trans (if_pos hwaits)),
    fun s hrun hnone => congrArg Host.Outcome.next ((if_pos hrun).trans (if_neg (ne_true_of_eq_false hnone))), fun s e hrun hlate => ?deadline,
    fun s e f hrun hdrained => exec_fenceDrainComplete_of_drained hrun hdrained, fun s e f hrun hdrained hop hbinding => ?unbind⟩
  case deadline =>
    refine ⟨answer e .deadlineMissed [] s, congrArg Host.Outcome.next ((if_pos hrun).trans ?_), finish_done e _ s⟩
    split
    next x hfound =>
      obtain rfl : x = e := Option.some.inj (hfound.symm.trans hlate)
      rfl
    next hnone => exact absurd (hnone.symm.trans hlate) (Option.some_ne_none e).symm
  case unbind =>
    obtain ⟨h, ring, hobj⟩ := hbinding
    rw [exec_fenceDrainComplete_of_drained hrun hdrained, afterFence_binding hobj hop]
    exact ⟨_, rfl, finish_done e _ s⟩

end Sys2Proof.Proofs.ControlPath
end

section
/-! SUPPORT. Ring visits, admission, held and deferred jobs, completion records and interrupts (04 R93 to R96, R115 to R122; 05 R126 to
R147). -/
namespace Sys2Proof.Proofs.SchedulingRows
open Sys2Proof Sys2Proof.Machine Sys2Proof.Safety Sys2Proof.Laws Sys2Proof.Proofs.Packets

variable {s : State} {id i t : Nat} {u : Bool} {r c : Ring} {j : Job}

/-! ### Ring visits (04 R93 to R96) -/

section Visit
variable (hcpl : tget s.rings r.cplRing = some c)
include hcpl

theorem visitRing_of_uncached (hcached : r.cached = false) : visitRing id r s = fetchContext id s := by
  simp only [visitRing, hcpl, if_pos (not_of_false hcached)]

section Cached
variable (hcached : r.cached = true)
include hcached

theorem visitRing_of_cpl_uncached (hcplCached : c.cached = false) : visitRing id r s = fetchContext r.cplRing s := by
  simp only [visitRing, hcpl, if_neg (not_not_of_true hcached), if_pos (not_of_false hcplCached)]

variable (hcplCached : c.cached = true)
include hcplCached

theorem visitRing_of_empty (hempty : unfetched r = 0) : visitRing id r s = { s with skein := unmarkRing id s.skein } := by
  simp only [visitRing, hcpl, if_neg (not_not_of_true hcached), if_neg (not_not_of_true hcplCached), if_pos hempty]

variable (hmore : unfetched r ≠ 0)
include hmore

theorem visitRing_of_halted (h : r.stopped = true ∨ r.draining = true ∨ c.stopped = true ∨ c.draining = true ∨ visitCount s r c = 0) :
    visitRing id r s = s := by
  simp only [visitRing, hcpl, if_neg (not_not_of_true hcached), if_neg (not_not_of_true hcplCached), if_neg hmore]
  rcases h with h | h | h | h | h
  · simp [h]
  · simp [h]
  · simp [h]
  · simp [h]
  · rw [if_pos h, ite_self]

theorem visitRing_of_reads (hstopped : r.stopped = false) (hdraining : r.draining = false) (hcplStopped : c.stopped = false)
    (hcplDraining : c.draining = false) (hcount : visitCount s r c ≠ 0) :
    visitRing id r s =
      let parts := visitParts r ((r.head + descOut r) % 2 ^ r.log2) (visitCount s r c)
      let new := visitReads r parts
      issue (new.zipWith (fun x p => readReqs (tgetD s.ports r.port {}).sid false (.by id) (fun _ => .desc id x.id x.count) p.2.1 p.2.2) parts).flatten
        (touchRing r.cplRing (touchRing id { s with
          rings := tmod (tput s.rings id { r with reads := r.reads ++ new, readSeq := r.readSeq + parts.length }) r.cplRing
            (fun y => { y with reserved := y.reserved + visitCount s r c }) })) := by
  simp only [visitRing, hcpl, if_neg (not_not_of_true hcached), if_neg (not_not_of_true hcplCached), if_neg hmore, hstopped, hdraining,
    hcplStopped, hcplDraining, Bool.or_self, Bool.false_eq_true, if_false, if_neg hcount]

end Cached
end Visit

section VisitRow
variable (hrun : running s = true) (hvisit : nextVisit s.skein = some (id, u))
include hrun hvisit

theorem exec_skeinVisit_of_absent (hnone : tget s.rings id = none) :
    exec .skeinVisit s = .next { s with skein := unmarkRing id (movePtr id u s.skein) } := by
  refine congrArg Host.Outcome.next ((if_pos hrun).trans ?_)
  simp only [hvisit, hnone]

theorem exec_skeinVisit_of_ring (hring : tget s.rings id = some r) :
    exec .skeinVisit s = .next (visitRing id r { s with skein := movePtr id u s.skein }) := by
  refine congrArg Host.Outcome.next ((if_pos hrun).trans ?_)
  simp only [hvisit, hring]

end VisitRow

/-! ### Needle (05 R126, R133 to R135) -/

theorem needleOne_of_pause (h : s.fw.pauseAt.isSome = true) : needleOne s = s := by
  simp only [needleOne, if_pos h]

section Evaluation
variable (hpause : s.fw.pauseAt = none) (hnext : nextFetched s = some (i, j))
include hpause hnext

theorem needleOne_of_refused (h : nowRefused s j = true) : needleOne s = refuseJob i (descStatus s j) s := by
  simp only [needleOne, hpause, Option.isSome_none, Bool.false_eq_true, if_false, hnext, h, if_true]

theorem needleOne_of_single (h : nowRefused s j = false) (hchain : j.chainHead = none) : needleOne s = (admitJob i s.clk.now false s).1 := by
  simp only [needleOne, hpause, Option.isSome_none, Bool.false_eq_true, if_false, hnext, h, hchain]

end Evaluation

section Admission
variable (hjob : jobOf s i = some j)
include hjob

theorem admitJob_of_bad (hbad : descStatus s j ≠ .ok) : admitJob i t false s = (refuseJob i (descStatus s j) s, .done) := by
  simp only [admitJob, hjob, if_pos hbad, abortLink, Bool.not_false, if_true]

theorem admitJob_of_ready {rs : Session} (hok : descStatus s j = .ok) (hsess : sessionOf s j.port j.desc.handle = some rs)
    (hready : mustWait s rs j = false) : admitJob i t false s = admitChecked i t false rs (withAbs s rs j) s := by
  simp only [admitJob, hjob, if_neg (not_not_intro hok), hsess, if_neg (ne_true_of_eq_false hready)]

end Admission

/-- A job whose checks pass and that fits is committed when its tokens are there, and held until then (05 R134). -/
theorem admitChecked_of_fits {x : Job} {rs : Session} {p : Place} {b : Nat} (hstate : stateCheck s rs x = .ok)
    (hfill : neverFits (bucketsAt s.clk.now (tgetD s.ports x.port {})) (chargeOf rs x) = false) (hunit : noUnit s rs x = false)
    (htoken : tokenTime s x (bucketsAt s.clk.now (tgetD s.ports x.port {})) (chargeOf rs x) - s.clk.now ≤ 150000000)
    (hplace : place s rs x (max t (tokenTime s x (bucketsAt s.clk.now (tgetD s.ports x.port {})) (chargeOf rs x))) = some p)
    (hfits : fits s rs x (predict s rs x p).2 = .ok b) :
    admitChecked i t false rs x s =
      let q := bucketsAt s.clk.now (tgetD s.ports x.port {})
      let tok := tokenTime s x q (chargeOf rs x)
      let s1 := modPort x.port (fun _ => debit q (chargeOf rs x)) (setJob i (fun y => { y with bound := b }) s)
      if s.clk.now < tok ∨ heldAhead s x ≠ [] then (holdJob i rs p tok (chargeOf rs x) false s1, .at (predict s rs x p).2)
      else (commitJob i rs p false s1, .at (predict s rs x p).2) := by
  simp only [admitChecked, hstate, hfill, hunit, Nat.not_lt.mpr htoken, hplace, hfits, ne_eq, not_true_eq_false, Bool.false_eq_true, if_false,
    Bool.false_or, decide_false]

/-! ### Held and deferred jobs (05 R135, R141) -/

theorem releaseHeld_of_bad (hbad : descStatus s j ≠ .ok) : releaseHeld i j s = refuseJob i (descStatus s j) s := if_pos hbad

theorem releaseHeld_of_placed {rs : Session} {p : Place} {b : Nat} (hok : descStatus s j = .ok) (hsess : sessionOf s j.port j.desc.handle = some rs)
    (hready : mustWait s rs j = false) (hdraw : drawCheck s rs j = .ok) (hunit : noUnit s rs j = false)
    (hplace : place s rs j (linkStart s j) = some p) (hfits : fits s rs j (predict s rs j p).2 = .ok b) :
    releaseHeld i j s = commitJob i rs p j.waitPrev (setJob i (fun x => { x with bound := b }) s) := by
  simp only [releaseHeld, if_neg (not_not_intro hok), hsess, if_neg (ne_true_of_eq_false hready), placeHeld, hdraw, hunit, hplace, hfits,
    ne_eq, not_true_eq_false, Bool.false_eq_true, if_false]

/-- Settles O38: visits by the two contexts and what the ring holds, Needle by the job's checks, the other rows by what waits. -/
theorem schedulingRowsComplete : Obligations.SchedulingRowsComplete := by
  unfold Obligations.SchedulingRowsComplete
  refine ⟨fun s id u h hnone => exec_skeinVisit_of_absent h.1 h.2 hnone, fun s id u r h hring hnone => ?noCpl, fun s id u r c h hring hcpl => ?visit,
    fun s hrun => congrArg Host.Outcome.next (if_pos hrun), fun s hpause => needleOne_of_pause hpause,
    fun s i j hpause hnext hrefused => needleOne_of_refused hpause hnext hrefused,
    fun s i j hpause hnext hrefused hchain => needleOne_of_single hpause hnext hrefused hchain, fun s i t j hjob hbad => admitJob_of_bad hjob hbad,
    fun s i t j r p b hjob hok hsess hready => ?admission, fun s i j hrun hpause hheld => ?held, fun s n i j w hrun hpause hjob hwindow hopen => ?window,
    fun s i j r hrun hnext hcached => ?postFetch, fun s i j r hrun hnext hcached => ?post,
    fun s ring r hwork hring hcpl hlate hcoal hcounted hdue hen => ?irq⟩
  case noCpl =>
    rw [exec_skeinVisit_of_ring h.1 h.2 hring]
    simp only [visitRing, hnone]
  case visit =>
    have hexec := exec_skeinVisit_of_ring h.1 h.2 hring
    refine ⟨fun hcached => hexec.trans (congrArg _ (visitRing_of_uncached hcpl hcached)),
      fun hcached hcplCached => hexec.trans (congrArg _ (visitRing_of_cpl_uncached hcpl hcached hcplCached)),
      fun hcached hcplCached hempty => hexec.trans (congrArg _ (visitRing_of_empty hcpl hcached hcplCached hempty)),
      fun hcached hcplCached hmore hhalted => hexec.trans (congrArg _ (visitRing_of_halted hcpl hcached hcplCached hmore hhalted)),
      fun hcached hcplCached hmore hstopped hdraining hcplStopped hcplDraining hcount => ?_⟩
    exact hexec.trans (congrArg _
      (visitRing_of_reads hcpl hcached hcplCached hmore hstopped hdraining hcplStopped hcplDraining hcount))
  case admission =>
    intro x q c tok hstate hfill hunit htoken hplace hfits s1
    rw [admitJob_of_ready hjob hok hsess hready, admitChecked_of_fits hstate hfill hunit htoken hplace hfits]
    refine ⟨fun hthere hfirst => if_neg ?_, fun hlater => if_pos hlater⟩
    exact not_or.mpr ⟨Nat.not_lt.mpr hthere, not_not_intro hfirst⟩
  case held =>
    have hexec : exec .heldJobRelease s = .next (startDue (releaseHeld i j s)) := by
      refine congrArg Host.Outcome.next ((if_pos (and_of hrun (by rw [hpause]; rfl))).trans ?_)
      simp only [hheld]
    exact ⟨hexec, fun hbad => by rw [hexec, releaseHeld_of_bad hbad], fun r p b hok hsess hready hdraw hunit hplace hfits => by
      rw [hexec, releaseHeld_of_placed hok hsess hready hdraw hunit hplace hfits]⟩
  case window =>
    refine congrArg Host.Outcome.next ((if_pos (and_of hrun (by rw [hpause]; rfl))).trans ?_)
    simp only [hjob, hwindow, hopen, if_true]
  case postFetch =>
    refine congrArg Host.Outcome.next ((if_pos hrun).trans ?_)
    simp only [hnext, if_pos (not_of_false hcached)]
  case post =>
    refine congrArg Host.Outcome.next ((if_pos hrun).trans ?_)
    simp only [hnext, if_neg (not_not_of_true hcached)]
    rfl
  case irq =>
    change execCoalesceTimerExpiry ring s = _
    simp only [execCoalesceTimerExpiry, hring]
    exact congrArg Host.Outcome.next (if_pos (and_of (and_of (and_of (and_of (and_of (and_of hwork hcpl) (not_of_false hlate)) (bne_iff_ne.mpr hcoal))
      (decide_eq_true hcounted)) (decide_eq_true hdue)) hen))

end Sys2Proof.Proofs.SchedulingRows
end

section
/-! SUPPORT. The ends of engine times and what they yield, the moves of contexts, suspension and early output (01 R19 to R21; 07 R203
to R216; 08 R223 to R236; 09 R245 to R261; 10 R281). -/
namespace Sys2Proof.Proofs.EngineRows
open Sys2Proof Sys2Proof.Machine Sys2Proof.Safety Sys2Proof.Laws Sys2Proof.Proofs.Packets

variable {s : State} {i : Nat} {j : Job} {r : Session}

/-! ### The comparison at the end of an engine time (01 R19, R20) -/

/-- The counts of a disagreement on one unit (07 R216). -/
def blamed (inverse failed : Bool) (u : EUnit) : EUnit :=
  { u with
    passedSince := false
    mismatchA := if inverse then u.mismatchA else satAdd 32 u.mismatchA 1
    mismatchB := if inverse then satAdd 32 u.mismatchB 1 else u.mismatchB
    failed := if failed then satAdd 32 u.failed 1 else u.failed }

theorem disagree_of_first {us : List Nat} (hretried : j.retried = false) :
    disagree i j r us s =
      let s2 := cancelWrites i (raiseEvent (unitSrc j.unit) (if isHook r.alg then kHookRepeat else kTwinCompare) i
        { s with eng := modUnits us (blamed ((unitOf s j.unit).role == .inverse) false) s.eng })
      startRetry i j r (retryOf s2 r j) s2 := by
  simp only [disagree, hretried]
  rfl

theorem disagree_of_retried {us : List Nat} (hretried : j.retried = true) :
    disagree i j r us s = failJob i .computeMismatch 0 (raiseEvent (unitSrc j.unit) kCompareRepeated i
      { s with eng := modUnits us (blamed ((unitOf s j.unit).role == .inverse) true) s.eng }) := by
  simp only [disagree, hretried]
  rfl

section EngineEnd
variable {p : Job → Bool} {yield : Nat → Job → Session → State → State} (hready : readyEnd s i p = some j) (hsess : j.sess = some r)
  (hinject : ∀ c ∈ members s.eng.units j.unit, injectedAt s.flt (unitSrc c) (checkerOf r) = none)

include hinject in
theorem injected_members_nil :
    (members s.eng.units j.unit).filter (fun c => (injectedAt s.flt (unitSrc c) (checkerOf r)).isSome) = [] :=
  List.filter_eq_nil_iff.mpr fun c hc => by simp [hinject c hc]

include hready hsess hinject

theorem engineEnd_of_agree :
    engineEnd i p true yield s =
      let us := members s.eng.units j.unit
      let a := countEnd i j r us true s
      let e := releaseSpare j a.eng
      startDue (yield i j r { a with eng := if j.retried then modUnits us (fun u => { u with cured := satAdd 32 u.cured 1 }) e else e }) := by
  simp only [engineEnd, hready, hsess, injected_members_nil hinject, List.foldl_nil, List.isEmpty_nil, Bool.and_self, Bool.or_true,
    if_true]

theorem engineEnd_of_disagree {q : State}
    (hq : disagree i j r (members s.eng.units j.unit) (countEnd i j r (members s.eng.units j.unit) j.retried s) = q) :
    engineEnd i p false yield s = startDue { q with eng := releaseSpare j q.eng } := by
  simp only [← hq, engineEnd, hready, hsess, injected_members_nil hinject, List.foldl_nil, Bool.false_and, Bool.or_false,
    Bool.false_eq_true, if_false]

end EngineEnd

/-! ### What the operations yield -/

theorem quillYield_of_one_shot (hopen : qOpen j.desc = true) (hfinal : j.desc.final = true) :
    quillYield i j r s = quillEnd i j r (joinParts j.inGot) s :=
  if_pos (and_of hopen hfinal)

theorem not_one_shot (h : qOpen j.desc = false ∨ j.desc.final = false) : ¬ (qOpen j.desc && j.desc.final) = true := by
  rcases h with h | h <;> simp [h]

section Message
variable {k : Nat} {m : Message} (hmessage : messageOf s j = some (k, m))
include hmessage

theorem quillYield_of_final (hopen : qOpen j.desc = false) (hfinal : j.desc.final = true) :
    quillYield i j r s =
      let q := quillEnd i j r (m.absorbed ++ joinParts j.inGot) s
      { q with eng := { q.eng with messages := tdel q.eng.messages k } } := by
  refine (if_neg (not_one_shot (.inl hopen))).trans ?_
  simp only [hmessage, if_pos hfinal]

theorem quillYield_of_part (hfinal : j.desc.final = false) :
    quillYield i j r s =
      dropDead (toMerge i (setJob i (fun x => { x with status := quillStatus r j, bytes := 0 }) { s with
        eng := { s.eng with messages := tput s.eng.messages k { m with absorbed := m.absorbed ++ joinParts j.inGot } } })) := by
  refine (if_neg (not_one_shot (.inr hfinal))).trans ?_
  simp only [hmessage, if_neg (ne_true_of_eq_false hfinal)]

end Message

theorem quillYield_of_lost (h : qOpen j.desc = false ∨ j.desc.final = false) (hnone : messageOf s j = none) :
    quillYield i j r s = failJob i .contextLost 0 s := by
  refine (if_neg (not_one_shot h)).trans ?_
  simp only [hnone]

section QuillEnd
variable {b x : Bytes} (hfinal : quillFinal r j.keyMat b (qLength j.desc) = some x)
include hfinal

theorem quillEnd_of_verified (hverify : j.desc.op = 0x11 ∨ j.desc.op = 0x13) (hx : x = joinParts j.metaGot) :
    quillEnd i j r b s = toMerge i (setJob i (fun y => { y with verdict := 2 }) s) := by
  simp only [quillEnd, hfinal, if_pos hverify, if_pos hx]

theorem quillEnd_of_mismatch (hverify : j.desc.op = 0x11 ∨ j.desc.op = 0x13) (hx : x ≠ joinParts j.metaGot) :
    quillEnd i j r b s = failJob i .tagMismatch 1 s := by
  simp only [quillEnd, hfinal, if_pos hverify, if_neg hx]

theorem quillEnd_of_result (hverify : ¬ (j.desc.op = 0x11 ∨ j.desc.op = 0x13)) :
    quillEnd i j r b s = release i (metaReqs s j x) (fun y => { y with status := quillStatus r j, bytes := quillOut r }) s := by
  simp only [quillEnd, hfinal, if_neg hverify]

end QuillEnd

section HookYield
variable {ix : Nat} {l : Lease} (hlease : leaseAt s j.desc.aux = some (ix, l))
include hlease

theorem hookYield_of_failed {st : Status} (h : hookCompute r j l.data = .failed st) :
    hookYield i j r s = failJob i st 0 { s with eng := modUnit j.unit (countHookFail st) s.eng } := by
  simp only [hookYield, hlease, h]

theorem hookYield_of_verified {good : Bool} (h : hookCompute r j l.data = .verified good) :
    hookYield i j r s = if good then toMerge i (setJob i (fun x => { x with verdict := 2 }) s) else failJob i .tagMismatch 1 s := by
  simp only [hookYield, hlease, h]

theorem hookYield_of_ok {slot : Bytes} {secret : Option Bytes} (h : hookCompute r j l.data = .ok slot secret) :
    hookYield i j r s =
      release i (metaReqs s j (hookMetaBytes j r slot secret)) (fun x => { x with bytes := (hookMetaBytes j r slot secret).length })
        { s with eng := { s.eng with leases := tput s.eng.leases ix { l with data := Memory.writeBytes l.data (512 * hD j.desc) slot } } } := by
  simp only [hookYield, hlease, h]

end HookYield

/-! ### RANDOM, suspension, early output and moved contexts -/

theorem exec_random_of_ready {b : BitVec 13} (hready : readyEnd s b.toNat (opIs 0x30) = some j) (hsess : j.sess = some r) :
    exec (.random b) s = .next (startDue (release b.toNat (outReqs s r j 0 j.draw) (fun x => { x with bytes := j.desc.outLen }) s)) := by
  change execRandom b s = _
  simp only [execRandom, hready, hsess]

theorem exec_urgentSuspendComplete_of_due {n : Fin 20} {x t : Nat} (hrun : running s = true)
    (hsuspended : (unitOf s (leadOf s.eng.units n.val)).suspended = some x)
    (hend : (unitOf s (leadOf s.eng.units n.val)).suspendEnd = some t) (ht : t ≤ s.clk.now) (hjob : jobOf s x = some j)
    (hsess : j.sess = some r) (hbegun : j.begun = true) (hphase : j.phase = .queued) :
    exec (.urgentSuspendComplete n) s = .next (suspendNow x (leadOf s.eng.units n.val) t j r s) := by
  change execUrgentSuspendComplete n s = _
  simp only [execUrgentSuspendComplete, hsuspended, hend, hjob, hsess]
  exact congrArg Host.Outcome.next (if_pos (and_of (and_of (and_of hrun hbegun) (beq_iff_eq.mpr hphase)) (decide_eq_true ht)))

theorem exec_outputChunkRelease_of_open {b : BitVec 13} (hjob : jobOf s b.toNat = some j) (hsess : j.sess = some r)
    (hcan : (running s && fromRing j && isNib r.alg && writesOut j.desc && j.phase == .queued && j.counted && j.begun
      && j.readsLeft == 0 && j.status == .ok && chunkDone s r j) = true)
    (hroom : 4096 * j.chunks + 4096 ≤ openBytes r j (nibCompute r j)) :
    exec (.outputChunkRelease b) s =
      let reqs := outReqs s r j (4096 * j.chunks) (slice (nibCompute r j).out (4096 * j.chunks) 4096)
      .next (issueDue b.toNat (issue reqs (setJob b.toNat (fun x => { x with
        chunks := x.chunks + 1, result := (nibCompute r j).tags, writesLeft := x.writesLeft + reqs.length }) s))) := by
  change execOutputChunkRelease b s = _
  simp only [execOutputChunkRelease, hjob, hsess]
  exact congrArg Host.Outcome.next ((if_pos hcan).trans (if_pos hroom))

theorem exec_quillContextCopyEnd_of_due {n : Fin 14} {q : Nat} (hwork : working s = true)
    (hcopying : (unitOf s (0x100 + n.val)).copying = some q) (hfree : (unitOf s (0x100 + n.val)).freeAt ≤ s.clk.now) :
    exec (.quillContextCopyEnd n) s =
      .next (startDue { s with eng := { modUnit (0x100 + n.val) (fun v => { v with copying := none, freeAt := 0 }) s.eng with
        messages := tmap s.eng.messages (fun _ m => if m.quill = 0x100 + n.val then { m with quill := q, configGen := s.eng.configGen.toNat } else m) } }) := by
  change execQuillContextCopyEnd n s = _
  simp only [execQuillContextCopyEnd, hcopying]
  exact congrArg Host.Outcome.next (if_pos (and_of hwork (decide_eq_true hfree)))

theorem exec_hookWindowCopyEnd_of_due {n : Fin 9} {q : Nat} (hwork : working s = true)
    (hcopying : (unitOf s (0x200 + n.val)).copying = some q) (hfree : (unitOf s (0x200 + n.val)).freeAt ≤ s.clk.now) :
    exec (.hookWindowCopyEnd n) s =
      .next (startDue { s with eng := { modUnit (0x200 + n.val) (fun v => { v with copying := none, freeAt := 0 }) s.eng with
        leases := tmap s.eng.leases (fun _ l => if l.hook = 0x200 + n.val then { l with hook := q } else l) } }) := by
  change execHookWindowCopyEnd n s = _
  simp only [execHookWindowCopyEnd, hcopying]
  exact congrArg Host.Outcome.next (if_pos (and_of hwork (decide_eq_true hfree)))

/-- Settles O39: the ends of engine times by their comparison, the results by operation, then suspension, early output and copies. -/
theorem engineRowsComplete : Obligations.EngineRowsComplete := by
  unfold Obligations.EngineRowsComplete
  intro ends
  have hends : ∀ (row : BitVec 13 → Bool → Instr) (op : Nat) (yield : Nat → Job → Session → State → State),
      (∀ b agree s, exec (row b agree) s = .next (engineEnd b.toNat (opIs op) agree yield s)) → ends row op yield := by
    intro row op yield hrow s b j r hready hsess hinject
    refine ⟨?agree, fun hretried => ?first, fun hretried => ?last⟩
    case agree => exact (hrow b true s).trans (congrArg Host.Outcome.next (engineEnd_of_agree hready hsess hinject))
    case first =>
      exact (hrow b false s).trans (congrArg Host.Outcome.next (engineEnd_of_disagree hready hsess hinject (disagree_of_first hretried)))
    case last =>
      exact (hrow b false s).trans (congrArg Host.Outcome.next (engineEnd_of_disagree hready hsess hinject (disagree_of_retried hretried)))
  refine ⟨hends _ _ _ fun _ _ _ => rfl, hends _ _ _ fun _ _ _ => rfl, hends _ _ _ fun _ _ _ => rfl, hends _ _ _ fun _ _ _ => rfl,
    hends _ _ _ fun _ _ _ => rfl, hends _ _ _ fun _ _ _ => rfl, hends _ _ _ fun _ _ _ => rfl, hends _ _ _ fun _ _ _ => rfl,
    hends _ _ _ fun _ _ _ => rfl, ?nib, ?oneShot, ?lost, ?final, ?part, ?quill, ?hook, ?random, ?suspend, ?chunk, ?context, ?window⟩
  case nib => exact fun s i j r => ⟨fun hbad => if_pos hbad, fun hgood => if_neg hgood⟩
  case oneShot => exact fun s i j r hopen hfinal => quillYield_of_one_shot hopen hfinal
  case lost => exact fun s i j r h hnone => quillYield_of_lost h hnone
  case final => exact fun s i j r k m hopen hfinal hmessage => quillYield_of_final hmessage hopen hfinal
  case part => exact fun s i j r k m hfinal hmessage => quillYield_of_part hmessage hfinal
  case quill =>
    exact fun s i j r b x hx => ⟨fun hverify heq => quillEnd_of_verified hx hverify heq,
      fun hverify hne => quillEnd_of_mismatch hx hverify hne, fun hverify => quillEnd_of_result hx hverify⟩
  case hook =>
    exact fun s i j r ix l hlease => ⟨fun st h => hookYield_of_failed hlease h, fun h => hookYield_of_verified hlease h,
      fun h => hookYield_of_verified hlease h, fun slot secret h => hookYield_of_ok hlease h⟩
  case random => exact fun s b j r hready hsess => exec_random_of_ready hready hsess
  case suspend =>
    exact fun s n x t j r hrun hsuspended hend ht hjob hsess hbegun hphase =>
      exec_urgentSuspendComplete_of_due hrun hsuspended hend ht hjob hsess hbegun hphase
  case chunk =>
    intro s b j r hrun hjob hsess hring hnib hwrites hphase hcounted hbegun hreads hok hdone o off hroom
    refine exec_outputChunkRelease_of_open hjob hsess ?_ hroom
    simp only [hrun, hring, hnib, hwrites, hphase, hcounted, hbegun, hreads, hok, hdone, beq_self_eq_true, Bool.and_self]
  case context => exact fun s n q hwork hcopying hfree => exec_quillContextCopyEnd_of_due hwork hcopying hfree
  case window => exact fun s n q hwork hcopying hfree => exec_hookWindowCopyEnd_of_due hwork hcopying hfree

end Sys2Proof.Proofs.EngineRows
end

section
/-! SUPPORT. Stream words, the ends of frames, and the zeroing of leases (02 R45; 11 R286 to R298; 09 R246, R262). -/
namespace Sys2Proof.Proofs.StreamRows
open Sys2Proof Sys2Proof.Machine Sys2Proof.Safety Sys2Proof.Laws Sys2Proof.Proofs.Packets Sys2Proof.Proofs.EngineRows

variable {s : State} {b : StreamBeat} {x : Frame} {n i : Nat} {j : Job} {r : Session}

/-! ### Words (02 R45, R46; 11 R290, R293) -/

theorem exec_streamWord_of_reached (hlen : b.data.length = 32) (hpowered : s.pins.powered = true) (hreset : s.pins.coreInReset = false) :
    exec (.streamWord b) s = .next (startDue (refreshXoff (streamBeat b s))) :=
  (if_neg (not_not_intro hlen)).trans (congrArg Host.Outcome.next (if_pos (and_of hpowered (not_of_false hreset))))

/-- A channel that takes no word: not open, closing, or of a port that is not open. -/
def Shut (s : State) (n : Nat) : Prop :=
  (chanOf s n).isOpen = false ∨ (chanOf s n).closing = true ∨ (tgetD s.ports (chanOf s n).owner {}).isOpen = false

theorem shut_iff : Shut s n ↔
    (!(chanOf s n).isOpen || (chanOf s n).closing || !(tgetD s.ports (chanOf s n).owner {}).isOpen) = true := by
  simp only [Shut, Bool.or_eq_true, Bool.not_eq_true', or_assoc]

theorem streamBeat_of_shut (h : Shut s b.channel.val) :
    streamBeat b s = modChan b.channel.val (fun y => { y with disabled := satAdd 32 y.disabled 1 }) s :=
  if_pos (shut_iff.mp h)

theorem streamBeat_of_no_frame (hopen : ¬ Shut s b.channel.val) (hsof : b.sof = false)
    (hnone : openFrameOf (chanOf s b.channel.val) = none) : streamBeat b s = s := by
  refine (if_neg (mt shut_iff.mpr hopen)).trans ?_
  simp only [hsof, Bool.false_eq_true, if_false, hnone]

theorem streamBeat_of_frame (hopen : ¬ Shut s b.channel.val) (hsof : b.sof = false)
    (hframe : openFrameOf (chanOf s b.channel.val) = some x) :
    streamBeat b s = if b.eof then endOfFrame b.channel.val x.number b.trunc (takeWord b.channel.val x b s) else takeWord b.channel.val x b s := by
  refine (if_neg (mt shut_iff.mpr hopen)).trans ?_
  simp only [hsof, Bool.false_eq_true, if_false, hframe]

/-- The channel's open frame ends, and is truncated where the block still works for it. -/
def endOpenFrame (n : Nat) (s : State) : State :=
  match openFrameOf (chanOf s n) with
  | some y => closeFrame n y.number (if frameAlive s y then truncFrame n y s else s)
  | none => s

theorem streamBeat_of_first {s1 : State} (hopen : ¬ Shut s b.channel.val) (hsof : b.sof = true)
    (hbegin : beginFrame b.channel.val b.len.toNat (endOpenFrame b.channel.val s) = s1)
    (hframe : openFrameOf (chanOf s1 b.channel.val) = some x) :
    streamBeat b s = if b.eof then endOfFrame b.channel.val x.number b.trunc (takeWord b.channel.val x b s1) else takeWord b.channel.val x b s1 := by
  subst hbegin
  refine (if_neg (mt shut_iff.mpr hopen)).trans ?_
  simp only [hsof, if_true]
  change (match openFrameOf (chanOf (beginFrame b.channel.val b.len.toNat (endOpenFrame b.channel.val s)) b.channel.val) with
    | none => _
    | some _ => _) = _
  rw [hframe]
  rfl

section Word
variable (halive : frameAlive s x = true) (hroom : x.got.length < x.len)
include halive hroom

theorem takeWord_of_room (hfifo : chanWords s (chanOf s n) < 2048) (hjob : frameJob s x = none) :
    takeWord n x b s = modFrame n x.number (fun y => { y with
      words := y.words + 1, got := y.got ++ b.data.take (if b.eof && b.validBytes != 0 then b.validBytes.toNat else 32) }) s := by
  simp only [takeWord, if_neg (not_not_of_true halive), if_neg (Nat.not_le.mpr hroom), if_neg (Nat.not_le.mpr hfifo), hjob]

theorem takeWord_of_full (hfifo : 2048 ≤ chanWords s (chanOf s n)) :
    takeWord n x b s = raiseEvent (chanSrc n) kStreamOverflow x.number (dropFrame n x .streamOverflow true (modChan n (fun c => { c with
      overflow := satAdd 16 c.overflow 1, dropped := satAdd 32 c.dropped (1 + frameWords s x) }) s)) := by
  simp only [takeWord, if_neg (not_not_of_true halive), if_neg (Nat.not_le.mpr hroom), if_pos hfifo]

end Word

/-! ### Frame ends (11 R286, R287, R296) -/

section FrameEnd
variable {op : Nat} {agree : Bool} (hready : readyEnd s i (frameReady s op) = some j) (hframe : frameOf s j = some (n, x))
  (hinject : injectedAt s.flt (chanSrc n) 1 = none)
include hready hframe hinject

theorem frameEnd_of_sound :
    frameEnd i op agree true s = startDue (refreshXoff (engineEnd i (frameReady s op) agree frameYield s)) := by
  simp only [frameEnd, hready, hframe, hinject, Option.isSome_none, Bool.not_false, Bool.and_self, Bool.false_eq_true, if_false, if_true]

theorem frameEnd_of_parity : frameEnd i op agree false s = startDue (refreshXoff (poisonFrame i n x s)) := by
  simp only [frameEnd, hready, hframe, hinject, Option.isSome_none, Bool.false_and, Bool.false_eq_true, if_false]

end FrameEnd

section FrameYield
variable (hframe : frameOf s j = some (n, x))
include hframe

theorem frameYield_of_verify (hop : j.desc.op = 4) :
    frameYield i j r s =
      if frameGood r j x.got then toMerge i (setJob i (fun y => { y with verdict := 2 }) s) else failJob i .tagMismatch 1 s := by
  simp only [frameYield, hframe, if_pos hop]

theorem frameYield_of_tag (hop : j.desc.op ≠ 4) :
    frameYield i j r s = release i
      (writeReqs (jobSid s j) false (jobRoute j) (.jobOut j.seq) ((chanOf s n).tagBase + 32 * (x.number % 2 ^ (chanOf s n).tagLog2))
        (padTo 32 (macMeta r j (spanZero r x.got)))) (fun y => { y with bytes := (macMeta r j (spanZero r x.got)).length }) s := by
  simp only [frameYield, hframe, if_neg hop]

end FrameYield

/-! ### The zeroing of a lease (09 R246, R247, R262) -/

theorem clearJobs_of_entry {cid : Nat} {e : CmdEntry} (hentry : entryOf s cid = some e) : clearJobs s (some cid) = e.work := by
  simp [clearJobs, hentry]

section Zeroing
variable {w : BitVec 9} {ix t : Nat} {l : Lease} (hrun : running s = true)
  (hlease : tfind s.eng.leases (fun _ l => l.windows.contains w.toNat) = some (ix, l)) (hdue : t ≤ s.clk.now)
include hrun hlease hdue

theorem exec_leaseZeroingComplete_of_released (hzeroing : l.zeroing = some (t, none)) :
    exec (.leaseZeroingComplete w) s = .next (startDue (leaseEnded ix (endLease ix s))) := by
  refine congrArg Host.Outcome.next ((if_pos hrun).trans ?_)
  simp only [hlease, hzeroing, decide_eq_false (Nat.not_lt.mpr hdue), clearJobs]
  simp

theorem exec_leaseZeroingComplete_of_cleared {cid : Nat} {e : CmdEntry} (hzeroing : l.zeroing = some (t, some cid))
    (hentry : entryOf s cid = some e) (hjobs : s.jobs.any (fun x => onUnit x.2 && e.work.contains x.2.seq) = false) :
    exec (.leaseZeroingComplete w) s = .next (startDue (clearEnded cid ix l s)) := by
  refine congrArg Host.Outcome.next ((if_pos hrun).trans ?_)
  simp only [hlease, hzeroing, decide_eq_false (Nat.not_lt.mpr hdue), clearJobs_of_entry hentry, hjobs, Bool.or_self, Bool.false_eq_true,
    if_false]

end Zeroing

theorem endLease_of_get {ix : Nat} {l : Lease} (hget : tget s.eng.leases ix = some l) :
    endLease ix s = { s with eng := { s.eng with leases := tdel s.eng.leases ix, windowGen := freeWindows l.windows s.eng.windowGen } } := by
  simp only [endLease, hget]

theorem clearEnded_done {cid ix : Nat} {l : Lease} {e : CmdEntry} (hentry : entryOf s cid = some e) :
    let u := { s with eng := { s.eng with leases := tput s.eng.leases ix { l with data := [], contentsLost := false, zeroing := none } } }
    Done e (e.reply.getD (replyTo s e .ok 0 [] false)) u (clearEnded cid ix l s) := by
  intro u
  have hfinish : clearEnded cid ix l s = finish e (e.reply.getD (replyTo s e .ok 0 [] false)) u := by
    change (match entryOf s cid with
      | some e => _
      | none => _) = _
    rw [hentry]
  rw [hfinish]
  exact finish_done e _ u

/-- Settles O40: a word by its channel and frame, a frame's end by its parity, comparison and direction, a lease's zeroing by its cause. -/
theorem streamAndLeaseRowsComplete : Obligations.StreamAndLeaseRowsComplete := by
  refine ⟨fun s b hlen hpowered hreset => ?word, ?room, ?full, ?verify, ?tag, ?compare, ?yield, ?released, ?cleared⟩
  case word =>
    intro n c shut
    have hword := exec_streamWord_of_reached hlen hpowered hreset
    refine ⟨fun hshut => ?shut, fun hopen hsof hnone => ?none, fun x hopen hsof hframe heof => ?more, fun x hopen hsof hframe heof => ?last,
      ?first⟩
    case shut => rw [hword, streamBeat_of_shut hshut]
    case none => rw [hword, streamBeat_of_no_frame hopen hsof hnone]
    case more => rw [hword, streamBeat_of_frame hopen hsof hframe, if_neg (ne_true_of_eq_false heof)]
    case last => rw [hword, streamBeat_of_frame hopen hsof hframe, if_pos heof]
    case first =>
      intro x hopen hsof s0 s1 hframe
      rw [hword, streamBeat_of_first (s1 := s1) hopen hsof rfl hframe]
  case room => exact fun s n x b halive hroom hfifo hjob => takeWord_of_room halive hroom hfifo hjob
  case full => exact fun s n x b halive hroom hfifo => takeWord_of_full halive hroom hfifo
  case verify =>
    exact fun s i j n x agree hready hframe hinject => ⟨congrArg Host.Outcome.next (frameEnd_of_sound hready hframe hinject),
      congrArg Host.Outcome.next (frameEnd_of_parity hready hframe hinject)⟩
  case tag =>
    exact fun s i j n x agree hready hframe hinject => ⟨congrArg Host.Outcome.next (frameEnd_of_sound hready hframe hinject),
      congrArg Host.Outcome.next (frameEnd_of_parity hready hframe hinject)⟩
  case compare =>
    exact fun s i p j r hready hsess hinject =>
      ⟨engineEnd_of_agree hready hsess hinject, engineEnd_of_disagree hready hsess hinject rfl⟩
  case yield =>
    exact fun s i j r n x hframe => ⟨fun hop hgood => (frameYield_of_verify hframe hop).trans (if_pos hgood),
      fun hop hbad => (frameYield_of_verify hframe hop).trans (if_neg (ne_true_of_eq_false hbad)), fun hop => frameYield_of_tag hframe hop⟩
  case released =>
    exact fun s w ix l t hrun hlease hzeroing hdue hget =>
      endLease_of_get hget ▸ exec_leaseZeroingComplete_of_released hrun hlease hdue hzeroing
  case cleared =>
    exact fun s w ix l t cid e hrun hlease hzeroing hdue hentry hjobs =>
      ⟨_, exec_leaseZeroingComplete_of_cleared hrun hlease hdue hzeroing hentry hjobs, clearEnded_done hentry⟩

end Sys2Proof.Proofs.StreamRows
end

section
/-! SUPPORT. The time-keeper at an edge and the events of the reference (11 R300 to R305). -/
namespace Sys2Proof.Proofs.TimeRows
open Sys2Proof Sys2Proof.Machine Sys2Proof.Safety Sys2Proof.Laws Sys2Proof.Proofs.Packets

variable {s : State} {r : TimeSample} {t : Tim}

/-! ### The action on the offset (11 R305) -/

/-- One millisecond in the units of G. -/
def msUnits : Nat := 1000000 * unitsPerNs

theorem discipline_of_ahead (h : t.g + msUnits ≤ refUnits r) :
    discipline r t = { t with
      offset := ((refUnits r : Int) - (t.g : Int)) / ((unitsPerNs : Nat) : Int), g := refUnits r, e := max t.e (refUnits r)
      slewing := false, slewLeft := 0, steps := satAdd 16 t.steps 1 } :=
  if_pos (show ((msUnits : Nat) : Int) ≤ (refUnits r : Int) - (t.g : Int) by omega)

theorem msUnits_pos : 0 < msUnits := by decide

theorem discipline_of_behind (h : refUnits r + msUnits ≤ t.g) :
    discipline r t = { t with
      offset := ((refUnits r : Int) - (t.g : Int)) / ((unitsPerNs : Nat) : Int), g := refUnits r, e := max t.e (refUnits r)
      slewing := false, slewLeft := 0, backsteps := satAdd 16 t.backsteps 1 } :=
  have hpos := msUnits_pos
  (if_neg (show ¬ ((msUnits : Nat) : Int) ≤ (refUnits r : Int) - (t.g : Int) by omega)).trans
    (if_pos (show (refUnits r : Int) - (t.g : Int) ≤ -((msUnits : Nat) : Int) by omega))

theorem discipline_of_near (habove : t.g < refUnits r + msUnits) (hbelow : refUnits r < t.g + msUnits) :
    discipline r t = { t with
      offset := ((refUnits r : Int) - (t.g : Int)) / ((unitsPerNs : Nat) : Int)
      slewing := (refUnits r : Int) - (t.g : Int) != 0, slewLeft := (refUnits r : Int) - (t.g : Int) } :=
  (if_neg (show ¬ ((msUnits : Nat) : Int) ≤ (refUnits r : Int) - (t.g : Int) by omega)).trans
    (if_neg (show ¬ (refUnits r : Int) - (t.g : Int) ≤ -((msUnits : Nat) : Int) by omega))

theorem slewing_of_near (habove : t.g < refUnits r + msUnits) (hbelow : refUnits r < t.g + msUnits) :
    (discipline r t).slewing = true ↔ refUnits r ≠ t.g := by
  rw [discipline_of_near habove hbelow]
  exact bne_iff_ne.trans (not_congr (show (refUnits r : Int) - (t.g : Int) = 0 ↔ refUnits r = t.g by omega))

/-! ### A change of the time-keeper -/

theorem onTime_congr {f g : Tim → Tim} (h : f s.tim = g s.tim) : onTime f s = onTime g s := by
  simp only [onTime, h]

theorem onTime_of_same_epoch {f : Tim → Tim} (hpowered : s.pins.powered = true) (he : (f s.tim).e = s.tim.e) :
    ∃ jobs, onTime f s = { s with tim := f s.tim, jobs := jobs } :=
  ⟨_, (if_pos hpowered).trans (if_neg (show ¬ s.tim.e < (f s.tim).e by omega))⟩

/-! ### The edges and the events of the reference (11 R301 to R304) -/

section Edge
variable {src : Bool} {now : Nat} (husable : t.usable = true) (hpending : t.pending = false) (hgood : sampleBad r = false)
include husable hpending hgood

theorem ppsEdge_of_following (hfollow : t.following = true) : ppsEdge src now r t = lockEdge src now (discipline r t) := by
  simp [ppsEdge, husable, hpending, hgood, hfollow]

theorem ppsEdge_of_holdover (hfollow : t.following = false) : ppsEdge src now r t = lockEdge src now (takeUp t.inRank r t) := by
  simp [ppsEdge, husable, hpending, hgood, hfollow]

end Edge

theorem exec_timeInputUsable_of_ranked {u : Tim} (hpowered : s.pins.powered = true) (husable : s.tim.usable = false)
    (hgood : sampleBad r = false) (hrank : s.tim.minRank ≤ qualRank s.fuse.lifecycle r.qual)
    (hu : { noteSample r s.tim with usable := true, inRank := qualRank s.fuse.lifecycle r.qual } = u) :
    exec (.timeInputUsable r) s =
      .next (onTime (fun _ => if s.tim.pending then whilePending (qualRank s.fuse.lifecycle r.qual) r u else u)
        { s with pins := { s.pins with timClkLost := false } }) := by
  subst hu
  change Host.Outcome.next (onTime _ { s with pins := { s.pins with timClkLost := if aonOn s then false else s.pins.timClkLost } }) = _
  rw [if_pos (show aonOn s = true from hpowered)]
  refine congrArg Host.Outcome.next (onTime_congr (if_neg ?_))
  simp [husable, hgood, hrank]

theorem loseInput_of_following (husable : t.usable = true) (hfollow : t.following = true) :
    loseInput t = setPending true 0 { t with usable := false } :=
  (if_pos husable).trans (if_pos hfollow)

theorem exec_timRankChange_of_other (husable : s.tim.usable = true) (hfollow : s.tim.following = true) (hpending : s.tim.pending = false)
    (hgood : sampleBad r = false) (hmin : s.tim.minRank ≤ qualRank s.fuse.lifecycle r.qual)
    (hrank : s.tim.rank ≠ qualRank s.fuse.lifecycle r.qual) :
    exec (.timRankChange r) s = .next (onTime (fun t =>
      let t2 := { noteSample r t with inRank := qualRank s.fuse.lifecycle r.qual }
      if s.tim.rank < qualRank s.fuse.lifecycle r.qual then takeUp (qualRank s.fuse.lifecycle r.qual) r t2
      else setPending false (qualRank s.fuse.lifecycle r.qual) t2) s) := by
  refine congrArg Host.Outcome.next (onTime_congr ?_)
  have hknown : ¬ (!(noteSample r s.tim).usable || sampleBad r) = true := by simp [noteSample, husable, hgood]
  refine (if_neg hknown).trans ((if_neg (show ¬ _ < s.tim.minRank from Nat.not_lt.mpr hmin)).trans ?_)
  refine (if_neg (not_not_of_true (show (noteSample r s.tim).following = true from hfollow))).trans
    ((if_neg (ne_true_of_eq_false hpending)).trans ?_)
  change ite (s.tim.rank < _) _ _ = ite (s.tim.rank < _) _ _
  by_cases hbetter : s.tim.rank < qualRank s.fuse.lifecycle r.qual
  · rw [if_pos hbetter, if_pos hbetter]
  · rw [if_neg hbetter, if_neg hbetter]
    exact if_pos (show qualRank s.fuse.lifecycle r.qual < s.tim.rank by omega)

/-- Settles O41: the action by the size of the offset, and each event of the reference by what it finds. -/
theorem timeRowsComplete : Obligations.TimeRowsComplete := by
  refine ⟨fun r t hge => ⟨fun h => ?ahead, fun h => ?behind, fun habove hbelow => ?near⟩, fun s r husable hfollow hpending hgood => ?edge,
    fun s r husable hfollow hpending hgood => ?takeUp, fun s r husable hfollow hpending hgood => ?missing,
    fun s r hpowered husable hgood hrank => ⟨fun hpending => ?usable, fun hpending hhold => ?cancelled⟩,
    fun s husable hfollow => ?unusable, ?rank, fun s hpending hat => ?commit, fun s hpowered hslewing hleft => ?slewEnd,
    fun s hpowered htick => ?tick⟩
  case ahead => rw [discipline_of_ahead h]; exact ⟨rfl, rfl, rfl, rfl⟩
  case behind =>
    have hmax : max t.e (refUnits r) = t.e := Nat.max_eq_left (Nat.le_trans (Nat.le_add_right _ _) (Nat.le_trans h hge))
    rw [discipline_of_behind h]
    exact ⟨rfl, hmax, rfl, rfl⟩
  case near =>
    have hslewing := slewing_of_near habove hbelow
    rw [discipline_of_near habove hbelow] at hslewing ⊢
    exact ⟨rfl, rfl, rfl, hslewing⟩
  case edge =>
    exact congrArg Host.Outcome.next (onTime_congr (ppsEdge_of_following (t := noteSample r s.tim) husable hpending hgood hfollow))
  case takeUp =>
    exact congrArg Host.Outcome.next (onTime_congr (ppsEdge_of_holdover (t := noteSample r s.tim) husable hpending hgood hfollow))
  case missing =>
    refine congrArg Host.Outcome.next (onTime_congr ?_)
    simp only [husable, hfollow, Bool.and_self, if_true]
    exact ppsEdge_of_following husable hpending hgood hfollow
  case usable =>
    refine (exec_timeInputUsable_of_ranked hpowered husable hgood hrank rfl).trans (congrArg Host.Outcome.next (onTime_congr ?_))
    exact if_neg (ne_true_of_eq_false hpending)
  case cancelled =>
    refine (exec_timeInputUsable_of_ranked hpowered husable hgood hrank rfl).trans (congrArg Host.Outcome.next (onTime_congr ?_))
    exact (if_pos hpending).trans (if_pos (by simp [noteSample, hhold]))
  case unusable =>
    refine congrArg Host.Outcome.next ((if_neg (by simp)).trans (onTime_congr (loseInput_of_following husable hfollow)))
  case rank =>
    exact fun s r husable hfollow hpending hgood hmin hrank => exec_timRankChange_of_other husable hfollow hpending hgood hmin hrank
  case commit => exact congrArg Host.Outcome.next (onTime_congr (if_pos (and_of hpending (decide_eq_true hat))))
  case slewEnd =>
    have hf : (if s.tim.slewing && s.tim.slewLeft == 0 then { s.tim with slewing := false } else s.tim) = { s.tim with slewing := false } :=
      if_pos (and_of hslewing (beq_iff_eq.mpr hleft))
    obtain ⟨jobs, hjobs⟩ := onTime_of_same_epoch (f := fun _ => { s.tim with slewing := false }) hpowered rfl
    exact ⟨_, congrArg Host.Outcome.next ((onTime_congr hf).trans hjobs), rfl, rfl⟩
  case tick =>
    have hf : (if s.tim.lastTickSec < s.tim.e / (1000000000 * unitsPerNs) then
        { s.tim with lastTickSec := s.tim.e / (1000000000 * unitsPerNs) } else s.tim)
        = { s.tim with lastTickSec := s.tim.e / (1000000000 * unitsPerNs) } := if_pos htick
    obtain ⟨jobs, hjobs⟩ := onTime_of_same_epoch
      (f := fun _ => { s.tim with lastTickSec := s.tim.e / (1000000000 * unitsPerNs) }) hpowered rfl
    exact ⟨_, congrArg Host.Outcome.next ((onTime_congr hf).trans hjobs), rfl, rfl⟩

end Sys2Proof.Proofs.TimeRows
end

section
/-! SUPPORT. Fault events, the width of ERR_N, escalation and the readback (12 R313 to R325; 02 R52). -/
namespace Sys2Proof.Proofs.FaultRows
open Sys2Proof Sys2Proof.Machine Sys2Proof.Safety Sys2Proof.Laws Sys2Proof.Proofs.Packets

variable {s : State}

/-- What a fault event does once its source and kind are known (12 R322). -/
theorem exec_faultEvent_of_known {src : BitVec 12} {k : BitVec 6} {a : BitVec 44} (hpowered : s.pins.powered = true)
    (hclass : (srcClass src.toNat).isSome = true) (hpresent : srcPresent s.pins.formL src.toNat = true)
    (hkind : kindKnown k.toNat = true) (hesc : kindEsc k.toNat = false) :
    exec (.faultEvent src k a) s = .next (
      if k.toNat = kBatonFault ∧ src.toNat = 0x0A2 then enterFailSilent 1 (raiseEvent src.toNat k.toNat a.toNat s)
      else if k.toNat = kClockLost ∧ src.toNat = 0x0D3 then enterFailSilent 2 (raiseEvent src.toNat k.toNat a.toNat s)
      else if coreOn s then eventCost src.toNat k.toNat a.toNat s else raiseEvent src.toNat k.toNat a.toNat s) := by
  have hclass' : (srcClass src.toNat).isNone = false := by simpa using hclass
  refine congrArg Host.Outcome.next (if_neg ?_)
  simp [show aonOn s = true from hpowered, hclass', hpresent, hkind, hesc]

theorem kBatonFault_ne_kClockLost : kBatonFault ≠ kClockLost := by decide

theorem exec_reactionTimerExpiry_of_due {src : BitVec 12} {t : Nat} (hcore : coreOn s = true) (hsevere : (srcOf s.flt src.toNat).severe = true)
    (hacked : (srcOf s.flt src.toNat).acked = false) (htimer : (srcOf s.flt src.toNat).timer = some t) (hdue : t ≤ s.clk.now) :
    exec (.reactionTimerExpiry src) s = .next (escalate src.toNat
      { s with flt := { s.flt with sources := tmod s.flt.sources src.toNat (fun x => { x with timer := none, escalated := true }) } }) := by
  refine congrArg Host.Outcome.next (if_pos ?_)
  simp [hcore, hsevere, hacked, htimer, hdue]

theorem exec_escalationDeferredStart_of_first {n c : Nat} {rest : List Nat} (hcore : coreOn s = true) (hwait : s.flt.escWait = n :: rest)
    (hunit : srcUnit n = some c) (hfree : kindBusy s (unitKind c) = false) :
    exec .escalationDeferredStart s = .next (escalate n { s with flt := { s.flt with escWait := s.flt.escWait.filter (· != n) } }) := by
  refine congrArg Host.Outcome.next ((if_pos hcore).trans ?_)
  simp only [hwait, List.find?_cons, hunit, hfree, Bool.not_false]

/-- Settles O43: a fault event by its source and kind, then each timer and the readback of ERR_N. -/
theorem faultRowsComplete : Obligations.FaultRowsComplete := by
  refine ⟨fun s src k a hpowered hclass hpresent hkind hesc => ?event, fun s hpowered hwidth hend => ?width, ?timer, ?deferred,
    fun s hpowered hagree => ?mismatch, fun s hpowered hmismatch => ?agree⟩
  case event =>
    have hexec := exec_faultEvent_of_known (a := a) hpowered hclass hpresent hkind hesc
    refine ⟨fun hbaton => ?baton, fun hclock => ?clock, fun hbaton hclock => ?other⟩
    case baton => exact hexec.trans (congrArg Host.Outcome.next (if_pos hbaton))
    case clock =>
      have hbaton : ¬ (k.toNat = kBatonFault ∧ src.toNat = 0x0A2) :=
        fun h => kBatonFault_ne_kClockLost (h.1.symm.trans hclock.1)
      exact hexec.trans (congrArg Host.Outcome.next ((if_neg hbaton).trans (if_pos hclock)))
    case other => exact hexec.trans (congrArg Host.Outcome.next ((if_neg hbaton).trans (if_neg hclock)))
  case width => exact congrArg Host.Outcome.next (if_pos (and_of (and_of hpowered hwidth) (decide_eq_true hend)))
  case timer => exact fun s src t hcore hsevere hacked htimer hdue => exec_reactionTimerExpiry_of_due hcore hsevere hacked htimer hdue
  case deferred => exact fun s n c rest hcore hwait hunit hfree => exec_escalationDeferredStart_of_first hcore hwait hunit hfree
  case mismatch =>
    exact congrArg Host.Outcome.next (if_pos (and_of (and_of hpowered (not_of_false hagree)) (beq_iff_eq.mpr rfl)))
  case agree => exact congrArg Host.Outcome.next (if_pos (and_of hpowered hmismatch))

end Sys2Proof.Proofs.FaultRows
end

section
/-! SUPPORT. Sweep steps, drains, unit tests, row copies, the patrol and the microcode rollover (13 R332 to R346; 16 R407). -/
namespace Sys2Proof.Proofs.DarningRows
open Sys2Proof Sys2Proof.Machine Sys2Proof.Safety Sys2Proof.Laws Sys2Proof.Proofs.Packets

variable {s : State}

/-! ### The sweep (13 R333, R334) -/

section SweepStep
variable {t : Nat} (hdue : s.darn.nextDue = some t)
  (hcan : (running s && s.darn.enable && s.darn.period != 0 && decide (t ≤ s.clk.now) && !sweepRuns s && !stepsHeld s) = true)
include hdue hcan

theorem exec_sweepStep_of_busy (hbusy : kindBusy s s.darn.nextKind = true) :
    exec .sweepStep s = .next { s with darn := skipStep (nextStep s.darn) } := by
  change execSweepStep s = _
  simp only [execSweepStep, hdue, if_pos hcan, hbusy, Bool.true_or, if_true]

theorem exec_sweepStep_of_unit (hroll : s.fw.rollLeft = []) (hbusy : kindBusy s s.darn.nextKind = false)
    (hhere : roleGone (unitOf s (nextSweepUnit s.eng.units s.darn.nextKind (sweepPtr s.darn s.darn.nextKind))).role = false) :
    exec .sweepStep s = .next (sweepUnit (nextSweepUnit s.eng.units s.darn.nextKind (sweepPtr s.darn s.darn.nextKind))
      { s with darn := nextStep s.darn }) := by
  change execSweepStep s = _
  simp only [execSweepStep, execSweepStep.freeOfRollover, hdue, if_pos hcan, hbusy, hroll, hhere, List.any_nil, Bool.or_self,
    Bool.false_eq_true, if_false]

end SweepStep

/-! ### Drain and test ends (01 R26; 13 R336, R337) -/

theorem exec_unitDrainEnd_of_drained {c : BitVec 10} {d : Drain} (hvalid : engselValid c.toNat = true)
    (hdrain : (unitOf s c.toNat).drain = some d) (hwork : working s = true)
    (hjobs : (jobsOn s c.toNat).any (fun q => d.jobs.contains q) = false) :
    exec (.unitDrainEnd c) s =
      let testing := match d.why with
        | .sweep | .test _ | .rollover => true
        | _ => false
      let partner := if unitKind c.toNat = 0 ∧ d.replacement.isNone then (unitOf s c.toNat).partner else none
      let s1 := leaveService c.toNat d.replacement testing s
      .next (startDue (afterDrain c.toNat d partner (spareCount s.eng.units (unitKind c.toNat))
        { s1 with eng := modUnit c.toNat (fun u => { u with drain := none }) s1.eng })) := by
  refine (if_neg (not_not_of_true hvalid)).trans (congrArg Host.Outcome.next ?_)
  simp only [hdrain]
  exact if_pos (and_of hwork (not_of_false hjobs))

theorem retireTested_of_none {x : UnitTest} (h : x.retireAfter = none) : retireTested x s = s := by
  simp only [retireTested, h]

section SweepTestEnd
variable {x : UnitTest} {r : TestOutcome} {l : List Readback} (hrun : running s = true) (hdue : testDue s = some (x, true))
  (hwhy : ∀ cid, x.why ≠ .test cid) (hretire : x.retireAfter = none)
include hrun hdue hwhy hretire

theorem exec_sweepTestEnd_of_sweep :
    exec (.sweepTestEnd ⟨r, l⟩) s =
      let res := resultWord { r with rowsRepaired := r.rowsRepaired + BitVec.ofNat 8 x.autoRows }
      let s1 := bistRows r.rowsRepaired.toNat x.unit { s with darn := { s.darn with
        test := none, tests := wrapInc 32 s.darn.tests
        failed := if passed r then s.darn.failed else satAdd 16 s.darn.failed 1, lastResult := res, lastUnit := x.unit } }
      .next (settle (unitKind x.unit) (spareCount s.eng.units (unitKind x.unit))
        (if passed r then testPassed x l s1 else testFailed x res l s1)) := by
  refine congrArg Host.Outcome.next ((if_pos hrun).trans ?_)
  simp only [hdue, if_true, retireTested_of_none hretire]

end SweepTestEnd

/-! ### Rows (13 R342 to R344) -/

theorem exec_rowRepairCopyEnd_of_due {a : BitVec 9} {c : RowCopy} {rest : List RowCopy} (hcopies : (arrayOf s a.toNat).copies = c :: rest)
    (hrun : running s = true) (hdue : c.until_ ≤ s.clk.now) :
    exec (.rowRepairCopyEnd a) s =
      let d := countInTest a.toNat c s.darn
      let s1 := rowRepaired a.toNat c.row { s with darn := { d with arrays := tmod d.arrays a.toNat (fun x => { x with copies := rest }) } }
      let s2 := match c.esc with
        | some src => raiseEvent src kEscRetired src s1
        | none => s1
      .next (match c.cid with
        | some cid => answerCid cid [] s2
        | none => s2) := by
  change execRowRepairCopyEnd a s = _
  simp only [execRowRepairCopyEnd, hcopies]
  exact congrArg Host.Outcome.next (if_pos (and_of hrun (decide_eq_true hdue)))

section Scrub
variable {a : BitVec 9} {row : BitVec 12}
  (hcan : (running s && arrayPresent s.pins.formL a.toNat && decide (row.toNat < Config.arrayRows a.toNat)) = true)
  (hinject : injectedAt s.flt (arraySrc a.toNat) 0 = none)
include hcan hinject

theorem exec_patrolScrubRow_of_clean : exec (.patrolScrubRow a row .clean) s = .next s := by
  refine congrArg Host.Outcome.next ((if_pos hcan).trans ?_)
  simp only [hinject, Option.isSome_none, Bool.false_eq_true, if_false, if_true]

variable (hecc : parityArray a.toNat = false)
include hecc

theorem exec_patrolScrubRow_of_corrected :
    exec (.patrolScrubRow a row .corrected) s = .next (eccCorrected a.toNat row.toNat (leNat (freeBytes s 4)) (useFree 4 s)) := by
  refine congrArg Host.Outcome.next ((if_pos hcan).trans ?_)
  simp only [hinject, hecc, Option.isSome_none, Bool.false_eq_true, if_false, reduceCtorEq, if_true]

theorem exec_patrolScrubRow_of_uncorrectable :
    exec (.patrolScrubRow a row .uncorrectable) s = .next (eccUncorrectable a.toNat row.toNat (leNat (freeBytes s 4)) (useFree 4 s)) := by
  refine congrArg Host.Outcome.next ((if_pos hcan).trans ?_)
  simp only [hinject, hecc, Option.isSome_none, Bool.false_eq_true, if_false, reduceCtorEq]

end Scrub

/-! ### The microcode rollover (16 R407) -/

section Rollover
variable {c : BitVec 10} {l : List Readback} (hvalid : engselValid c.toNat = true)
  (hcan : (working s && s.fw.rollLeft.contains c.toNat) = true)
include hvalid hcan

theorem exec_microcodeRolloverUnit_of_gone (hgone : roleGone (unitOf s c.toNat).role = true) :
    exec (.microcodeRolloverUnit ⟨c, l⟩) s = .next (reloaded l c.toNat s) :=
  (if_neg (not_not_of_true hvalid)).trans (congrArg Host.Outcome.next ((if_pos hcan).trans (if_pos hgone)))

theorem exec_microcodeRolloverUnit_of_free_kind (hbusy : kindBusy s (unitKind c.toNat) = false)
    (hgone : roleGone (unitOf s c.toNat).role = false) (htest : (unitOf s c.toNat).role ≠ .underTest) :
    exec (.microcodeRolloverUnit ⟨c, l⟩) s =
      .next (if (unitOf s c.toNat).role = .spare ∧ (jobsOn s c.toNat).isEmpty then
          spareAlert (unitKind c.toNat) (spareCount s.eng.units (unitKind c.toNat)) (advanceGen c.toNat (reloaded l c.toNat s))
        else withdraw c.toNat .rollover s) :=
  (if_neg (not_not_of_true hvalid)).trans (congrArg Host.Outcome.next ((if_pos hcan).trans ((if_neg (ne_true_of_eq_false hgone)).trans
    ((if_neg htest).trans (if_neg (ne_true_of_eq_false hbusy))))))

end Rollover

/-- Settles O44: a sweep step by what its kind does, the ends of drains, tests and copies, a scrub by what it finds, a rollover by role. -/
theorem darningRowsComplete : Obligations.DarningRowsComplete := by
  refine ⟨?sweep, ?drain, ?passed, ?failed, ?copy, ?scrub, ?rollover⟩
  case sweep =>
    intro s t hdue hrun henable hperiod hnow hsweep hheld hroll
    have hcan : (running s && s.darn.enable && s.darn.period != 0 && decide (t ≤ s.clk.now) && !sweepRuns s && !stepsHeld s) = true := by
      simp only [hrun, henable, bne_iff_ne.mpr hperiod, hnow, hsweep, hheld, decide_true, Bool.not_false, Bool.and_self]
    exact ⟨fun hbusy => exec_sweepStep_of_busy hdue hcan hbusy, fun hbusy hhere => exec_sweepStep_of_unit hdue hcan hroll hbusy hhere⟩
  case drain => exact fun s c d hvalid hdrain hwork hjobs => exec_unitDrainEnd_of_drained hvalid hdrain hwork hjobs
  case passed =>
    intro s x r l hrun hdue hwhy hpassed hretire
    have hexec := exec_sweepTestEnd_of_sweep (r := r) (l := l) hrun hdue hwhy hretire
    simp only [hpassed, if_true] at hexec
    exact hexec
  case failed =>
    intro s x r l hrun hdue hwhy hpassed hretire
    have hexec := exec_sweepTestEnd_of_sweep (r := r) (l := l) hrun hdue hwhy hretire
    simp only [hpassed, Bool.false_eq_true, if_false] at hexec
    exact hexec
  case copy => exact fun s a c rest hcopies hrun hdue => exec_rowRepairCopyEnd_of_due hcopies hrun hdue
  case scrub =>
    intro s a row hrun hpresent hrow hinject hecc
    have hcan := and_of (and_of hrun hpresent) (decide_eq_true hrow)
    exact ⟨exec_patrolScrubRow_of_clean hcan hinject, exec_patrolScrubRow_of_corrected hcan hinject hecc,
      exec_patrolScrubRow_of_uncorrectable hcan hinject hecc⟩
  case rollover =>
    intro s c l hvalid hwork hleft
    have hcan := and_of hwork hleft
    refine ⟨fun hgone => exec_microcodeRolloverUnit_of_gone hvalid hcan hgone, fun hspare hidle hbusy => ?spare, fun hactive hbusy => ?active⟩
    case spare =>
      have hexec := exec_microcodeRolloverUnit_of_free_kind (l := l) hvalid hcan hbusy (by rw [hspare]; rfl) (by simp [hspare])
      exact hexec.trans (congrArg Host.Outcome.next (if_pos ⟨hspare, hidle⟩))
    case active =>
      have hexec := exec_microcodeRolloverUnit_of_free_kind (l := l) hvalid hcan hbusy (by rw [hactive]; rfl) (by simp [hactive])
      exact hexec.trans (congrArg Host.Outcome.next (if_neg fun h => by simp [hactive] at h))

end Sys2Proof.Proofs.DarningRows
end

section
/-! SUPPORT. Cells and their tests, the conditioner, FEED reseeds and RNG_DATA (10 R267 to R280). -/
namespace Sys2Proof.Proofs.RandomRows
open Sys2Proof Sys2Proof.Machine Sys2Proof.Safety Sys2Proof.Laws Sys2Proof.Proofs.Packets

variable {s : State} {c : Fin 16}

/-! ### Tests of cells (10 R267) -/

/-- With no injected failure, a test ends as its bits say. -/
theorem testResult_of_no_hit {pass : Bool} (hhit : testHit s c.val = false) :
    testResult c.val pass s = (pass && !(cellOf s c.val).testFailed, s) := by
  simp only [testResult, hhit, Bool.not_false, Bool.and_true, Bool.false_eq_true, if_false]

section StartupTest
variable (hover : testOver s c.val true = true) (hhit : testHit s c.val = false)
include hover hhit

theorem exec_cellStartupTestEnd_of_pass (hsound : (cellOf s c.val).testFailed = false) :
    exec (.cellStartupTestEnd c true) s = .next (modCell c.val
      (fun x => { x with state := .online, startup := false, onlineSince := s.clk.now, bits := 0 }) { s with rng := { s.rng with started := true } }) := by
  refine congrArg Host.Outcome.next ((if_pos hover).trans ?_)
  simp only [testResult_of_no_hit hhit, hsound, Bool.not_false, Bool.and_self, if_true]

theorem exec_cellStartupTestEnd_of_fail :
    exec (.cellStartupTestEnd c false) s = .next (leaveOnline c.val { s with rng := { s.rng with started := true } }) := by
  refine congrArg Host.Outcome.next ((if_pos hover).trans ?_)
  simp only [testResult_of_no_hit hhit, Bool.false_and, Bool.false_eq_true, if_false]

end StartupTest

section Retest
variable (hover : testOver s c.val false = true) (hhit : testHit s c.val = false)
include hover hhit

theorem exec_cellRetestEnd_of_pass (hsound : (cellOf s c.val).testFailed = false) :
    exec (.cellRetestEnd c true) s = .next (fillCells (modCell c.val (fun x => { x with state := .spare, retestFails := 0 }) s)) := by
  refine congrArg Host.Outcome.next ((if_pos hover).trans ?_)
  simp only [testResult_of_no_hit hhit, hsound, Bool.not_false, Bool.and_self, if_true]

theorem exec_cellRetestEnd_of_fail :
    exec (.cellRetestEnd c false) s = .next (if 2 ≤ (cellOf s c.val).retestFails then
        raiseEvent (cellSrc c.val) kCellFailed 0 (modCell c.val (fun x => { x with state := .failed, retestFails := 3 }) s)
      else modCell c.val (fun x => { beginRetest s.clk.now x with retestFails := x.retestFails + 1 }) s) := by
  refine congrArg Host.Outcome.next ((if_pos hover).trans ?_)
  simp only [testResult_of_no_hit hhit, Bool.false_and, Bool.false_eq_true, if_false]

end Retest

/-! ### Health tests of an ONLINE cell (10 R269) -/

section Online
variable (hink : inkOn s = true) (honline : (cellOf s c.val).state = .online)
include hink honline

theorem health_condition_of_online :
    (inkOn s && ((cellOf s c.val).state == .online || (cellOf s c.val).state == .underTest)) = true := by
  simp [hink, honline]

theorem exec_healthWindowClose_of_good {n : BitVec 11} (hinject : injectedAt s.flt (cellSrc c.val) 4 = none) (hn : n.toNat < 749) :
    exec (.healthWindowClose c n) s = .next (modCell c.val (fun x => { x with
      rawBits := x.rawBits + 1024, bits := if x.state = .online then x.bits + 1024 else x.bits }) s) := by
  refine congrArg Host.Outcome.next ((if_pos (health_condition_of_online hink honline)).trans ?_)
  simp only [hinject, Option.isSome_none, Bool.and_false, Bool.false_eq_true, or_false, if_neg (Nat.not_le.mpr hn), if_false]

theorem exec_healthWindowClose_of_bad {n : BitVec 11} (hinject : injectedAt s.flt (cellSrc c.val) 4 = none) (hn : 749 ≤ n.toNat) :
    exec (.healthWindowClose c n) s = .next (leaveOnline c.val (modCell c.val
      (fun x => { x with rawBits := x.rawBits + 1024, testFailed := true }) (aptFail c.val s))) := by
  refine congrArg Host.Outcome.next ((if_pos (health_condition_of_online hink honline)).trans ?_)
  simp only [hinject, Option.isSome_none, Bool.and_false, Bool.false_eq_true, if_pos (Or.inl hn), if_pos honline, if_false]

theorem exec_repetitionCountFailure_of_online :
    exec (.repetitionCountFailure c) s = .next (leaveOnline c.val (modCell c.val (fun x => { x with testFailed := true })
      (raiseEvent (cellSrc c.val) kHealthRct ((cellOf s c.val).rawBits + leNat (freeBytes s 2) % 1024)
        { useFree 2 s with rng := { s.rng with rct := satAdd 32 s.rng.rct 1 } }))) :=
  congrArg Host.Outcome.next ((if_pos (health_condition_of_online hink honline)).trans (if_pos honline))

end Online

theorem exec_cellRotation_of_spare {i : Nat} {x : Cell} {y : Nat × Cell} (hink : inkOn s = true) (hperiod : s.rng.period ≠ 0)
    (hdue : s.rng.rotateAt ≤ s.clk.now) (hlongest : longestOnline s.rng = some (i, x))
    (hspare : tfind s.rng.cells (fun _ c => c.state == .spare) = some y) :
    exec .cellRotation s = .next (leaveOnline i { s with rng := { s.rng with rotateAt := s.rng.rotateAt + cyMs (1000 * s.rng.period) } }) := by
  refine congrArg Host.Outcome.next ((if_pos (and_of (and_of hink (bne_iff_ne.mpr hperiod)) (decide_eq_true hdue))).trans ?_)
  simp only [hlongest, hspare]

/-! ### The conditioner and FEED (10 R272, R276, R277, R280) -/

section Conditioner
variable {r : Rng} (hink : inkOn s = true) (hpool : s.rng.pool < 16) (hportions : takePortions 4 s.rng = some r)
  (hinject : injectedAt s.flt 0x050 2 = none)
include hink hpool hportions hinject

theorem exec_conditionerOutput_of_agree :
    exec (.conditionerOutput true) s = .next (refillState { s with rng := { r with pool := r.pool + 1 } }) := by
  refine congrArg Host.Outcome.next ((if_pos (and_of hink (decide_eq_true hpool))).trans ?_)
  simp only [hportions, hinject, Option.isSome_none, Bool.not_false, Bool.and_self, if_true, Bool.false_eq_true, if_false]

theorem exec_conditionerOutput_of_mismatch :
    exec (.conditionerOutput false) s =
      .next (raiseEvent 0x050 kTwinCompare 0 { s with rng := { r with mismatch := satAdd 32 r.mismatch 1 } }) := by
  refine congrArg Host.Outcome.next ((if_pos (and_of hink (decide_eq_true hpool))).trans ?_)
  simp only [hportions, hinject, Option.isSome_none, Bool.false_and, Bool.false_eq_true, if_false]

end Conditioner

section Reseed
variable {i : Fin 8} (hawake : awake s = true) (hready : (tgetD s.rng.feeds i.val {}).state = .ready)
  (hdue : 2 ^ 20 ≤ (tgetD s.rng.feeds i.val {}).requests ∨ (tgetD s.rng.feeds i.val {}).nextReseed ≤ s.clk.now)
  (hinject : injectedAt s.flt (0x058 + i.val) 2 = none)
include hawake hready hdue

theorem reseed_condition_of_due :
    (awake s && (tgetD s.rng.feeds i.val {}).state == .ready
      && (decide (2 ^ 20 ≤ (tgetD s.rng.feeds i.val {}).requests) || decide ((tgetD s.rng.feeds i.val {}).nextReseed ≤ s.clk.now))) = true :=
  and_of (and_of hawake (beq_iff_eq.mpr hready)) ((Bool.or_eq_true _ _).mpr (hdue.imp (fun h => decide_eq_true h) (fun h => decide_eq_true h)))

include hinject

theorem exec_feedReseedDue_of_agree :
    exec (.feedReseedDue i true) s =
      .next (if (tgetD s.rng.feeds i.val {}).reserve then refillState { s with rng := reseed s.clk.now i.val s.rng }
        else { s with rng := stopFeed i.val .stopped s.rng }) := by
  refine congrArg Host.Outcome.next ((if_pos (reseed_condition_of_due hawake hready hdue)).trans ?_)
  simp only [hinject, Option.isSome_none, Bool.not_true, Bool.or_self, Bool.false_eq_true, if_false]

theorem exec_feedReseedDue_of_mismatch : exec (.feedReseedDue i false) s = .next (feedMismatch i.val s) := by
  refine congrArg Host.Outcome.next ((if_pos (reseed_condition_of_due hawake hready hdue)).trans ?_)
  simp only [hinject, Option.isSome_none, Bool.not_false, Bool.or_false, Bool.false_eq_true, if_false, if_true]

end Reseed

/-- Settles O45: the ends of tests by their result, a window by its count, then rotation, the clock, the conditioner and FEED. -/
theorem randomRowsComplete : Obligations.RandomRowsComplete := by
  refine ⟨?startupPass, ?startupFail, ?retestPass, ?retestFail, ?window, ?repetition, ?rotation, fun s hawake hink => ?lost,
    fun s hawake hlost => ?returned, ?conditioner, ?reseed, fun s hawake hfeed hroom => ?data⟩
  case startupPass => exact fun s c hover hhit hsound => exec_cellStartupTestEnd_of_pass hover hhit hsound
  case startupFail => exact fun s c hover hhit => exec_cellStartupTestEnd_of_fail hover hhit
  case retestPass => exact fun s c hover hhit hsound => exec_cellRetestEnd_of_pass hover hhit hsound
  case retestFail => exact fun s c hover hhit => exec_cellRetestEnd_of_fail hover hhit
  case window =>
    exact fun s c n hink honline hinject =>
      ⟨fun hn => exec_healthWindowClose_of_good hink honline hinject hn, fun hn => exec_healthWindowClose_of_bad hink honline hinject hn⟩
  case repetition => exact fun s c hink honline => exec_repetitionCountFailure_of_online hink honline
  case rotation => exact fun s i x y hink hperiod hdue hlongest hspare => exec_cellRotation_of_spare hink hperiod hdue hlongest hspare
  case lost => exact ⟨_, congrArg Host.Outcome.next (if_pos (and_of hawake (not_of_false hink)))⟩
  case returned => exact congrArg Host.Outcome.next (if_pos (and_of hawake hlost))
  case conditioner =>
    exact fun s r hink hpool hportions hinject =>
      ⟨exec_conditionerOutput_of_agree hink hpool hportions hinject, exec_conditionerOutput_of_mismatch hink hpool hportions hinject⟩
  case reseed =>
    exact fun s i hawake hready hdue hinject =>
      ⟨exec_feedReseedDue_of_agree hawake hready hdue hinject, exec_feedReseedDue_of_mismatch hawake hready hdue hinject⟩
  case data =>
    exact ⟨_, congrArg Host.Outcome.next (if_pos (and_of (and_of hawake hfeed) (decide_eq_true hroom))),
      (List.length_map _).trans List.length_range⟩

end Sys2Proof.Proofs.RandomRows
end

section
/-! SUPPORT. Entry to the power states, their commit, wakes and exits (14 R352 to R358). -/
namespace Sys2Proof.Proofs.PowerRows
open Sys2Proof Sys2Proof.Machine Sys2Proof.Safety Sys2Proof.Laws Sys2Proof.Proofs.Packets

variable {s : State} {t : PState}

/-! ### Entry (14 R352, R353) -/

theorem exec_deepIdleEntry_of_p0 (htarget : deepTarget s.pwr.deepest = some t) (hcore : coreOn s = true) (hstarted : started s = true)
    (hp0 : s.pwr.state = .p0) (hwaking : s.pwr.waking = false) (hentering : s.pwr.entering = none) (hidle : deepIdle s = true)
    (hdue : s.pwr.deepSince + cyUs s.pwr.idleUs ≤ s.clk.now) :
    exec .deepIdleEntry s =
      .next { entryWork t (loseAllMessages s) with pwr := { (entryWork t (loseAllMessages s)).pwr with state := .p0, entering := some t } } := by
  change execDeepIdleEntry s = _
  simp only [execDeepIdleEntry, htarget]
  refine congrArg Host.Outcome.next ((if_pos ?_).trans ?_)
  · simp only [hcore, hstarted, hp0, hwaking, hentering, hidle, hdue, beq_self_eq_true, Bool.true_or, Bool.not_false, Option.isNone_none,
      decide_true, Bool.and_self]
  · rw [if_neg (by simp [hp0])]

/-- The losses of an entry to a deep state (14 R352, Table 14-1). -/
def deepLoss (t : PState) (s : State) : State :=
  let s2 := if t = .p2 then loseP2 s else loseP3r (loseP2 s)
  if t = .p3 then loseP3 s2 else s2

theorem exec_powerEntryCommit_of_ready (hentering : s.pwr.entering = some t) (hcore : coreOn s = true) (hidle : deepIdle s = true)
    (hstored : treeStored s = true) :
    exec .powerEntryCommit s = .next { deepLoss t s with
      pwr := { (deepLoss t s).pwr with state := t, entering := none, leftP0 := s.clk.now, slept := s.clk.now } } := by
  change execPowerEntryCommit s = _
  simp only [execPowerEntryCommit, hentering]
  exact congrArg Host.Outcome.next (if_pos (and_of (and_of hcore hidle) hstored))

theorem deepLoss_p2 : deepLoss .p2 s = loseP2 s := rfl

theorem deepLoss_p3r : deepLoss .p3r s = loseP3r (loseP2 s) := rfl

theorem deepLoss_p3 : deepLoss .p3 s = loseP3 (loseP3r (loseP2 s)) := rfl

/-! ### Wakes and exits (14 R356 to R358) -/

theorem wakeNow_of_asleep (hentering : s.pwr.entering = none) (hwaking : s.pwr.waking = false) (hstate : s.pwr.state ≠ .p0) (c : Nat) :
    wakeNow c s = { s with pwr := { s.pwr with waking := true, lastWake := c } } := by
  simp [wakeNow, wakePower, hentering, hwaking, hstate]

section Exit
variable {l : List Readback} (hcore : coreOn s = true) (hwaking : s.pwr.waking = true)
include hcore hwaking

theorem exec_powerExitComplete_of_exit {ok : Bool} (hok : ok = true ∨ (s.pwr.state ≠ .p3r ∧ s.pwr.state ≠ .p3)) :
    exec (.powerExitComplete ⟨ok, l⟩) s =
      let s1 := backToP0 ((s.pwr.state == .p3r || s.pwr.state == .p3) || s.pwr.state == .p2) s
      .next (crpAccept (replayPorch (exitWork s.pwr.state l { s1 with
        pwr := { s1.pwr with waking := false, wakeBit := false, wakes := wrapInc 32 s1.pwr.wakes }
        baton := { s1.baton with lastRenew := s.clk.now } }))) := by
  refine congrArg Host.Outcome.next ((if_pos (and_of hcore hwaking)).trans (if_neg ?_))
  rcases hok with rfl | ⟨hp3r, hp3⟩
  · simp
  · simp [hp3r, hp3]

theorem exec_powerExitComplete_of_start (hdeep : s.pwr.state = .p3r ∨ s.pwr.state = .p3) :
    exec (.powerExitComplete ⟨false, l⟩) s =
      .next (runStart { scribeA := none, scribeB := none, control := none, units := [], readback := l } (coreReset s)) := by
  refine congrArg Host.Outcome.next ((if_pos (and_of hcore hwaking)).trans (if_pos ?_))
  rcases hdeep with h | h <;> simp [h]

end Exit

/-- Settles O46: the entries, the commit by the state entered, the wakes, and the exits by the digest found. -/
theorem powerRowsComplete : Obligations.PowerRowsComplete := by
  refine ⟨fun s hrun hentering hidle hdeepest hdue => ?p1, ?deepIdle, fun s hentering hcore hidle hstored => ?p2,
    fun s hentering hcore hidle hstored => ?p3, fun s hentering hcore hidle hstored => ?p3r, fun s c hcore hstarted => ?wake,
    fun s hcore hstarted hdue => ?timed, fun s hentering hwaking hstate c => wakeNow_of_asleep hentering hwaking hstate c,
    fun s ok l hcore hwaking hok => exec_powerExitComplete_of_exit hcore hwaking hok,
    fun s l hcore hwaking hdeep => exec_powerExitComplete_of_start hcore hwaking hdeep⟩
  case p1 =>
    exact congrArg Host.Outcome.next (if_pos (and_of (and_of (and_of (and_of hrun (Option.isNone_iff_eq_none.mpr hentering)) hidle)
      (decide_eq_true hdeepest)) (decide_eq_true hdue)))
  case deepIdle =>
    exact fun s t htarget hcore hstarted hp0 hwaking hentering hidle hdue =>
      exec_deepIdleEntry_of_p0 htarget hcore hstarted hp0 hwaking hentering hidle hdue
  case p2 => exact ⟨_, exec_powerEntryCommit_of_ready hentering hcore hidle hstored, rfl, rfl, rfl, rfl, rfl, rfl, rfl, rfl, rfl⟩
  case p3 =>
    exact ⟨_, exec_powerEntryCommit_of_ready hentering hcore hidle hstored, rfl, rfl, rfl, rfl, rfl, rfl, rfl, rfl, rfl, rfl⟩
  case p3r =>
    exact ⟨_, exec_powerEntryCommit_of_ready hentering hcore hidle hstored, rfl, rfl, rfl, rfl, rfl, rfl, rfl, rfl, rfl, rfl, rfl⟩
  case wake => exact congrArg Host.Outcome.next (if_pos (and_of hcore hstarted))
  case timed => exact congrArg Host.Outcome.next (if_pos (and_of (and_of hcore hstarted) hdue))

end Sys2Proof.Proofs.PowerRows
end

section
/-! SUPPORT. Renewals and the lapse of the baton, awards, and the deposed Scribe (01 R16; 14 R363 to R368). -/
namespace Sys2Proof.Proofs.BatonRows
open Sys2Proof Sys2Proof.Machine Sys2Proof.Safety Sys2Proof.Laws Sys2Proof.Proofs.Packets

variable {s : State}

/-! ### Configuration writes (01 R16; 14 R366) -/

section ConfigWrite
variable {k epoch : Nat} {f : State → State}

theorem configWrite_of_owner (hagree : batonAgrees s.baton = true) (howner : batonOwner s = k ∧ epoch = batonEpoch s) :
    configWrite k epoch f s = f s :=
  (if_neg (not_not_of_true hagree)).trans (if_pos howner)

theorem configWrite_of_stale (hagree : batonAgrees s.baton = true) (howner : ¬ (batonOwner s = k ∧ epoch = batonEpoch s)) :
    configWrite k epoch f s = { s with baton := { s.baton with stale := satAdd 16 s.baton.stale 1 } } :=
  (if_neg (not_not_of_true hagree)).trans (if_neg howner)

theorem configWrite_of_fault (hagree : batonAgrees s.baton = false) : configWrite k epoch f s = batonFault s :=
  if_pos (not_of_false hagree)

end ConfigWrite

theorem batonFault_failSilent : (batonFault s).pwr.failSilent = true := by
  simp only [batonFault, enterFailSilent]
  split
  · next hsilent => exact hsilent
  · rfl

/-! ### Renewals and the lapse (14 R363 to R365) -/

theorem exec_batonRenewal_of_on {c : Scribe} {n : BitVec 48} (hon : scribesOn s = true) :
    exec (.batonRenewal c n) s =
      .next (configWrite (scribeNum c) n.toNat (fun s => { s with baton := { s.baton with lastRenew := s.clk.now } }) s) :=
  congrArg Host.Outcome.next (if_pos hon)

theorem exec_batonLapse_of_agree (hon : scribesOn s = true) (hdue : s.baton.lastRenew + cyMs 1 ≤ s.clk.now)
    (hagree : batonAgrees s.baton = true) :
    exec .batonLapse s =
      let s1 := { s with baton := { s.baton with lapses := satAdd 16 s.baton.lapses 1 } }
      .next (if scribeState s.baton (1 - batonOwner s) = .ready then
        raiseEvent (scribeSrc (batonOwner s)) 0x23 (batonEpoch s) (takeover (1 - batonOwner s) s1) else enterFailSilent 3 s1) :=
  congrArg Host.Outcome.next ((if_pos (and_of hon (decide_eq_true hdue))).trans (if_neg (not_not_of_true hagree)))

theorem scribeState_award {b : Baton} {now k : Nat} (hk : k < 2) : scribeState (award now k b) k = .owner := by
  have hcases : k = 0 ∨ k = 1 := by omega
  rcases hcases with rfl | rfl <;> rfl

theorem award_copies (b : Baton) (now k : Nat) :
    let c : BatonCopy := { epoch := b.c0.epoch + 1, owner := k }
    (award now k b).c0 = c ∧ (award now k b).c1 = c ∧ (award now k b).c2 = c ∧ (award now k b).lastRenew = now := by
  unfold award setScribe
  split <;> exact ⟨rfl, rfl, rfl, rfl⟩

theorem award_sound {b : Baton} {now k : Nat} (hk : k < 2) :
    (award now k b).c0.epoch = b.c0.epoch + 1 ∧ (award now k b).c0.owner = k ∧ batonAgrees (award now k b) = true
      ∧ scribeState (award now k b) k = .owner ∧ (award now k b).lastRenew = now := by
  obtain ⟨hc0, hc1, hc2, hrenew⟩ := award_copies b now k
  refine ⟨congrArg BatonCopy.epoch hc0, congrArg BatonCopy.owner hc0, ?_, scribeState_award hk, hrenew⟩
  simp only [batonAgrees, hc0, hc1, hc2, beq_self_eq_true, Bool.and_self]

/-! ### The deposed Scribe (14 R366) -/

theorem lateWrite_of_none {k : Nat} (h : s.baton.late = none) : lateWrite k s = s := by
  simp only [lateWrite, h]

theorem lateWrite_of_stale {k n : Nat} (hlate : s.baton.late = some (k, n)) (hagree : batonAgrees s.baton = true)
    (howner : ¬ (batonOwner s = k ∧ n = batonEpoch s)) :
    lateWrite k s = { s with baton := { s.baton with late := none, stale := satAdd 16 s.baton.stale 1 } } := by
  simp only [lateWrite, hlate, if_true]
  exact configWrite_of_stale hagree howner

/-- Settles O47: a renewal by its epoch, a lapse by the standby's state, the award, and the steps of a deposed Scribe. -/
theorem batonRowsComplete : Obligations.BatonRowsComplete := by
  refine ⟨fun s c n hon hagree => ?renewal, fun s c n hon hagree => ?fault, fun s hon hdue hagree => exec_batonLapse_of_agree hon hdue hagree,
    fun b now k hk => award_sound hk, fun s c hon hdeposed => ?quiet,
    fun s c hon hsyncing => ?ready⟩
  case renewal =>
    split
    · next howner => exact (exec_batonRenewal_of_on hon).trans (congrArg Host.Outcome.next (configWrite_of_owner hagree howner))
    · next howner => exact (exec_batonRenewal_of_on hon).trans (congrArg Host.Outcome.next (configWrite_of_stale hagree howner))
  case fault =>
    exact ⟨(exec_batonRenewal_of_on hon).trans (congrArg Host.Outcome.next (configWrite_of_fault hagree)), batonFault_failSilent⟩
  case quiet =>
    exact ⟨congrArg Host.Outcome.next (if_pos (and_of hon (beq_iff_eq.mpr hdeposed))), fun hnone => lateWrite_of_none hnone,
      fun n hlate hagree howner => lateWrite_of_stale hlate hagree howner⟩
  case ready => exact congrArg Host.Outcome.next (if_pos (and_of hon (beq_iff_eq.mpr hsyncing)))

end Sys2Proof.Proofs.BatonRows
end

section
/-! SUPPORT. The ends of NVM programs and erases, and the compaction of logs (15 R372 to R389). -/
namespace Sys2Proof.Proofs.NvmRows
open Sys2Proof Sys2Proof.Machine Sys2Proof.Safety Sys2Proof.Laws Sys2Proof.Proofs.Packets

variable {s : State} {o : NvmOp} {rest : List NvmOp}

/-- What the end of a program or marker gives, by its result (15 R372, R378, R379). -/
def operationEnd (result : NvmResult) (l : Nat) (o : NvmOp) (rest : List NvmOp) (s : State) : State :=
  match result with
  | .verified => verified o rest s
  | .corrected => verified o rest (correctSector l s)
  | .verifyFailed => failedVerify l o rest s
  | .uncorrectable => failedVerify l o rest (uncorrectableWord l s)

theorem exec_nvmOperationComplete_of_good {result : NvmResult} (hops : s.nvm.ops = o :: rest) (hworks : nvmWorks s = true)
    (herase : isErase o.work = false) (hbad : sectorBad s.nvm (workSector o.work (leNat (freeBytes s 1))) = false) :
    exec (.nvmOperationComplete result) s =
      .next (operationEnd result (workSector o.work (leNat (freeBytes s 1))) o rest (useFree 1 s)) := by
  have hgo : ¬ (!nvmWorks s || isErase o.work) = true := by simp [hworks, herase]
  change execNvmOperationComplete result s = _
  simp only [execNvmOperationComplete, hops, if_neg hgo]
  refine congrArg Host.Outcome.next ((if_neg (ne_true_of_eq_false hbad)).trans ?_)
  cases result <;> rfl

section Erase
variable {l : Nat} (hops : s.nvm.ops = o :: rest) (hwork : o.work = .eraseSector l) (hworks : nvmWorks s = true)
  (hbad : sectorBad s.nvm l = false)
include hops hwork hworks hbad

theorem exec_nvmEraseComplete_of_blank {first second : Bool} (hblank : (first || second) = true) :
    exec (.nvmEraseComplete first second) s =
      .next (nvmDone o.cid (setOps rest (eraseRetire l true (countErases l (if first then 1 else 2) (eraseContent l s))))) := by
  change execNvmEraseComplete first second s = _
  simp only [execNvmEraseComplete, hops, hwork, hblank, Bool.not_true, Bool.and_false, Bool.false_eq_true, if_false,
    if_neg (not_not_of_true hworks), if_neg (ne_true_of_eq_false hbad)]

end Erase

theorem logArea_pos (g : NvmLog) : 0 < (logArea g).2 := by
  cases g <;> decide

/-- Settles O48: the end of a program by its result, the end of an erase by its blank check, and a compaction by its log. -/
theorem nvmRowsComplete : Obligations.NvmRowsComplete := by
  refine ⟨fun s o rest hops hworks herase hbad => ?program, fun s o rest l hops hwork hworks hbad => ?erase, fun s g hworks => ?compaction⟩
  case program =>
    exact ⟨exec_nvmOperationComplete_of_good hops hworks herase hbad, exec_nvmOperationComplete_of_good hops hworks herase hbad,
      exec_nvmOperationComplete_of_good hops hworks herase hbad, exec_nvmOperationComplete_of_good hops hworks herase hbad⟩
  case erase =>
    exact ⟨exec_nvmEraseComplete_of_blank hops hwork hworks hbad rfl, exec_nvmEraseComplete_of_blank hops hwork hworks hbad rfl⟩
  case compaction =>
    exact ⟨_, Nat.le_add_right _ _, Nat.add_lt_add_left (Nat.mod_lt _ (logArea_pos g)) _, congrArg Host.Outcome.next (if_pos hworks)⟩

end Sys2Proof.Proofs.NvmRows
end

section
/-! SUPPORT. Replay, preparation, pause, time-out, self-check and probation of an image (16 R398 to R411). -/
namespace Sys2Proof.Proofs.FirmwareRows
open Sys2Proof Sys2Proof.Machine Sys2Proof.Safety Sys2Proof.Laws Sys2Proof.Proofs.Packets

variable {s : State}

/-! ### Replay (16 R394, R398) -/

/-- The firmware state after a replay: the image that the journal gives, or the image as it was. -/
def replayed (s : State) : State := { s with fw := { closeTransfer ((replayJournal s).getD s.fw) with lastFallback := 6 } }

section Replay
variable (hpowered : s.pins.powered = true) (hreset : s.pins.coreInReset = false) (hstate : s.fw.state = .replaying) (hops : s.nvm.ops = [])
  (hlow : s.pins.nvmLow = false)
include hpowered hreset hstate hops hlow

theorem replay_condition_of_done :
    (aonOn s && !s.pins.coreInReset && s.fw.state == .replaying && s.nvm.ops.isEmpty && !s.pins.nvmLow) = true := by
  simp only [aonOn, hpowered, hreset, hstate, hops, hlow, Bool.not_false, beq_self_eq_true, List.isEmpty_nil, Bool.and_self]

theorem exec_journalReplayEnd_of_unasked (habort : ∀ cid, s.fw.replay ≠ some (.abort cid))
    (hrelay : ∀ cid, s.fw.replay ≠ some (.relayAbort cid)) : exec .journalReplayEnd s = .next (replayed s) := by
  refine congrArg Host.Outcome.next ((if_pos (replay_condition_of_done hpowered hreset hstate hops hlow)).trans ?_)
  simp only [replayed]

theorem exec_journalReplayEnd_of_abort {cid : Nat} {e : CmdEntry} (habort : s.fw.replay = some (.abort cid)) (hentry : entryOf s cid = some e) :
    exec .journalReplayEnd s =
      .next (releaseToken (answer e (if (replayJournal s).isSome then .ok else .imageInvalid) [] (replayed s))) := by
  have hentry' : entryOf (replayed s) cid = some e := hentry
  refine congrArg Host.Outcome.next ((if_pos (replay_condition_of_done hpowered hreset hstate hops hlow)).trans ?_)
  simp only [replayed] at hentry'
  simp only [habort, hentry', replayed]

end Replay

/-! ### Preparation and the pause (16 R404, R405, R408) -/

theorem exec_activationPauseStart_of_ready (hrun : running s = true) (hstate : s.fw.state = .preparing) (hpause : s.fw.pauseAt = none)
    (hready : scribeState s.baton (standby s) = .ready) (hdue : s.fw.immediate = true ∨ actNsAt s.fw ≤ gNs s) (htest : s.darn.test = none)
    (htoken : tokenFree s = true) : exec .activationPauseStart s = .next (beginPause s) := by
  have hnow : (s.fw.immediate || decide (actNsAt s.fw ≤ gNs s)) = true := (Bool.or_eq_true _ _).mpr (hdue.imp_right fun h => decide_eq_true h)
  refine congrArg Host.Outcome.next (if_pos ?_)
  simp only [hrun, hstate, hpause, hready, hnow, htest, htoken, beq_self_eq_true, Option.isNone_none, Bool.and_self]

theorem prepare_of_verified (himage : imageFault s = none) (hstandby : scribeState s.baton (standby s) ≠ .offline) (now : Bool) :
    prepare now s =
      { s with fw := { loadScribe (standby s) s.fw with
                         state := .preparing, prepAt := s.clk.now, immediate := now, shadow := Config.microcodePart (imageBytes s.fw) }
               baton := setScribe (standby s) .syncing s.baton } :=
  if_neg (not_or.mpr ⟨not_not_intro himage, hstandby⟩)

theorem exec_activationReadyTimeout_of_late (hcore : coreOn s = true) (hstate : s.fw.state = .preparing) (hpause : s.fw.pauseAt = none)
    (hstandby : scribeState s.baton (standby s) ≠ .ready) (hdue : s.fw.prepAt + cyMs 60 ≤ s.clk.now) :
    exec .activationReadyTimeout s = .next (failActivation s) := by
  refine congrArg Host.Outcome.next (if_pos ?_)
  simp only [hcore, hstate, hpause, bne_iff_ne.mpr hstandby, hdue, beq_self_eq_true, Option.isNone_none, decide_true, Bool.and_self]

theorem exec_tokenHoldWindowStart_of_due (hrun : running s = true) (hrelay : s.fw.relay = true) (hstate : s.fw.state = .scheduled)
    (himmediate : s.fw.immediate = false) (hdue : actNsAt s.fw ≤ gNs s + 400000000) :
    exec .tokenHoldWindowStart s = .next { s with cmd := { s.cmd with tokenHold := true } } := by
  refine congrArg Host.Outcome.next (if_pos ?_)
  simp only [hrun, hrelay, hstate, himmediate, hdue, beq_self_eq_true, Bool.true_or, Bool.not_false, decide_true, Bool.and_self]

/-! ### Probation (16 R409, R411) -/

theorem imageEffect_lastFallback (w : NvmWork) (f : Fw) : (imageEffect w f).lastFallback = f.lastFallback := by
  cases w <;> simp only [imageEffect] <;> split <;> rfl

theorem eraseContent_lastFallback (l : Nat) (s : State) : (eraseContent l s).fw.lastFallback = s.fw.lastFallback := by
  unfold eraseContent
  split
  · rfl
  · split
    · rfl
    · split
      · rfl
      · split <;> rfl

theorem settleOps_lastFallback (s : State) : (settleOps s).fw.lastFallback = s.fw.lastFallback := by
  unfold settleOps
  cases hops : s.nvm.ops with
  | nil => rfl
  | cons o rest =>
    dsimp only
    split
    · split
      · exact eraseContent_lastFallback _ s
      · exact imageEffect_lastFallback _ s.fw
    · rfl

theorem fallBack_lastFallback (cause : Nat) (s : State) : (fallBack cause s).fw.lastFallback = cause :=
  settleOps_lastFallback _

/-- Settles O49: a replay by who asked for it, then preparation, pause and probation, each at its time. -/
theorem firmwareRowsComplete : Obligations.FirmwareRowsComplete := by
  refine ⟨fun s hpowered hreset hstate hops hlow habort hrelay => ?replay, fun s cid e hpowered hreset hstate hops hlow habort hentry => ?abort,
    fun s hrun hstate hdue => ?start, fun s himage hstandby now => prepare_of_verified himage hstandby now,
    fun s hrun hrelay hstate himmediate hdue => exec_tokenHoldWindowStart_of_due hrun hrelay hstate himmediate hdue,
    fun s hcore hstate hpause hstandby hdue => exec_activationReadyTimeout_of_late hcore hstate hpause hstandby hdue,
    fun s hrun hstate hpause hready hdue htest htoken => exec_activationPauseStart_of_ready hrun hstate hpause hready hdue htest htoken,
    fun s hwork hstate hdone => ?selfCheck, fun s hcore hstate hend => ?probation⟩
  case replay => exact exec_journalReplayEnd_of_unasked hpowered hreset hstate hops hlow habort hrelay
  case abort => exact exec_journalReplayEnd_of_abort hpowered hreset hstate hops hlow habort hentry
  case start =>
    exact congrArg Host.Outcome.next (if_pos (and_of (and_of hrun (beq_iff_eq.mpr hstate)) (decide_eq_true hdue)))
  case selfCheck =>
    have hcan := and_of (and_of hwork (beq_iff_eq.mpr hstate)) (not_of_false hdone)
    exact ⟨congrArg Host.Outcome.next (if_pos hcan), congrArg Host.Outcome.next (if_pos hcan)⟩
  case probation =>
    exact ⟨congrArg Host.Outcome.next (if_pos (and_of (and_of hcore (beq_iff_eq.mpr hstate)) (decide_eq_true hend))),
      fallBack_lastFallback 1 s, rfl⟩

end Sys2Proof.Proofs.FirmwareRows
end

section
/-! SUPPORT. The events of the card port and of its bus (17 R415 to R432). -/
namespace Sys2Proof.Proofs.CardRows
open Sys2Proof Sys2Proof.Machine Sys2Proof.Safety Sys2Proof.Laws Sys2Proof.Proofs.Packets

variable {s : State} {c : CardCmd}

theorem aonOn_of_cardLive (hlive : cardLive s = true) : aonOn s = true := by
  simp only [cardLive, coreOn, Bool.and_eq_true] at hlive
  obtain ⟨⟨⟨⟨hpowered, _⟩, _⟩, _⟩, _⟩ := hlive
  exact hpowered

/-- The port is live and waits for what came. -/
theorem not_deaf_of_wait {w : CardWait} (hlive : cardLive s = true) (hwait : s.fol.wait = w) :
    ¬ (!cardLive s || s.fol.wait != w) = true := by
  simp [hlive, hwait]

/-! ### The slot (17 R415 to R418) -/

theorem exec_cardDebounceDone_of_live (hseated : s.fol.seated = false) (hlive : cardLive s = true) :
    exec .cardDebounceDone s = .next { s with fol := { cardOff s.fol with
      seated := true, state := .probing, ident := [], genA := 0, genB := 0, insertions := wrapInc 16 s.fol.insertions } } :=
  congrArg Host.Outcome.next ((if_neg (show ¬ (s.fol.seated || !aonOn s) = true by simp [hseated, aonOn_of_cardLive hlive])).trans
    (if_pos hlive))

theorem exec_cardRemoval_of_on (hpowered : s.pins.powered = true) :
    exec .cardRemoval s =
      let s1 := if cardLive s then dropRestore ((cardCommands s).foldl (fun a e => answer e .cardAbsent [] a) s) else s
      .next { s1 with fol := { cardOff s1.fol with seated := false, password := none, state := .empty } } :=
  congrArg Host.Outcome.next (if_pos hpowered)

/-! ### Transfers (17 R425 to R427) -/

section Frame
variable {f : BitVec 48} (hcur : s.fol.cur = some c) (hlive : cardLive s = true) (hwait : s.fol.wait = .response)
include hcur hlive hwait

theorem exec_cardResponseFrame_of_bad_crc (hcrc : bits f.toNat 1 7 ≠ (crc7 f).toNat) :
    exec (.cardResponseFrame f) s = .next (transferError (countCrc 1 s)) := by
  change execCardResponseFrame f s = _
  simp only [execCardResponseFrame, hcur, if_neg (not_deaf_of_wait hlive hwait), if_pos hcrc]

theorem exec_cardResponseFrame_of_good (hcrc : bits f.toNat 1 7 = (crc7 f).toNat) (hstart : bits f.toNat 45 3 = 1)
    (hstop : bits f.toNat 0 1 = 1) (hcode : bits f.toNat 40 5 = c.code) :
    exec (.cardResponseFrame f) s = .next (responded c (bits f.toNat 8 32) s) := by
  have hform : ¬ (bits f.toNat 45 3 ≠ 1 ∨ bits f.toNat 0 1 ≠ 1 ∨ bits f.toNat 40 5 ≠ c.code) :=
    not_or.mpr ⟨not_not_intro hstart, not_or.mpr ⟨not_not_intro hstop, not_not_intro hcode⟩⟩
  change execCardResponseFrame f s = _
  simp only [execCardResponseFrame, hcur, if_neg (not_deaf_of_wait hlive hwait), if_neg (not_not_intro hcrc), if_neg hform]

end Frame

theorem exec_cardDataBlock_of_good {lines : List (List Bool)} (hcur : s.fol.cur = some c) (hlive : cardLive s = true)
    (hwait : s.fol.wait = .readData) (hlines : lines.length = if s.fol.wide then 4 else 1)
    (hframed : lines.all (lineFramed (readSize c / if s.fol.wide then 4 else 1)) = true)
    (hcrc : (lines.filter (fun l => lineFramed (readSize c / if s.fol.wide then 4 else 1) l
      && !lineCrcOk (readSize c / if s.fol.wide then 4 else 1) l)).length = 0) :
    exec (.cardDataBlock lines) s =
      .next (cardDone (dealt (readSize c) (lines.map (fun l => lineBytes (readSize c / if s.fol.wide then 4 else 1) (l.drop 4)))) s.fol.eraseSeen s) := by
  change execCardDataBlock lines s = _
  simp only [execCardDataBlock, hcur, if_neg (not_deaf_of_wait hlive hwait)]
  exact congrArg Host.Outcome.next (if_neg (not_or.mpr ⟨not_not_intro hlines, not_or.mpr ⟨not_not_of_true hframed, not_not_intro hcrc⟩⟩))

section Ack
variable (hlive : cardLive s = true) (hwait : s.fol.wait = .ack)
include hlive hwait

theorem exec_cardAckByte_of_ack : exec (.cardAckByte 0xA5) s = .next { s with fol := { s.fol with wait := .busy, since := s.clk.now } } :=
  congrArg Host.Outcome.next ((if_neg (not_deaf_of_wait hlive hwait)).trans (if_pos rfl))

theorem exec_cardAckByte_of_other {b : Byte} (hb : b ≠ 0xA5) : exec (.cardAckByte b) s = .next (transferError (countCrc 1 s)) :=
  congrArg Host.Outcome.next ((if_neg (not_deaf_of_wait hlive hwait)).trans (if_neg hb))

end Ack

theorem exec_cardBusyEnd_of_busy (hcur : s.fol.cur = some c) (hlive : cardLive s = true) (hwait : s.fol.wait = .busy) :
    exec .cardBusyEnd s = .next (if c.code = 0x0C ∨ c.code = 0x13 then sendCard s.fol.task 0 statusCmd s else cardDone [] false s) := by
  change execCardBusyEnd s = _
  simp only [execCardBusyEnd, hcur, if_neg (not_deaf_of_wait hlive hwait)]

/-! ### Limits and the delayed answer (17 R430, Table 17-7) -/

/-- What a limit that has run out costs. -/
def limitPassed (limit : CardTimer) (s : State) : State :=
  match limit with
  | .response | .readData | .ack => transferError s
  | .busy => cardGiveUp s
  | .forceErase => cardGiveUp { s with fol := { s.fol with cur := if s.fol.task = .forceErase then some forceEraseCmd else s.fol.cur } }
  | .ident => identFail s

theorem not_early {due : Nat} (hlive : cardLive s = true) (hdue : due ≤ s.clk.now) : ¬ (!cardLive s || decide (s.clk.now < due)) = true := by
  simp [hlive, hdue]

theorem exec_cardTimeout_of_due {limit : CardTimer} {due : Nat} (hlive : cardLive s = true) (hdue : due ≤ s.clk.now)
    (hruns : timerRuns s.fol limit = some due) : exec (.cardTimeout limit) s = .next (limitPassed limit s) := by
  change execCardTimeout limit s = _
  simp only [execCardTimeout, hruns, if_neg (not_early hlive hdue)]
  cases limit <;> rfl

theorem exec_cardPwFailReply_of_due {t : Nat} (hfail : s.fol.pwFailAt = some t) (hlive : cardLive s = true)
    (hdue : t + cyMs 1000 ≤ s.clk.now) :
    exec .cardPwFailReply s = .next { cardAnswer .cardLocked [] s with fol := cardRest (cardAnswer .cardLocked [] s).fol } := by
  change execCardPwFailReply s = _
  simp only [execCardPwFailReply, hfail, if_neg (not_early hlive hdue)]

/-- Settles O50: the slot's events, the probe, each answer on the bus by its checks, and each limit by what it costs. -/
theorem cardRowsComplete : Obligations.CardRowsComplete := by
  refine ⟨fun s hseated hlive => exec_cardDebounceDone_of_live hseated hlive, fun s hpowered hlive => ?off, fun s hlive => ?removal,
    fun s mv low hlive hprobes => ?probe, fun s hlive hpower => ?powerFail,
    fun s f c hcur hlive hwait => ⟨fun hcrc => exec_cardResponseFrame_of_bad_crc hcur hlive hwait hcrc,
      fun hcrc hstart hstop hcode => exec_cardResponseFrame_of_good hcur hlive hwait hcrc hstart hstop hcode⟩,
    ?data, fun s hlive hwait => ⟨exec_cardAckByte_of_ack hlive hwait, fun b hb => exec_cardAckByte_of_other hlive hwait hb⟩,
    fun s c hcur hlive hwait => exec_cardBusyEnd_of_busy hcur hlive hwait, fun s due hlive hdue => ?timeout,
    fun s t hfail hlive hdue => exec_cardPwFailReply_of_due hfail hlive hdue⟩
  case off =>
    have hexec := exec_cardRemoval_of_on hpowered
    rw [if_neg (ne_true_of_eq_false hlive)] at hexec
    exact hexec
  case removal =>
    have hexec := exec_cardRemoval_of_on (aonOn_of_cardLive hlive)
    rw [if_pos hlive] at hexec
    exact hexec
  case probe => exact congrArg Host.Outcome.next (if_pos (and_of hlive hprobes))
  case powerFail => exact congrArg Host.Outcome.next (if_pos (and_of hlive hpower))
  case data =>
    exact fun s lines c hcur hlive hwait hlines hframed hcrc => exec_cardDataBlock_of_good hcur hlive hwait hlines hframed hcrc
  case timeout =>
    exact ⟨exec_cardTimeout_of_due hlive hdue, exec_cardTimeout_of_due hlive hdue, exec_cardTimeout_of_due hlive hdue,
      exec_cardTimeout_of_due hlive hdue, exec_cardTimeout_of_due hlive hdue⟩

end Sys2Proof.Proofs.CardRows
end

section
/-! SUPPORT. Lanes, training, flits and the test access port (02 R57 to R68; 18 R441). -/
namespace Sys2Proof.Proofs.LaneRows
open Sys2Proof Sys2Proof.Machine Sys2Proof.Safety Sys2Proof.Laws Sys2Proof.Proofs.Packets

variable {s : State} {i : Fin 34}

/-! ### Locks and markers (02 R61, R62, R66) -/

theorem exec_laneHeaderLock_of_hunting (hon : lanesOn s = true) (hlocked : (laneOf s i.val).locked = false) :
    exec (.laneHeaderLock i) s =
      let s1 := modLane i.val (fun l => { l with locked := true }) s
      .next (pumpState (if s.link.training && lanesLocked s1 == 34 then { s1 with link := { s1.link with step := max 4 s1.link.step } } else s1)) :=
  congrArg Host.Outcome.next (if_pos (and_of hon (not_of_false hlocked)))

/-- A change of a lane that leaves its lock leaves the number of locked lanes. -/
theorem lanesLocked_modLane (n : Nat) (f : Lane → Lane) (hf : ∀ l, (f l).locked = l.locked) (s : State) :
    lanesLocked (modLane n f s) = lanesLocked s := by
  have hlock : ∀ e : Nat × Lane, (if e.1 = n then (e.1, f e.2) else e).2.locked = e.2.locked := by
    intro e
    split
    · exact hf e.2
    · rfl
  simp only [lanesLocked, tcount, modLane_link, tmod, List.filter_map, List.length_map, Function.comp_def, hlock]

section Marker
variable {n : BitVec 6} {k : BitVec 16} {sk : BitVec 4} (hon : lanesOn s = true) (hlocked : (laneOf s i.val).locked = true)
  (hskew : sk.toNat ≤ 8)

/-- Step 5 of a training is done when every lane has its marker (02 R66). -/
def aligned (s s1 : State) : State :=
  if s.link.training = true ∧ lanesLocked s = 34 ∧ s1.link.lanes.all (fun e => e.2.marker.isSome) = true then
    { s1 with link := { s1.link with step := max 5 s1.link.step } }
  else s1

theorem aligned_of_same_locks {s1 : State} (htraining : s1.link.training = s.link.training) (hsame : lanesLocked s1 = lanesLocked s) :
    (if s1.link.training && lanesLocked s1 == 34 && s1.link.lanes.all (fun e => e.2.marker.isSome) then
      { s1 with link := { s1.link with step := max 5 s1.link.step } }
    else s1) = aligned s s1 := by
  simp only [aligned, htraining, hsame, Bool.and_eq_true, beq_iff_eq, and_assoc]

include hon hlocked hskew

theorem marker_condition {b : Byte} (hb : (b == 0xA5 || b == 0x5A) = true) :
    (lanesOn s && (laneOf s i.val).locked && (b == 0xA5 || b == 0x5A) && (~~~n) == ~~~n && decide (sk.toNat ≤ 8)
      && decide (k.toNat < 2 ^ 16)) = true :=
  and_of (and_of (and_of (and_of (and_of hon hlocked) hb) (beq_self_eq_true _)) (decide_eq_true hskew)) (decide_eq_true k.isLt)

theorem exec_laneAlignmentMarker_of_type {b : Byte} (hb : (b == 0xA5 || b == 0x5A) = true) :
    exec (.laneAlignmentMarker i b n (~~~n) k sk) s =
      .next (aligned s (modLane i.val (fun l => { l with
        inverted := if b == 0xA5 then l.inverted else !l.inverted, skew := sk.toNat
        marker := if (if b == 0xA5 then n else ~~~n).toNat < 34 then some (if b == 0xA5 then n else ~~~n).toNat else l.marker }) s)) := by
  refine congrArg Host.Outcome.next ((if_pos (marker_condition hon hlocked hskew hb)).trans ?_)
  refine aligned_of_same_locks rfl (lanesLocked_modLane _ _ ?_ s)
  exact fun _ => rfl

theorem exec_laneAlignmentMarker_of_upright :
    exec (.laneAlignmentMarker i 0xA5 n (~~~n) k sk) s =
      .next (aligned s (modLane i.val (fun l => { l with skew := sk.toNat, marker := if n.toNat < 34 then some n.toNat else l.marker }) s)) := by
  rw [exec_laneAlignmentMarker_of_type hon hlocked hskew (by decide)]
  simp only [beq_self_eq_true, if_true]

theorem exec_laneAlignmentMarker_of_inverted :
    exec (.laneAlignmentMarker i 0x5A n (~~~n) k sk) s =
      .next (aligned s (modLane i.val (fun l => { l with
        inverted := !l.inverted, skew := sk.toNat, marker := if (~~~n).toNat < 34 then some (~~~n).toNat else l.marker }) s)) := by
  have hinverted : ((0x5A : Byte) == 0xA5) = false := by decide
  rw [exec_laneAlignmentMarker_of_type hon hlocked hskew (by decide)]
  simp only [hinverted, Bool.false_eq_true, if_false]

end Marker

/-! ### Dead lanes and flits (02 R64, R65, R68) -/

theorem exec_laneDead_of_spare (hon : lanesOn s = true) (hup : s.link.up = true) (htraining : s.link.training = false)
    (hspare : (laneOf s i.val).rxRole = .spare) (hlocked : (laneOf s i.val).locked = false)
    (hdue : (laneOf s i.val).lostAt + cyMs 1 ≤ s.clk.now) :
    exec (.laneDead i) s = .next (raiseEvent (laneSrc i.val) kLaneDead 0x3F (modLane i.val (fun l => { l with rxRole := .dead }) s)) := by
  refine congrArg Host.Outcome.next ((if_pos ?_).trans ?_)
  · simp [hon, hup, htraining, hspare, hdue]
  · rw [if_neg (ne_true_of_eq_false hlocked)]
    exact if_pos hspare

section Up
variable (hon : lanesOn s = true) (hup : s.link.up = true) (htraining : s.link.training = false)
include hon hup htraining

theorem exec_flitReceived_of_length {f : Bytes} (hlen : f.length = 256) :
    exec (.flitReceived f) s =
      .next (if f.drop 248 = Config.crc64 (f.take 248) ∧ fld f 0 4 / 2 ^ 28 < 4 then takeFlit f s else sendNak s) :=
  (if_neg (not_not_intro hlen)).trans (congrArg Host.Outcome.next (if_pos (and_of (and_of hon hup) (not_of_false htraining))))

theorem exec_nakReceived_of_up {n : BitVec 12} : exec (.nakReceived n) s = .next (takeNak n.toNat s) :=
  congrArg Host.Outcome.next (if_pos (and_of (and_of hon hup) (not_of_false htraining)))

end Up

/-! ### The test access port (02 R57; 18 R441) -/

theorem exec_tapInstruction_of_select {ir : TapIr} (hpowered : s.pins.powered = true) (hmove : ∀ c, ir ≠ .provisionMove c) :
    exec (.tapInstruction ir) s = .next { s with pins := { s.pins with tapIr := tapSelect s.fuse.lifecycle ir } } := by
  refine congrArg Host.Outcome.next ((if_pos hpowered).trans ?_)
  cases ir with
  | provisionMove c => exact absurd rfl (hmove c)
  | idcode => rfl
  | bypass => rfl
  | bistStatus => rfl
  | other => rfl

theorem exec_tapInstruction_of_move {c : Bytes} (hpowered : s.pins.powered = true) (hlife : s.fuse.lifecycle = 0) (hlen : c.length = 5541)
    (hops : s.nvm.ops = []) :
    exec (.tapInstruction (.provisionMove c)) s =
      let s1 := { s with pins := { s.pins with tapIr := .other }, id := { s.id with cert := c } }
      .next (queueOps [transitionOp s1 1 c] s1) := by
  have hselect : tapSelect s.fuse.lifecycle (.provisionMove c) = .other := by simp [tapSelect, hlife]
  refine congrArg Host.Outcome.next ((if_pos hpowered).trans ?_)
  simp only [hselect]
  exact if_pos ⟨hlife, hlen, by simp [hops]⟩

/-- Settles O51: locks, markers, losses and training of the lanes, flits by their CRC, and the instructions of the access port. -/
theorem laneAndTapRowsComplete : Obligations.LaneAndTapRowsComplete := by
  refine ⟨fun s i hon hlocked => ?lock, fun s i hon hlocked => ?lost, fun s i n k sk hon hlocked hskew => ?marker,
    fun s i hon hup htraining hspare hlocked hdue => exec_laneDead_of_spare hon hup htraining hspare hlocked hdue,
    fun s h hon htraining => ?trained, fun s hon => ?refclk, fun s f hlen hon hup htraining => ?flit,
    fun s n hon hup htraining => exec_nakReceived_of_up hon hup htraining,
    fun s ir hpowered hmove => exec_tapInstruction_of_select hpowered hmove,
    fun s c hpowered hlife hlen hops => exec_tapInstruction_of_move hpowered hlife hlen hops⟩
  case lock =>
    have hexec := exec_laneHeaderLock_of_hunting hon hlocked
    refine ⟨fun hstep => ?waits, fun htraining hall => ?step⟩
    case waits =>
      refine hexec.trans (congrArg (fun x => Host.Outcome.next (pumpState x)) (if_neg ?_))
      rcases hstep with h | h
      · exact not_and_of_left h
      · exact not_and_of_right (beq_eq_false_iff_ne.mpr h)
    case step =>
      exact hexec.trans (congrArg (fun x => Host.Outcome.next (pumpState x)) (if_pos (and_of htraining (beq_iff_eq.mpr hall))))
  case lost => exact congrArg Host.Outcome.next (if_pos (and_of hon hlocked))
  case marker => exact ⟨exec_laneAlignmentMarker_of_upright hon hlocked hskew, exec_laneAlignmentMarker_of_inverted hon hlocked hskew⟩
  case trained => exact congrArg Host.Outcome.next (if_pos (and_of hon htraining))
  case refclk => exact congrArg Host.Outcome.next (if_pos hon)
  case flit =>
    have hexec := exec_flitReceived_of_length hon hup htraining hlen
    exact ⟨fun hcrc hkind => hexec.trans (congrArg _ (if_pos ⟨hcrc, hkind⟩)),
      fun hcrc => hexec.trans (congrArg _ (if_neg fun h => hcrc h.1))⟩

end Sys2Proof.Proofs.LaneRows
end
